-- ==== Sys2Proof/Word.lean ====
section
/-! DEFINITION. Word.lean: the plain word types and the sparse table type of the model. -/
namespace Sys2Proof

/-- A register word: the register space is accessed in aligned 32-bit words (R36). -/
abbrev Word := BitVec 32

/-- One byte. -/
abbrev Byte := BitVec 8

/-- An IEEE 754 binary32 value, held as its bits. -/
abbrev F32 := BitVec 32

/-- A sparse table: key and value pairs, keys strictly rising. An unlisted key reads as the default that each use names. -/
abbrev Tab (α : Type) := List (Nat × α)

end Sys2Proof
end

