-- ==== Sys2Proof/Syntax/Frames.lean ====
section
/-! DEFINITION. Syntax/Frames.lean: the fabric header and the message bodies the nodes exchange (Tables 11.1 and 11.2 and the tables they name). -/
namespace Sys2Proof

/-- A fabric address: zone in [17:12], member number in [11:0] (Table 11.1). -/
abbrev Addr := BitVec 18

/-- A fabric or partner link: 0 to 5 are F1 to F6, 6 is P. -/
abbrev Link := Fin 7

/-- The fabric header (Table 11.1). -/
structure FabHdr where
  ver : BitVec 4
  plane : BitVec 2
  cls : BitVec 2
  hops : BitVec 6
  src : Addr
  group : Bool
  unaddr : Bool
  stream : BitVec 12
  dst : Addr
  seq : BitVec 16
  length : BitVec 10
  kind : BitVec 6
  time : BitVec 32
  deriving DecidableEq, Repr

/-- A frame as it reaches the node: the link it came in on (none: the node delivers it to itself), whether its FCS and its
EtherType are right, its length from destination address to FCS, its header, and whether the plane it is for has not taken it yet, so
that it waits in its receive queue (R278). -/
structure Rx where
  link : Option Link
  fcsOk : Bool
  etherOk : Bool
  size : Nat
  hdr : FabHdr
  waits : Bool
  deriving DecidableEq, Repr

/-- HELLO (R262). `seen` is the latest HELLO its sender received on the link: serial, number and ingress instant. -/
structure HelloMsg where
  serial : Word
  zone : BitVec 6
  border : Bool
  unaddr : Bool
  member : BitVec 16
  lsaSeq : Word
  number : BitVec 16
  seen : Option (Word × BitVec 16 × BitVec 64)
  egress : BitVec 64
  deriving DecidableEq, Repr

/-- One LSA (R270): up to six neighbour entries of address and link number. -/
structure Lsa where
  addr : Addr
  serial : Word
  seq : Word
  border : Bool
  timeOk : Bool
  synced : Bool
  pref : BitVec 16
  neighs : List (Addr × Fin 6)
  deriving DecidableEq, Repr

/-- One line of a SYNC list: address, serial and sequence, and whether the entry is a tombstone. -/
structure LsaKey where
  addr : Addr
  serial : Word
  seq : Word
  tomb : Bool
  deriving DecidableEq, Repr

/-- SYNC (Table 11.2): a list of LSA sequences, of which `last` marks the last frame, or a request for LSAs. -/
inductive SyncMsg where
  | sequences (last : Bool) (l : List LsaKey)
  | request (l : List (Addr × Word))
  deriving DecidableEq, Repr

/-- CLAIM and DEFEND (R266): the number, its rank (CLAIM), the sender's serial and the transmission number. -/
structure ClaimMsg where
  number : BitVec 12
  rank : BitVec 2
  serial : Word
  tx : BitVec 2
  deriving DecidableEq, Repr

/-- TIME_MARK (R283). -/
structure TimeMark where
  root : Addr
  number : Word
  origin : BitVec 64
  step : Bool
  timeOk : Bool
  sysZone : BitVec 6
  crossings : BitVec 6
  deriving DecidableEq, Repr

/-- One path of a ZONE_UPDATE: the zones from the destination's neighbour back to the destination (R276). -/
structure ZonePath where
  zone : BitVec 6
  path : List (BitVec 6)
  deriving DecidableEq, Repr

/-- ZONE_SUMMARY (R277): zone, path length, and the members of one segment of 1,024 of its member bitmap. -/
structure ZoneSummary where
  zone : BitVec 6
  pathLen : Nat
  segment : Fin 4
  bitmap : BitVec 1024
  deriving DecidableEq, Repr

/-- NODE_STATE with its placement block (Tables 11.2 and 12.3). -/
structure NodeState where
  addr : Addr
  serial : Word
  configId : Word
  timeOk : Bool
  synced : Bool
  eligible : Bool
  refusing : Bool
  starved : Bool
  trend : Bool
  slots : BitVec 16
  used : BitVec 16
  primaries : BitVec 16
  shadows : BitVec 16
  catVersion : Word
  deriving DecidableEq, Repr

/-- An alarm event (Table 8.12). -/
structure AlmEvent where
  cause : BitVec 8
  oldState : BitVec 8
  newState : BitVec 8
  tag : Word
  occ : BitVec 16
  prio : BitVec 8
  quality : BitVec 8
  value : F32
  onset : BitVec 64
  cycle : Word
  cond : BitVec 8
  deriving DecidableEq, Repr

/-- An Accord event or state report (Table 9.3). -/
structure AccEvent where
  cause : BitVec 8
  oldState : BitVec 8
  newState : BitVec 8
  accord : BitVec 16
  prio : BitVec 8
  simul : BitVec 8
  foTag : Word
  trigTag : Word
  foOnset : BitVec 64
  active : BitVec 16
  unacked : BitVec 16
  changeT : Word
  deriving DecidableEq, Repr

/-- One entry of a member report (Table 9.1). -/
structure MemberEntry where
  index : BitVec 12
  prio : BitVec 2
  state : BitVec 3
  frozen : Bool
  cond : BitVec 4
  quality : BitVec 8
  occ : BitVec 16
  value : F32
  onset : Word
  deriving DecidableEq, Repr

/-- MEMBER_REPORT (Table 11.2): `key` is the ACCORD_ID, or the ROSTER_ID with bit 31 set. -/
structure MemberReport where
  key : Word
  frame : BitVec 16
  number : Word
  entries : List MemberEntry
  deriving DecidableEq, Repr

/-- MEAN (R216): a request for the mean of an Accord, or the mean with its good mark. -/
inductive MeanMsg where
  | request (accord : BitVec 16)
  | mean (accord : BitVec 16) (m : F32) (good : Bool)
  deriving DecidableEq, Repr

/-- An operation of the alarm engine's command queue (Tables 8.11 and 8.18). -/
inductive AlmOp where
  | ack (occ : BitVec 16)
  | shelve (secs : BitVec 15)
  | unshelve
  deriving DecidableEq, Repr

/-- The KEY payload of Table 10.5. -/
structure KeyMsg where
  key : BitVec 8
  action : BitVec 8
  seq : BitVec 16
  item : Word
  occ : BitVec 16
  deriving DecidableEq, Repr

/-- The CALL payload of Table 10.4. -/
structure CallMsg where
  roster : Word
  callNum : BitVec 16
  state : BitVec 8
  stage : BitVec 8
  prio : BitVec 8
  duty : Bool
  notResponding : Bool
  patrol : Bool
  sources : BitVec 16
  first : Word
  answer : Word
  time : BitVec 64
  deriving DecidableEq, Repr

/-- One PAGE_LINE payload of Table 10.6: the text is 24 bytes. -/
structure PageLine where
  set : BitVec 16
  page : BitVec 8
  line : BitVec 8
  attr : BitVec 8
  text : List Byte
  deriving DecidableEq, Repr

/-- What a node sends to a panel, less the frames it forms itself (Tables 10.4 and 10.6). -/
inductive PanelMsg where
  | call (m : CallMsg)
  | dutyLamp (roster : Word) (lamp : Bool) (eng : BitVec 8)
  | patrol (roster : Word) (state : BitVec 8) (secs : BitVec 16)
  | sound (pattern prio : BitVec 8)
  | pageLine (l : PageLine)
  | pageEnd (set : BitVec 16) (page : BitVec 8) (lines : BitVec 8) (crc : Word)
  | nodeBeat (addr : Word) (state : BitVec 8)
  deriving DecidableEq, Repr

/-- CALL_COMMAND (Table 11.2): content for the panel a panel reference names. -/
structure CallCommand where
  roster : Word
  panel : Word
  msg : PanelMsg
  deriving DecidableEq, Repr

/-- DELIVERY_REPORT (R227, R245): the panel, the call and its stage, whether the frame was delivered and its start-of-frame instant. -/
structure Delivery where
  roster : Word
  panel : Word
  callNum : BitVec 16
  stage : BitVec 8
  delivered : Bool
  sof : BitVec 64
  deriving DecidableEq, Repr

/-- OUTPUT_COMMAND (R228): output k is commanded ON or OFF. -/
structure OutCommand where
  output : Fin 16
  on : Bool
  deriving DecidableEq, Repr

/-- One lit ON DUTY lamp of a duty report: panel reference and fabric time of the press (R229). -/
structure DutyLamp where
  panel : Word
  time : BitVec 64
  deriving DecidableEq, Repr

/-- The whole state of a call manager, as ITEM_STATE carries it (R229, R310). Times are fabric times in µs;
`patrolEnd` is when a patrol last ended, and `silenced` the panels silenced since the call's latest stage. -/
structure CallState where
  callNum : BitVec 16
  state : BitVec 2
  stage : BitVec 2
  stageAt : BitVec 64
  startAt : BitVec 64
  stage2At : BitVec 64
  answer : Word
  panels : List Word
  sources : List (Word × Bool × BitVec 2)
  duty : Option (BitVec 5 × BitVec 64)
  patrol : BitVec 2
  patrolAt : BitVec 64
  patrolPanel : Word
  patrolEnd : BitVec 64
  silenced : List Word
  rebuilt : Bool
  view : BitVec 16
  changedAt : BitVec 64
  deriving DecidableEq, Repr

/-- A patrol as a node that carries its panel keeps it (R229, R232): its start, its latest reset, and the panel of that reset. -/
structure PatrolNote where
  start : BitVec 64
  last : BitVec 64
  panel : Word
  deriving DecidableEq, Repr

/-- A duty report (R229): the lit lamps, the patrol start and latest reset, the highest call number sent. -/
structure DutyReport where
  lamps : List DutyLamp
  patrol : Option PatrolNote
  topCall : Option (BitVec 16)
  deriving DecidableEq, Repr

/-- One point source a call manager tells the renderers of (R375). -/
structure PointSource where
  tag : Word
  state : BitVec 3
  prio : BitVec 2
  onset : BitVec 64
  deriving DecidableEq, Repr

/-- ITEM_STATE (KIND 0x19): a shadow state or STEP_DOWN of a call manager, a duty report, or what R375 sends a renderer. A state too
large for one frame is sent in `parts` parts of its panels and sources, or of its point sources (R258). -/
inductive ItemStateMsg where
  | state (item : Word) (primary : Bool) (stepDown : Bool) (part : Nat) (parts : Nat) (st : CallState)
  | duty (roster : Word) (from_ : Addr) (r : DutyReport)
  | render (item : Word) (stage : BitVec 2) (call : BitVec 2) (part : Nat) (parts : Nat) (points : List PointSource)
  deriving DecidableEq, Repr

/-- PAGE_CONTENT (Table 15.5): `pages` is the number of pages minus 1. -/
structure PageContent where
  item : Word
  set : BitVec 16
  page : BitVec 8
  pages : BitVec 8
  lines : List PageLine
  deriving DecidableEq, Repr

/-- One entry of a catalogue (Table 12.2). -/
structure CatEntry where
  item : Word
  defCrc : Word
  refused : Bool
  deriving DecidableEq, Repr

/-- A CATALOGUE or CATALOGUE_RELAY frame (Table 12.2). -/
structure Catalogue where
  origin : Addr
  version : Word
  slots : BitVec 16
  eligible : Bool
  crossings : BitVec 8
  index : BitVec 8
  count : BitVec 8
  entries : List CatEntry
  deriving DecidableEq, Repr

/-- The 32 bytes of KIND 0x1E (Table 13.3), less the subtype. -/
structure PairMsg where
  outputsDriven : Bool
  mirroring : Bool
  forceActive : Bool
  beatNum : BitVec 16
  health : Word
  configId : Word
  configIssue : Word
  doCmd : BitVec 16
  cycle : BitVec 16
  phase : Word
  ckptGen : Word
  addr : Addr
  deriving DecidableEq, Repr

/-- The subtypes of KIND 0x1E (Table 13.3). -/
inductive PairKind where
  | beat | probe | probeReply | handoverReq | grant | released
  deriving DecidableEq, Repr

/-- What the checkpoint of Table 13.6 says of one output. -/
structure CkptDo where
  cmd : Bool
  phase : BitVec 2
  holdLeft : Nat
  tsdLatched : Bool
  deriving DecidableEq, Repr

/-- What the checkpoint of Table 13.6 says of one repeat output. -/
structure CkptAr where
  code : BitVec 16
  driven : Bool
  source : F32
  deriving DecidableEq, Repr

/-- A checkpoint on P (Table 13.6), whole. `runtime` gives the eight runtime words of each point of the half sent. -/
structure Checkpoint where
  gen : Word
  fmt : BitVec 16
  configId : Word
  configIssue : Word
  cycle : Word
  fabricTime : BitVec 64
  runtime : Tab (List Word)
  dos : List CkptDo
  ars : List CkptAr
  lastGood : List (F32 × BitVec 64)
  config : List (BitVec 24 × Word)
  subscribers : List (Addr × BitVec 112)
  panels : List (Word × Bool × BitVec 16 × Bool)
  deriving DecidableEq, Repr

/-- A value-table entry (Table 1.4). -/
structure ValEntry where
  seq : BitVec 16 := 0
  quality : BitVec 8
  value : F32 := 0
  deriving DecidableEq, Repr

/-- The mirror of one tick (R336, subtype 0x03): the latched value and instant tables and the commands step 3 applies. -/
structure TickMirror where
  fmt : BitVec 16
  cycle : Word
  values : Tab ValEntry
  instants : Tab (BitVec 64)
  commands : List (BitVec 12 × AlmOp)
  complete : Bool
  deriving DecidableEq, Repr

/-- One entry of a PUBLICATION (Table 11.9). -/
structure PubEntry where
  entry : Fin 112
  quality : BitVec 8
  value : F32
  instant : BitVec 64
  deriving DecidableEq, Repr

/-- The TREND payload (Table 12.6). -/
structure TrendMsg where
  item : Word
  period : Word
  start : BitVec 64
  means : List F32
  quals : List Byte
  deriving DecidableEq, Repr

/-- What a management request asks (Table 17.2), for the operations a fabric frame may carry and those only port S may. -/
inductive MgmtOp where
  | discover
  | read (addr : Word) (count : BitVec 16)
  | write (addr : Word) (words : List Word)
  | logRead (first : Word) (count : BitVec 8)
  | trendRead (item : Word) (period : Word) (count : BitVec 8)
  | reset (serial : Word)
  | sOnly (op : BitVec 8)
  | bad (op : BitVec 8)
  deriving DecidableEq, Repr

/-- A management reply (Table 17.1): the OP of its request, STATUS, DETAIL, who executed it, and the body's bytes. -/
structure MgmtReply where
  op : BitVec 8
  tag : BitVec 16
  status : BitVec 8
  detail : BitVec 8
  unaddr : Bool
  addr : Addr
  body : List Byte
  deriving DecidableEq, Repr

/-- The body of a fabric frame, by KIND (Table 11.2). -/
inductive Body where
  | hello (m : HelloMsg)
  | lsa (l : List Lsa)
  | sync (m : SyncMsg)
  | claim (m : ClaimMsg)
  | defend (m : ClaimMsg)
  | timeMark (m : TimeMark)
  | zoneUpdate (l : List ZonePath)
  | zoneSummary (m : ZoneSummary)
  | nodeState (m : NodeState)
  | drydownNotice (addr : Addr) (serial : Word)
  | alarmEvent (item : Word) (recs : List AlmEvent)
  | accordEvent (item : Word) (recs : List AccEvent)
  | memberReport (m : MemberReport)
  | mean (item : Word) (m : MeanMsg)
  | alarmCommand (item : Word) (tag : Word) (op : AlmOp)
  | keyRelay (panel : Word) (k : KeyMsg)
  | callCommand (item : Word) (c : CallCommand)
  | deliveryReport (d : Delivery)
  | outputCommand (item : Word) (c : OutCommand)
  | itemState (m : ItemStateMsg)
  | pageContent (m : PageContent)
  | catalogue (c : Catalogue)
  | catalogueRelay (c : Catalogue)
  | catalogueRequest (held : Word)
  | pair (k : PairKind) (m : PairMsg)
  | checkpoint (c : Checkpoint)
  | eventMirror (fmt : BitVec 16) (e : AlmEvent)
  | tickMirror (m : TickMirror)
  | publication (l : List PubEntry)
  | subscribe (mask : BitVec 112)
  | trend (m : TrendMsg)
  | mgmtRequest (tag : BitVec 16) (op : MgmtOp)
  | mgmtReply (m : MgmtReply)
  | zoneOffset (offset : Int)
  deriving DecidableEq, Repr

/-- A frame waiting to be sent: its header and body. -/
structure Frame where
  hdr : FabHdr
  body : Body
  deriving DecidableEq, Repr

end Sys2Proof
end

