-- ==== Sys2Proof/Syntax.lean ====
section
/-! DEFINITION. Syntax.lean: the commands of the node, one constructor for each row of the table of operations and events.
A command is an event that reaches the block: its sender says that it happened, with what came with it. -/
namespace Sys2Proof

/-- The three planes (R12). -/
inductive Plane where
  | control | data | management
  deriving DecidableEq, Repr

/-- The partitions of main SRAM (Table 1.7). -/
inductive SramArea where
  | control | data | management | meeting
  deriving DecidableEq, Repr

/-- The nine islands, in the order of Table 1.5. -/
inductive Island where
  | core | conversion | link | panelBus | io | display | time | supervisor | service
  deriving DecidableEq, Repr

/-- The watchdog channels (R27). -/
inductive WdChannel where
  | control | data | management | engine
  deriving DecidableEq, Repr

/-- A CAN frame's identifier as received: port (0 for C1), format and identifier (R238). -/
structure CanId where
  port : Fin 2
  ext : Bool
  ident : BitVec 29
  deriving DecidableEq, Repr

/-- PANEL_BEAT (Table 10.6). -/
structure PanelBeatMsg where
  kind : BitVec 8
  faults : BitVec 8
  set : BitVec 16
  page : BitVec 8
  firmware : BitVec 16
  deriving DecidableEq, Repr

/-- Whose error an error frame shows (R251): a transmitter's (TEC + 8), one of the standard's exceptions in which it moves no count,
or a receiver's (REC + 1). Each dominant bit that the standard adds 8 for in the same error frame comes beside it. -/
inductive CanErr where
  | transmit | exempt | receive
  deriving DecidableEq, Repr

/-- The queues of one link (Table 11.7). -/
inductive TxQueue where
  | urgent | routine | mgmt | data
  deriving DecidableEq, Repr

/-- What makes a candidate healthy (R305): ten seconds in the view, or ten seconds of quorum for an item. -/
inductive HealthyBy where
  | view (node : Addr)
  | quorum (item : Word)
  deriving DecidableEq, Repr

/-- The two heartbeat paths (R326). -/
inductive PairPath where
  | p | fabric
  deriving DecidableEq, Repr
/-- The two field supplies (R77). -/
inductive Supply where
  | fsA | fsB
  deriving DecidableEq, Repr

/-- The conditions of a field supply (Table 3.5). -/
inductive SupplyCond where
  | absent | low | high | overCur
  deriving DecidableEq, Repr

/-- A housekeeping reading of one cold-junction sensor (R129, R130): its temperature in °C, and whether its resistance reads as
open or short. -/
structure CjReading where
  temp : F32
  broken : Bool
  deriving DecidableEq, Repr

/-- One result of a spritz slot (R148 to R151): the block, Rp in ohms, Cp in nF, and whether the integration began after the
channel's restart point (R158). -/
structure SpritzRes where
  block : Fin 8
  rp : F32
  cp : F32
  afterRestart : Bool
  deriving DecidableEq, Repr

/-- The filtered output diagnostics (Table 7.5). -/
inductive DoDiag where
  | openOn | openOff | extDrive
  deriving DecidableEq, Repr

/-- What comes with a start (R79 to R90, R325, R334, R415): whether presence was lost before the signature verdict, the banks whose flash
does not read back as programmed, whether the measured start checks of a pair member pass, whether a pair member sees the loop held at
end of start, and the milliseconds from release to end of start. `stop`: the command ends at configuration live, and the rest of the
sequence is a START_SEQUENCE of its own. -/
structure StartObs where
  testOk : Bool
  removed : Bool
  fwBad : BitVec 2
  loopHeld : Bool
  stop : Bool
  ms : BitVec 16
  deriving DecidableEq, Repr

/-- A request at port S (Table 17.1): source address and port, TAG, TARGET, and whether it waits in the node's queue of requests before
it is executed (R410). -/
structure SvcReq where
  ip : Word
  port : BitVec 16
  tag : BitVec 16
  self : Bool
  target : Addr
  waits : Bool
  deriving DecidableEq, Repr

/-- The origin of a request (R410). -/
inductive SvcOrigin where
  | portS (ip : Word) (port : BitVec 16)
  | gateway (addr : Addr)
  deriving DecidableEq, Repr

/-- The body of KEY_INSTALL and KEY_REMOVE (R413); byte 0 of SIG is its lowest. -/
structure KeyReq where
  slot : BitVec 8
  signer : BitVec 8
  nonce : BitVec 128
  key : BitVec 256
  sig : BitVec 512
  deriving DecidableEq, Repr

/-- One UPD_BLOCK fragment (Table 17.5), and whether the programmed block reads back as built (R420). -/
structure UpdFrag where
  block : BitVec 16
  method : BitVec 8
  frag : BitVec 8
  frags : BitVec 8
  src : BitVec 16
  crc : Word
  data : List Byte
  readBack : Bool
  deriving DecidableEq, Repr

/-- What is wrong with a datagram (R408). -/
inductive DgramFault where
  | short | version | length | reservedOp
  deriving DecidableEq, Repr

/-- The commands: one constructor for each row of the table, named after the row; those with operands stand first (the code
generator takes no more than 244 constructors that carry data), each group in the order of the table. -/
inductive Instr where
  /-- R30: A core-pair access outside the running partition and the meeting area is refused and treated as a lockstep failure. -/
  | partitionViolation (window : Plane) (area : SramArea)
  /-- R26: A crystal-derived clock stops or is more than 5 % off for 100 µs; the supervisor releases OWN and resets the node with cause CLOCK. -/
  | clockFailure (isl : Island)
  /-- R27: A plane writes its watchdog service word, or the engine ends its last slot, which restarts that watchdog channel. -/
  | watchdogService (ch : WdChannel) (value : BitVec 16)
  /-- R27: An armed watchdog channel goes 20 ms without service; the supervisor releases OWN, asserts the freeze line and resets the node with cause WATCHDOG. -/
  | watchdogExpiry (ch : WdChannel)
  /-- R53: The background scrubber reads a protected word, corrects it or marks it uncorrectable, and counts finished passes. -/
  | scrubRead (m : Fin 8) (word : BitVec 24) (data : Word) (check : BitVec 12) (clientWrite : Bool) (passEnds : Bool)
  /-- R53: A scrub pass runs longer than 10 s and SYS_STATUS.SCRUB_BEHIND sets until that pass ends. -/
  | scrubBehind (m : Fin 8)
  /-- R42: A write to an RSQ register clears its event bits only if the SEQ written equals the SEQ held. -/
  | rsqClearWrite (addr : BitVec 24) (value : Word) (coincident : Bool)
  /-- R40: A write to a register that has no row of its own takes effect at once in its block. -/
  | registerWrite (addr : BitVec 24) (value : Word)
  /-- R48: Writing 1 to SYS_LOCK.LK sets the lock until the next reset. -/
  | lockSet (value : Word)
  /-- R47: Writing SYS_SNAP.ABORT while BUSY stops the copy, unless it coincides with completion and becomes LATE. -/
  | snapshotAbort (coincident : Bool)
  /-- R60: No valid half-cycle for 20 ms sets MAINS_LOST and RIDING and writes an event record. -/
  | mainsLost (since : Nat)
  /-- R60: A full mains cycle completes; MAINS_LOW and FREQ_OUT are judged and the averaged frequency is updated and passed on. -/
  | mainsCycleEnd (rms : BitVec 16) (valid : Bool) (period : Nat)
  /-- R66: The bus falls through 300 V and the node runs the Drydown save sequence of Table 3.3. -/
  | drydownTrigger (since : Nat) (bus : BitVec 16) (begun : BitVec 2)
  /-- R68: The bus falls below 240 V during Drydown; a running panel update stops at its next balanced boundary. -/
  | drydownGuard (bus : BitVec 16)
  /-- R72: The bus falls below 210 V before Drydown completes; the save stops, the display rails are discharged and the islands are held in reset. -/
  | drydownAbandon (saved : BitVec 10)
  /-- R67: When the panel update has finished or stopped, SUP_DD_LAST is written and every island except the time island and the supervisor is held in reset. -/
  | drydownComplete (bus : BitVec 12) (ms : BitVec 10)
  /-- R77: A field-supply condition holds or is absent for its filter time; the status bit sets or clears, and a set latches FS_FAULT and writes a record. -/
  | fieldSupplyMonitor (sup : Supply) (cond : SupplyCond) (set : Bool) (mv : BitVec 16) (ma : BitVec 16)
  /-- R79: After release from reset, the node runs the start sequence of Table 4.1 up to end of start or safe idle. -/
  | startSequence (o : StartObs)
  /-- R99: In safe idle, the presence contacts open and then stay closed for 2 s, and start steps 6 to 10 run again. -/
  | flaconRetry (o : StartObs)
  /-- R83: Both presence contacts stay closed for 20 ms and FLACON_GONE clears. -/
  | flaconInserted (jedec : BitVec 24) (bytes : List Byte)
  /-- R111: PDET stays closed for 20 ms; the code is read and the plug is accepted, excitation enabled and channels restarted, or the plug is found miscoded. -/
  | plugAccepted (b : Fin 8) (code : BitVec 3)
  /-- R111: PDET opens; the block's excitation switches off within 1 ms and its channels carry BAD_BREAK. -/
  | plugRemoved (b : Fin 8)
  /-- R118: The sensed excitation stays more than 2 % from its set value for 10 ms; EXC_UNREG sets and the value carries BAD_EXC. -/
  | excUnreg (n : Fin 64) (on : Bool)
  /-- R119: A loop supply starts or stops limiting at 25 mA; LOOP_LIMIT follows it and is latched on start. -/
  | loopLimit (n : Fin 64) (on : Bool)
  /-- R125: A channel's excitation current limit starts or stops acting; EXC_LIMIT follows it and the value carries BAD_EXC. -/
  | excLimit (n : Fin 64) (on : Bool)
  /-- R126: Every 1 ms, the block's counted excitation draw is measured and BLK_STATUS.EXC_LIMIT is set or cleared. -/
  | blockDrawMeasure (b : Fin 8) (ua : List Nat)
  /-- R127: The block supplies enter or leave foldback at 1.32 W; FOLDBACK follows them, BAD_EXC applies and the filters restart at the end. -/
  | foldback (b : Fin 8) (on : Bool)
  /-- R127: EXC_LIMIT has held for a further 10 ms; the channel with the largest draw is shed and a retry is scheduled. -/
  | excShed (b : Fin 8)
  /-- R128: At retry_at, the lowest shed channel is restored and observed for 1 s. -/
  | shedRetry (b : Fin 8)
  /-- R128: The 1 s observation after a retry ends without a new shed, and the next retry is scheduled 10 s on or none. -/
  | shedRetryCheck (b : Fin 8)
  /-- R123: A write to CAL_GAIN[n] is clamped to 0.9-1.1, applied and stamped with SUP_OP_SECONDS. -/
  | calGainWrite (n : Fin 64) (value : Word)
  /-- R123: A write to CAL_OFFSET[n] is clamped to the type's bound, applied and stamped with SUP_OP_SECONDS. -/
  | calOffsetWrite (n : Fin 64) (value : Word)
  /-- R135: A write to AFE_CFG[n] switches the type, wiring or range, restarts the filter and latches TYPE_WRITE. -/
  | afeCfgWrite (n : Fin 64) (value : Word)
  /-- R135: A write to AFE_EXC[n] moves the excitation source, restarts the filter and restores a shed channel. -/
  | afeExcWrite (n : Fin 64) (value : Word)
  /-- R135: A write to AFE_RATE[n] restarts the filter at the new rate with SETTLING. -/
  | afeRateWrite (n : Fin 64) (value : Word)
  /-- R129: Ten times a second, the housekeeping converter measures CJ1 and CJ2 and updates the cold-junction values and failures. -/
  | cjMeasure (b : Fin 8) (r1 : CjReading) (r2 : CjReading)
  /-- R130: The two cold-junction sensors differ by more than 5 °C for 10 s and CJ_SPREAD sets. -/
  | cjSpread (b : Fin 8) (on : Bool)
  /-- R141: The first qualifying first-stage output after a restart cause clears the second stage and starts the new grid of instants and the settle. -/
  | restartPoint (n : Fin 64) (bits : List Bool)
  /-- R140: At an output instant, the sample is scaled, given its quality and written to the value table within 0.10 ms. -/
  | outputSample (n : Fin 64) (bits : List Bool) (iexc : Nat) (vexc : Nat) (same : Bool)
  /-- R148: Every 25 ms, a slot measures the admittance of channel k of every block with the 16 kHz tone, following Table 6.4. -/
  | spritzSlot (k : Fin 8) (res : List SpritzRes)
  /-- R152: At the end of each 1 ms bitstream window, the coarse detector sets or clears MOD_RANGE, TERM_RANGE, EXC_LOST and LOOP_OPEN. -/
  | coarseWindow (n : Fin 64) (bits : List Bool) (term : Bool) (iexc : Nat)
  /-- R162: A write to AFE_HEALTH[n] or AFE_HEALTH2[n] applies from the next spritz result, and turning the spritz off clears OPEN and SHORT. -/
  | afeHealthWrite (n : Fin 64) (second : Bool) (value : Word)
  /-- R165: On each 10 ms tick, all eight repeat outputs take their sources' latest samples and drive the code of Table 7.1. -/
  | repeatOutputTick (meas : List (Nat × Nat))
  /-- R170: Every 1 ms, each input is sampled, its counter filter runs and its value-table entry is written. -/
  | diSample (ins : List (Nat × Nat)) (outs : List (Nat × Nat))
  /-- R172: A write to DI_CFG[k] changes N, INVERT, EN or WB_EN at the next sample. -/
  | diCfgWrite (k : Fin 32) (value : Word)
  /-- R174: An output's current limit starts or stops acting and LIMIT follows it. -/
  | doCurrentLimit (k : Fin 16) (on : Bool)
  /-- R174: A limiting switch reaches 150 °C and thermal shutdown switches it off. -/
  | doTsd (k : Fin 16)
  /-- R174: The junction cools to 135 °C; with automatic restart, the switch turns on again if still commanded ON. -/
  | doTsdCooled (k : Fin 16)
  /-- R174: With latched restart, the effective command has been OFF for 10 ms and TSD_LATCHED clears. -/
  | doTsdLatchRelease (k : Fin 16)
  /-- R175: No command arrives for 1,000 ms for an output with SOURCE 0b01; STALE sets and the output goes to its fail state. -/
  | doStale (k : Fin 16)
  /-- R177: An output diagnostic condition holds or is absent for its filter time, and OPEN_ON, OPEN_OFF or EXT_DRIVE sets or clears. -/
  | doDiagnosticFilter (k : Fin 16) (diag : DoDiag) (on : Bool)
  /-- R180: A fixative in TRACK misses its keep-alive for 2 ms, enters HOLD and starts its timer. -/
  | fixKeepaliveLost (k : Fin 16)
  /-- R181: A fixative's hold timer reaches DO_FIX[k].HOLD; the output is released OFF and HOLD_END is kept for the next start. -/
  | fixHoldEnd (k : Fin 16)
  /-- R180: The field supply falls below 12.0 V, or recovers, and the fixative releases its output or returns to TRACK. -/
  | fixSupplyRelease (sup : Supply) (low : Bool)
  /-- R201: The on-delay count passes ON_DELAY and COND sets. -/
  | onDelayExpiry (point : Fin 4096)
  /-- R201: The off-delay count passes OFF_DELAY and COND clears. -/
  | offDelayExpiry (point : Fin 4096)
  /-- R202: The block-release count passes BLOCK_DELAY and the block lets go. -/
  | blockDelayExpiry (point : Fin 4096)
  /-- R202: ALM_SHELVE_LEFT counts down to 0 and the point is unshelved. -/
  | shelveExpiry (point : Fin 4096)
  /-- R204: An ACK command for a point with an occurrence is queued and applied at the next command phase. -/
  | almCmdAck (index : BitVec 12) (occ : BitVec 16)
  /-- R204: A SHELVE command for a point for s seconds is queued and applied or refused at the next command phase. -/
  | almCmdShelve (index : BitVec 12) (secs : BitVec 15)
  /-- R204: An UNSHELVE command for a point is queued and applied at the next command phase. -/
  | almCmdUnshelve (index : BitVec 12)
  /-- R208: A window write to an alarm-point record's configuration takes effect in the point's next slot, with the effects of Table 8.13. -/
  | almRecWrite (w : Fin 16) (value : Word)
  /-- R212: A received member report updates the known member states of an Accord or call manager. -/
  | memberReport (rx : Rx) (m : MemberReport)
  /-- R214: A received alarm event updates the Accord state, or the call sources, and the first-out. -/
  | alarmEvent (rx : Rx) (item : Word) (recs : List AlmEvent)
  /-- R214: The first-out window closes 40 ms after it opened and the first-out is fixed. -/
  | firstOutWindowClose (accord : BitVec 16)
  /-- R212: The group timer reaches GROUP_DELAY while a member is active, and the Accord goes to RAISED_UNACK. -/
  | groupDelayExpiry (accord : BitVec 16)
  /-- R198: A received mean, or mean request, is stored with its arrival time and good flag, or records the requester. -/
  | mean (rx : Rx) (item : Word) (m : MeanMsg)
  /-- R217: A received Accord event or state report is applied by CHANGE_T order. -/
  | accordEvent (rx : Rx) (item : Word) (recs : List AccEvent)
  /-- R218: An evaluator that starts decides its state from member reports once all have reported or 1 s has passed, and emits REBUILT. -/
  | evaluatorRebuild (accord : BitVec 16)
  /-- R219: A relayed panel key is applied by the items concerned as Table 9.4 gives. -/
  | keyRelay (rx : Rx) (panel : Word) (k : KeyMsg)
  /-- R231: The patrol timer reaches PATROL_WARN; the patrol is WARNED and the control-room panels sound a warning. -/
  | patrolWarn (roster : Word)
  /-- R231: The patrol timer reaches PATROL_CALL; the patrol is CALLED and a CRITICAL call starts at stage 2. -/
  | patrolCall (roster : Word)
  /-- R226: At the first tick after T1 or T2 has run out unanswered, the call enters its next stage. -/
  | stageTimeout (roster : Word)
  /-- R227: A delivery report reaches the call manager and an undelivered duty-cabin call advances to stage 2. -/
  | deliveryReport (rx : Rx) (d : Delivery)
  /-- R311: A received ITEM_STATE is applied as shadow state, duty report or STEP_DOWN. -/
  | itemState (rx : Rx) (m : ItemStateMsg)
  /-- R229: 150 ms after a call manager starts without shadow state, it decides duty, patrol and sources from reports and may start a call. -/
  | callManagerRebuild (roster : Word)
  /-- R240: A KEY frame from a panel is checked for a duplicate SEQ and passed to the items concerned. -/
  | key (id : CanId) (k : KeyMsg) (sof : Word)
  /-- R242: A PANEL_BEAT marks its panel present. -/
  | panelBeat (id : CanId) (m : PanelBeatMsg) (sof : Word)
  /-- R376: A PAGE_REQ makes the node resend the requested page from its stored lines. -/
  | pageReq (id : CanId) (set : BitVec 16) (page : BitVec 8) (sof : Word)
  /-- R242: No PANEL_BEAT for 3 s clears the panel's presence bit, latches PANEL_LOST and writes a record. -/
  | panelLost (port : Fin 2) (panel : Fin 64)
  /-- R254: A received node-to-panel frame with this node's station that it did not send is counted and flagged as a clash. -/
  | canClash (id : CanId) (sof : Word)
  /-- R254: 10 s pass without a further clash and PB_STATUS.CLASH clears. -/
  | clashClear (port : Fin 2)
  /-- R239: A refresh timer of a panel message runs out and the message is queued again. -/
  | panelRefresh (port : Fin 2) (panel : Fin 64) (code : BitVec 16)
  /-- R247: While the FIFO holds fewer than DEPTH frames, the admission logic moves the next frame from the call queue or the other queue. -/
  | fifoAdmit (port : Fin 2)
  /-- R247: A CALL-class frame still unsent 1 s after queueing is withdrawn and reported undelivered. -/
  | callFrameWithdraw (port : Fin 2) (frame : Nat) (begun : Option Word)
  /-- R247: A frame completes with an acknowledge and leaves the FIFO, and a change frame is reported delivered. -/
  | canTxComplete (port : Fin 2) (sof : Word)
  /-- R251: An error frame updates TEC and REC, the warning and passive flags and the error-frame count. -/
  | canErrorFrame (port : Fin 2) (err : CanErr) (eights : Nat) (sof : Word)
  /-- R252: TEC exceeds 255; the port stops, flushes its FIFO and queues, and starts the bus-off wait. -/
  | busOff (port : Fin 2)
  /-- R252: BUSOFF_WAIT seconds after bus-off, the firmware requests recovery. -/
  | busoffWaitExpiry (port : Fin 2)
  /-- R252: Bus-off recovery completes; counts are 0, admission resumes and the port state of R253 is sent. -/
  | busoffRecovered (port : Fin 2)
  /-- R262: A fabric or partner link's PHY trains and HELLOs begin. -/
  | phyUp (k : Link)
  /-- R278: A link's PHY goes down; two-way state is lost and its transmit queues are discarded. -/
  | phyDown (k : Link)
  /-- R262: A received HELLO updates the link's two-way state, neighbour and delay measurement. -/
  | hello (rx : Rx) (m : HelloMsg)
  /-- R262: No HELLO for 300 ms ends the link's two-way state. -/
  | neighbourTimeout (k : Link)
  /-- R263: An enabled link without a neighbour for 2 s sets LINK_ALONE. -/
  | linkAlone (k : Link)
  /-- R265: A SYNC frame exchanges LSA sequences or requests missing LSAs. -/
  | sync (rx : Rx) (m : SyncMsg)
  /-- R271: A received LSA is accepted and flooded if it is new or newer, or dropped. -/
  | lsa (rx : Rx) (l : List Lsa)
  /-- R270: An LSA not refreshed for 120 s becomes a tombstone. -/
  | lsaTombstone (addr : Addr) (serial : Word)
  /-- R270: A tombstone held for 24 h of operation is removed. -/
  | tombstoneExpiry (addr : Addr) (serial : Word)
  /-- R266: A received CLAIM is forwarded under the claim cache and acted on as Table 11.3 gives. -/
  | claim (rx : Rx) (m : ClaimMsg)
  /-- R266: A received DEFEND is forwarded, and a claimant of that number loses it. -/
  | defend (rx : Rx) (m : ClaimMsg)
  /-- R266: The 1 s exclusion of a number claimed by another node ends. -/
  | claimExclusionExpiry (number : BitVec 12)
  /-- R260: A received frame for another node is checked and forwarded with HOPS raised, or discarded. -/
  | frameForward (rx : Rx) (b : Body)
  /-- R276: Received zone paths are accepted or rejected and the best path is chosen. -/
  | zoneUpdate (rx : Rx) (l : List ZonePath)
  /-- R276: A zone path not refreshed for 3 s is dropped. -/
  | zonePathExpiry (zone : BitVec 6) (neigh : Addr)
  /-- R277: A received ZONE_SUMMARY updates exits and the membership view. -/
  | zoneSummary (rx : Rx) (m : ZoneSummary)
  /-- R301: A received NODE_STATE updates eligibility and may prompt a catalogue request. -/
  | nodeState (rx : Rx) (m : NodeState)
  /-- R273: A received DRYDOWN_NOTICE drops the neighbour and its link from the view at once. -/
  | drydownNotice (rx : Rx) (addr : Addr) (serial : Word)
  /-- R279: At a frame boundary on a link, the next frame is chosen by queue priority and management credit. -/
  | linkFrameEnd (k : Link)
  /-- R278: A frame that has waited 100 ms in a queue is discarded and counted. -/
  | frameAgeDrop (k : Link) (q : TxQueue) (rx : Bool)
  /-- R283: A received mark is forwarded and the node steps or slews its fabric time by the offset. -/
  | timeMark (rx : Rx) (m : TimeMark)
  /-- R288: A duplicate window not updated for 10 s is freed. -/
  | windowIdleFree (key : Word) (stream : BitVec 12)
  /-- R289: A received SUBSCRIBE records the subscriber's mask of wanted entries. -/
  | subscribe (rx : Rx) (mask : BitVec 112)
  /-- R289: A subscription not heard for 3 s is no longer served. -/
  | subscriberExpiry (node : Addr)
  /-- R290: Received entries are written into the local value-table entries. -/
  | publication (rx : Rx) (l : List PubEntry)
  /-- R290: An entry carried by no publication for 500 ms, or whose source leaves the view, becomes OUT_OF_SERVICE. -/
  | subscriptionTimeout (entry : Fin 1024)
  /-- R294: A write to FAB_ADDR while not live changes the zone or starts a rank-1 claim of the new member. -/
  | fabAddrWrite (value : Word)
  /-- R175: A received output command becomes the latest control-plane command of the output and clears STALE. -/
  | outputCommand (rx : Rx) (item : Word) (c : OutCommand)
  /-- R219: A received ACK, SHELVE or UNSHELVE for a tag is queued to the alarm engine. -/
  | alarmCommand (rx : Rx) (item : Word) (tag : Word) (op : AlmOp)
  /-- R246: A received call command queues the CALL, DUTY_LAMP, PATROL or SOUND frame for its panel. -/
  | callCommand (rx : Rx) (item : Word) (c : CallCommand)
  /-- R376: Received page lines are stored, sent on the bus and pages beyond PAGES deleted. -/
  | pageContent (rx : Rx) (m : PageContent)
  /-- R299: A received catalogue version is accepted when complete and newer, updating the candidate lists. -/
  | catalogue (rx : Rx) (c : Catalogue)
  /-- R300: A relayed catalogue is treated as a catalogue and passed on across borders. -/
  | catalogueRelay (rx : Rx) (c : Catalogue)
  /-- R299: A catalogue request makes the origin send its whole catalogue by unicast. -/
  | catalogueRequest (rx : Rx) (held : Word)
  /-- R305: A candidate has been in the view for 10 s, or quorum has been held for 10 s, and becomes healthy. -/
  | candidateHealthy (by_ : HealthyBy)
  /-- R302: A candidate absent from the view for 600 s leaves the candidate list. -/
  | candidateExpiry (origin : Addr)
  /-- R309: An item without a primary for 15 s becomes starved, sets STARVED and writes a severity-3 record. -/
  | itemStarved (item : Word)
  /-- R316: A received TREND frame is stored in the collector's 180-period ring. -/
  | trend (rx : Rx) (m : TrendMsg)
  /-- R318: A write to PLACE_CALC_ITEM or PLACE_CALC_ADDR computes h for the pair within 10 µs. -/
  | placeCalcWrite (addr : Bool) (value : Word)
  /-- R329: A standby senses the OWN loop released and takes OWN, or probes first. -/
  | ownLoopReleased (held : Bool)
  /-- R329: The holder sees the loop open and sets LOOP_OPEN while it keeps OWN. -/
  | ownLoopOpen (loopOpen : Bool)
  /-- R327: A received beat updates the partner's health, commands and path state. -/
  | beat (rx : Rx) (m : PairMsg)
  /-- R326: No beat for 50 ms on a path marks it lost, and the loss of both paths starts a seize. -/
  | pairPathLost (path : PairPath)
  /-- R325: The start listen ends and a unit that finds the loop released takes OWN. -/
  | listenEnd (loopHeld : Bool)
  /-- R329: An active unit answers a PROBE with a PROBE_REPLY within 2 ms. -/
  | probe (rx : Rx) (m : PairMsg)
  /-- R329: A PROBE_REPLY with OWN_HELD keeps the standby STANDBY or reveals a cut loop. -/
  | probeReply (rx : Rx) (m : PairMsg)
  /-- R329: The 2 ms seize ends and the standby takes OWN when it sees the loop released. -/
  | seizeEnd (loopHeld : Bool)
  /-- R339: The active completes its cycle, sends GRANT, releases OWN and enters HANDOVER. -/
  | handoverReq (rx : Rx) (m : PairMsg)
  /-- R339: A received GRANT lets the incoming unit take OWN without a probe. -/
  | grant (rx : Rx) (m : PairMsg)
  /-- R329: A received RELEASED makes the next loop release an announced one. -/
  | released (rx : Rx) (m : PairMsg)
  /-- R335: A complete, good and matching checkpoint is accepted by the standby, or rejected and counted. -/
  | checkpoint (rx : Rx) (c : Checkpoint) (complete : Bool) (crcOk : Bool)
  /-- R335: A mirrored alarm event updates the standby's copy of the point's state and OCC. -/
  | eventMirror (rx : Rx) (fmt : BitVec 16) (e : AlmEvent)
  /-- R336: During double-send, the mirror of a tick is evaluated by the standby's engine. -/
  | tickMirror (rx : Rx) (m : TickMirror)
  /-- R336: The double-send period ends, or ends early, and the standby's engine stops. -/
  | doubleSendEnd (early : Bool)
  /-- R341: A write to PAIR_FORCE requests or yields a planned handover and suspends reverting. -/
  | pairForceWrite (value : Word)
  /-- R334: Once per second, a standby tests one block's calibration and may set CAL_FAIL. -/
  | calTest (block : Fin 8) (missed : Bool)
  /-- R348: The prescaler completes a second and the seconds count advances. -/
  | timeSecondTick (vcap : BitVec 16)
  /-- R351: The time crystal stops or runs off frequency; OSF sets and the count halts until it restarts. -/
  | crystalStop (stopped : Bool)
  /-- R346: The time island starts from lost state with the count at 2000-01-01 and OSF set. -/
  | timeIslandPowerUp (vcap : BitVec 16)
  /-- R347: The supercapacitor falls below 2.2 V and VCAP_LOW sets and is latched. -/
  | vcapLow (vcap : BitVec 16)
  /-- R354: A write of TIME_SET sets the seconds count as a step and clears OSF. -/
  | timeSetWrite (value : Word)
  /-- R355: A write of TIME_ADJ moves the count by a signed amount, or is refused. -/
  | timeAdjWrite (value : Word)
  /-- R357: A write of TIME_SET_TOD converts the date and time and applies them as a step. -/
  | timeSetTodWrite (value : Word)
  /-- R357: A write of TIME_CONV_SEC converts a seconds count into calendar fields without setting anything. -/
  | timeConvWrite (value : Word)
  /-- R359: A write to a calendar alarm's registers sets its high-water mark to the current count. -/
  | talmWrite (j : Fin 2) (reg : Fin 3) (value : Word)
  /-- R383: A panel update request is merged, queued as pending, or started. -/
  | updateRequest (x8 : BitVec 6) (w8 : BitVec 6) (y0 : BitVec 9) (h : BitVec 9) (clean : Bool)
  /-- R382: A region's waveform ends and its rectangle is copied into the old image. -/
  | regionComplete (slot : Fin 8)
  /-- R384: A write to DISP_ABORT aborts a slot at its next balanced boundary, or loses to completion. -/
  | dispAbortWrite (slots : BitVec 8) (coincident : BitVec 8)
  /-- R369: An ACK button press on ALARMS acknowledges the selected point. -/
  | frontAckPress (down : Bool)
  /-- R369: A SILENCE button press silences the internal sounder. -/
  | frontSilencePress (down : Bool)
  /-- R370: A touch key is touched or released after 3 scans and acts as Table 15.1 gives. -/
  | touchKey (key : Fin 4) (down : Bool)
  /-- R370: A touch lasting 30 s marks the key stuck and ignores it. -/
  | touchStuck (key : Fin 4)
  /-- R379: Every 1 s, the panel temperature is read and the band and TEMP_OUT are updated. -/
  | panelTempRead (tenths : Int) (broken : Bool)
  /-- R376: The renderer sends each changed page within 100 ms and every page every 10 s. -/
  | pageRenderSend (item : Word) (every : Bool)
  /-- R404: A write to LOG_SEL requests a window load and sets BUSY. -/
  | logSelWrite (value : Word)
  /-- R407: A DISCOVER request is answered with the node's identity, after a serial-based delay for broadcasts. -/
  | discover (q : SvcReq) (broadcast : Bool)
  /-- R411: A READ request returns COUNT register words in ascending order. -/
  | read (q : SvcReq) (addr : Word) (count : BitVec 16)
  /-- R411: A WRITE request writes COUNT words and stops at the first word the lock refuses. -/
  | write (q : SvcReq) (addr : Word) (words : List Word)
  /-- R412: A LOG_READ request returns up to COUNT valid records from FIRST onward. -/
  | logRead (q : SvcReq) (first : Word) (count : BitVec 8)
  /-- R412: A TREND_READ request returns trend periods from a collector that runs here. -/
  | trendRead (q : SvcReq) (item : Word) (period : Word) (count : BitVec 8)
  /-- R411: A RESET request with the matching serial replies and resets the node with cause SERVICE. -/
  | reset (q : SvcReq) (serial : Word)
  /-- R413: A CHALLENGE request returns a fresh 16-byte nonce valid for 60 s. -/
  | challenge (q : SvcReq) (nonce : BitVec 128)
  /-- R413: A signed KEY_INSTALL writes a key slot, or replies AUTH. -/
  | keyInstall (q : SvcReq) (k : KeyReq)
  /-- R413: A signed KEY_REMOVE empties a key slot, or replies AUTH. -/
  | keyRemove (q : SvcReq) (k : KeyReq)
  /-- R419: UPD_BEGIN opens an update session and sets the other bank LOADING. -/
  | updBegin (q : SvcReq) (baseVer : Word) (newVer : Word) (blocks : BitVec 16)
  /-- R420: An UPD_BLOCK fragment is stored, and after the last fragment the block is built, checked and programmed. -/
  | updBlock (q : SvcReq) (f : UpdFrag)
  /-- R421: UPD_FINISH checks that every block is written and starts verification of the loaded image. -/
  | updFinish (q : SvcReq)
  /-- R409: A management request carried over the fabric is executed by its target, which returns an MGMT_REPLY. -/
  | mgmtRequest (rx : Rx) (tag : BitVec 16) (op : MgmtOp)
  /-- R409: The gateway passes a received MGMT_REPLY back to the service computer. -/
  | mgmtReply (rx : Rx) (m : MgmtReply)
  /-- R409: No MGMT_REPLY within 1 s makes the gateway reply TIMEOUT. -/
  | mgmtTimeout (origin : SvcOrigin) (tag : BitVec 16)
  /-- R422: An accepted ACTIVATE runs the activation of Table 17.8 up to the commit and the reset. -/
  | updActivate (cut : Bool)
  /-- R424: ABORT ends the session or an uncommitted activation, or loses to completion. -/
  | updAbort (coincident : Bool)
  /-- R247: A frame in transmission loses arbitration; if it is a CALL-class frame past its 1 s limit, it is withdrawn and reported undelivered. -/
  | arbitrationLost (port : Fin 2) (sof : Word)
  /-- R285: The root receives the exit border node's mean offset to the system-time zone and steps zone time above 10 ms, or otherwise slews at no more than 50 ppm. -/
  | meanOffsetReport (rx : Rx) (offset : Int)
  /-- R375: On each change and every 1 s, the call manager sends each renderer of its page set its call state and the states of its non-member point sources. -/
  | rendererCallStateSend (roster : Word)
  /-- R375: A renderer receives the call manager's call state and point-source states and rebuilds the affected pages. -/
  | rendererCallState (rx : Rx) (item : Word) (stage : BitVec 2) (call : BitVec 2) (part : Nat) (parts : Nat) (points : List PointSource)
  /-- R410: A kept reply is dropped 10 s after its request, so a later request with the same origin and TAG executes again. -/
  | replyCacheExpiry (origin : SvcOrigin) (tag : BitVec 16)
  /-- R408: A datagram to port 50720 that is short, has VER not 1, a mismatched LEN or a reserved OP is discarded and counted in SVC_BAD, or answered BAD_REQUEST. -/
  | badDatagram (q : SvcReq) (op : BitVec 8) (fault : DgramFault)
  /-- R407: The node answers an ARP request on port S for its link-local address, and defends or moves that address by RFC 3927. -/
  | arp (conflict : Bool)
  /-- R16: On the first mismatch between the two lockstep cores, both cores stop, OWN is released and the node resets with cause LOCKSTEP. -/
  | lockstepFailure
  /-- R54: After an uncorrectable word in main SRAM, the node writes a severity-3 record and resets with cause ECC_UNCORR within 2 ms. -/
  | eccUncorrReset
  /-- R29: Once per second, the save store takes a checkpoint into the ping-pong checkpoint slots. -/
  | checkpointSecond
  /-- R42: At the end of a 1 ms core frame, every event of an RSQ register that arose in the frame is latched and SEQ advances once. -/
  | eventRegisterLatch
  /-- R49: Under policy 0b10, the node sets LK 600 s after end of start unless it is already set. -/
  | lockPolicyTimer
  /-- R45: Writing SYS_SNAP.SNAP captures every counter in all islands and starts the copy to the holding area, or counts an overrun while BUSY. -/
  | snapshotStart
  /-- R45: The copy into the holding area finishes; VALID is set and BUSY clears. -/
  | snapshotComplete
  /-- R51: After a vote failure, the node writes a severity-3 block record and resets with cause VOTE_FAIL within 2 ms. -/
  | voteFailReset
  /-- R60: Valid half-cycles continue for 20 ms and MAINS_LOST clears. -/
  | mainsLostClear
  /-- R62: The mains returns and the bus regains 370 V before the trigger; RIDING clears and the ride is counted and recorded. -/
  | rideThroughEnd
  /-- R75: The bus holds at or above 370 V for 100 ms and the supervisor releases the islands from reset. -/
  | restartRelease
  /-- R321: The supply collapses without a Drydown; the loop source stops and OWN is released with it. -/
  | supplyCollapse
  /-- R76: Each whole second while the islands are released, SUP_OP_SECONDS increments and is written to the save store. -/
  | opSecondsTick
  /-- R86: The Flacon presence contacts open; FLACON_GONE sets, FLACON_OUT is latched, or a read in progress ends with REMOVED. -/
  | flaconRemoved
  /-- R180: The supervisor asserts the freeze line at a reset, a release or the Drydown trigger, and every fixative in TRACK enters HOLD. -/
  | freezeLine
  /-- R186: Every 10 ms, the engine latches its inputs, applies queued commands and evaluates all 4,096 points in their slots. -/
  | alarmCycleTick
  /-- R206: Once the member number is won and a route exists, held fabric copies of events leave with the won address. -/
  | eventCopyRelease
  /-- R206: A held event copy still without a route 2 s after the win is discarded and counted. -/
  | eventCopyDiscard
  /-- R211: Every 100 ms, a node sends member reports of its Accord members and rostered points. -/
  | memberReportSend
  /-- R216: Every 100 ms, the evaluator forms the Accord mean and sends it to member nodes and requesters. -/
  | meanPeriod
  /-- R216: Every 1 s, a node with DEVIATION points on an Accord it holds no member of sends a mean request. -/
  | meanRequestSend
  /-- R217: Every 100 ms, the evaluator sends a state report to the call manager and the renderers. -/
  | accordStateReport
  /-- R228: The call manager sends the Accord summary-output command on every change and every 100 ms. -/
  | summaryOutputPeriod
  /-- R229: The primary call manager sends its whole state to its shadow every 100 ms and on change. -/
  | itemStateSend
  /-- R229: Every node carrying a roster panel sends the duty report to the call managers every 100 ms and on change. -/
  | dutyReportSend
  /-- R239: Every 1,000 ms, the node broadcasts NODE_BEAT on each port. -/
  | nodeBeatSend
  /-- R262: Every 100 ms, a HELLO is sent on each enabled link whose PHY is up. -/
  | helloSend
  /-- R270: Within 50 ms of a change, or every 30 s, the node originates its LSA with the next sequence. -/
  | lsaOriginate
  /-- R272: Within 200 ms of an LSA change, shortest paths are computed and the forwarding table is installed in one step. -/
  | routeCompute
  /-- R265: When sync is complete on every link, or 1 s after end of start, the node sends its first CLAIM. -/
  | claimStart
  /-- R266: At 100 ms and 200 ms, the CLAIM is flooded again with the next transmission number. -/
  | claimRetransmit
  /-- R266: 700 ms after the first CLAIM without a loss, the number is won, saved and announced. -/
  | claimWin
  /-- R269: While ADDR_EXHAUSTED is set, the node retries a claim every 10 s. -/
  | addrRetry
  /-- R276: Every 1 s and on change, a border node sends ZONE_UPDATE on its border links. -/
  | zoneUpdateSend
  /-- R277: A border node floods ZONE_SUMMARY on change and every 10 s. -/
  | zoneSummarySend
  /-- R301: Every 1 s, the node floods NODE_STATE with its placement block. -/
  | nodeStateSend
  /-- R283: The time root sends a TIME_MARK at every multiple of 125,000 µs of fabric time. -/
  | timeMarkSend
  /-- R285: Every 1 s, the exit border node reports the mean offset to the system-time zone to its root. -/
  | zoneOffsetReport
  /-- R289: Every 1 s, a node sends SUBSCRIBE to each source node named in its subscriptions. -/
  | subscribeSend
  /-- R289: Every 1 ms, a source sends each subscriber a PUBLICATION of the wanted entries written since its last frame. -/
  | publicationSend
  /-- R299: Within 100 ms of a change, and every 300 s, the node floods its catalogue. -/
  | catalogueSend
  /-- R306: Within 100 ms of a trigger, the node ranks the healthy candidates and takes up or gives up its roles. -/
  | placementRecompute
  /-- R308: At most once per 10 s, a refusal that now fits is withdrawn and a new catalogue version is published. -/
  | refusalWithdraw
  /-- R316: Every 10 s, a node sends its collector the TREND frame of its channel means. -/
  | trendSend
  /-- R321: The holder sees the loop seized, releases OWN and enters HANDOVER as outgoing. -/
  | ownSeized
  /-- R326: Every 10 ms, a pair member sends a beat on P and over the fabric. -/
  | pairBeatSend
  /-- R328: Every 10 ms, the unit forms its health word and verdict. -/
  | healthWordUpdate
  /-- R324: A standby whose own verdict has been FAILING for 10 s enters FAULTED. -/
  | standbyFaulted
  /-- R329: 3 ms after the release is seen without a reply, the standby takes OWN. -/
  | probeTimeout
  /-- R339: No GRANT within 100 ms of the request is treated as both paths lost and the requester seizes. -/
  | grantTimeout
  /-- R333: The incoming unit meets the end conditions, or 2 s pass, and becomes ACTIVE. -/
  | handoverComplete
  /-- R324: The outgoing unit sees OUTPUTS_DRIVEN, or 100 ms pass, and enters STANDBY. -/
  | handoverOutEnd
  /-- R335: Every 100 ms, the active sends a checkpoint on P. -/
  | checkpointSend
  /-- R340: A PREFERRED standby, once its hold-off has run and its conditions hold, requests a planned handover. -/
  | revertRequest
  /-- R353: A read of TIME_FRAC freezes the time registers into shadows. -/
  | timeFracRead
  /-- R353: A read of TIME_SEC_HI returns its shadow and releases the freeze. -/
  | timeSecHiRead
  /-- R363: A node with OSF set that is synced to a trusted root adopts fabric time at the next whole second. -/
  | fabricTimeAdopt
  /-- R362: Every 1 s, TIME_FT_DIFF is written with fabric time minus the count. -/
  | ftDiffUpdate
  /-- R382: At each frame boundary, the engine applies aborts, starts pending entries and takes new requests. -/
  | displayFrameBoundary
  /-- R369: ACK and SILENCE both held for 3 s sound the test and redraw the page with a cleaned update. -/
  | panelTest
  /-- R373: SELECT accepts the PIN digits and opens SERVICE, or counts a wrong PIN. -/
  | pinEntry
  /-- R373: The 60 s lock after three wrong PINs ends. -/
  | pinLockoutEnd
  /-- R388: The old and new images are compared by CRC when the engine goes idle and every 60 s. -/
  | imageCheck
  /-- R389: One second after the last region with nothing pending, the rails are discharged and the panel sleeps. -/
  | railsSleep
  /-- R391: A rail out of tolerance for 1 ms aborts the regions and discharges the rails, and a third fault sets FAILED. -/
  | railFault
  /-- R391: 10 s after a rail fault, the pending entries are retried. -/
  | railRetry
  /-- R395: The recorder takes an event from the queue, stamps it, captures its snapshot registers and places the record. -/
  | recorderTakeEvent
  /-- R403: Without a close marker, the recorder reads every record and rebuilds the log index. -/
  | logIndexRebuild
  /-- R404: The window load completes with the first valid record at or after the value written, and BUSY clears. -/
  | logWindowLoaded
  /-- R413: The nonce expires 60 s after it was issued. -/
  | nonceExpiry
  /-- R421: Verification ends and the bank and engine become VERIFIED or FAILED, with the reply sent. -/
  | updVerifyDone
  /-- R419: 60 s without a request from the session's owner acts as ABORT. -/
  | updSessionTimeout
  /-- R416: 60 s after end of start without a reset, the trial image confirms itself and its bank becomes GOOD. -/
  | trialConfirm
  /-- R351: The time crystal runs again; CRYSTAL_BAD clears and the count resumes from where it stopped, with OSF still set. -/
  | crystalRestart
  /-- R243: At the first bus idle at least 1 ms after taking OWN, the controllers leave bus-monitoring mode with TEC and REC at 0 and send NODE_BEAT and the panel state. -/
  | busMonitoringExit
  /-- R370: SELECT touched for 3 s on the IDLE page opens PIN entry, or opens SERVICE at once where no PIN is held. -/
  | selectHeld
  /-- R339: After 2 s of double-send, the incoming unit sends HANDOVER_REQ on both paths and starts the 100 ms GRANT timer. -/
  | handoverReqSend
  /-- R407: The node answers an ICMP echo request on port S. -/
  | icmpEcho

  deriving DecidableEq, Repr

end Sys2Proof
end

