-- ==== Sys2Proof/Decode.lean ====
section
/-! DEFINITION. Decode.lean: the reading of a table word. The table of operations and events gives no row any bits: a command
reaches the block as an event, not as a word. -/
namespace Sys2Proof

/-- The command a word spells by the table's bits: none, for no row of the table has bits. -/
def decodeTableWord (_nbits _w : Nat) : Option Instr := none

end Sys2Proof
end

