-- ==== Sys2Proof/Machine/Float.lean ====
section
/-! DEFINITION. Machine/Float.lean: IEEE 754 binary32 on its bits. Every finite value is a whole multiple of 2^-149, and results are
formed exactly and rounded once to nearest even. -/
namespace Sys2Proof.Machine

def fNaN : F32 := 0x7FC00000
def fInf (neg : Bool) : F32 := if neg then 0xFF800000 else 0x7F800000

def fExp (v : F32) : Nat := v.toNat / 2 ^ 23 % 256
def fFrac (v : F32) : Nat := v.toNat % 2 ^ 23
def fNeg (v : F32) : Bool := v.getLsbD 31

def isNaN (v : F32) : Bool := fExp v = 255 && fFrac v ≠ 0
def isInf (v : F32) : Bool := fExp v = 255 && fFrac v = 0
def isFin (v : F32) : Bool := fExp v ≠ 255

/-- Magnitude of a finite value in units of 2^-149. -/
def fMag (v : F32) : Nat := if fExp v = 0 then fFrac v else (2 ^ 23 + fFrac v) * 2 ^ (fExp v - 1)

/-- A finite value in units of 2^-149. -/
def fFix (v : F32) : Int := if fNeg v then -(fMag v : Int) else (fMag v : Int)

/-- n / d rounded to the nearest whole number, ties to even. -/
def divRne (n d : Nat) : Nat :=
  let q := n / d
  let r := n % d
  if 2 * r > d ∨ (2 * r = d ∧ q % 2 = 1) then q + 1 else q

/-- The binary32 nearest to n / d in units of 2^-149, with a sign. -/
def fRound (neg : Bool) (n d : Nat) : F32 :=
  let q := n / d
  let k := if q < 2 ^ 24 then 0 else Nat.log2 q - 23
  let b := k * 2 ^ 23 + divRne n (d * 2 ^ k)
  let b := if b ≥ 0x7F800000 then 0x7F800000 else b
  BitVec.ofNat 32 (if neg then 2 ^ 31 + b else b)

/-- The binary32 nearest to the whole number n of units of 2^-149 over d; an exact zero takes the sign given. -/
def fOfFix (n : Int) (d : Nat) (zneg : Bool) : F32 :=
  if n = 0 then (if zneg then 0x80000000 else 0) else fRound (n < 0) n.natAbs d

/-- The binary32 nearest to the rational n / d. -/
def fOfRat (n : Int) (d : Nat) : F32 := fOfFix (n * 2 ^ 149) d false

def fOfInt (n : Int) : F32 := fOfRat n 1

def fOne : F32 := 0x3F800000
def fHalf : F32 := 0x3F000000

/-- x < y as IEEE 754 orders them; false where either is NaN. -/
def fLt (x y : F32) : Bool :=
  if isNaN x || isNaN y then false
  else if isInf x then fNeg x && !(isInf y && fNeg y)
  else if isInf y then !fNeg y
  else fFix x < fFix y

def fLe (x y : F32) : Bool :=
  if isNaN x || isNaN y then false else !fLt y x

def fAdd (x y : F32) : F32 :=
  if isNaN x || isNaN y then fNaN
  else if isInf x then (if isInf y && fNeg x ≠ fNeg y then fNaN else x)
  else if isInf y then y
  else fOfFix (fFix x + fFix y) 1 (fNeg x && fNeg y)

def fNegate (x : F32) : F32 := x ^^^ 0x80000000
def fAbs (x : F32) : F32 := x &&& 0x7FFFFFFF
def fSub (x y : F32) : F32 := fAdd x (fNegate y)

def fMul (x y : F32) : F32 :=
  if isNaN x || isNaN y then fNaN
  else
    let neg := fNeg x ≠ fNeg y
    if isInf x || isInf y then (if (isFin x && fMag x = 0) || (isFin y && fMag y = 0) then fNaN else fInf neg)
    else fOfFix (if neg then -((fMag x * fMag y : Nat) : Int) else ((fMag x * fMag y : Nat) : Int)) (2 ^ 149) neg

def fDiv (x y : F32) : F32 :=
  if isNaN x || isNaN y then fNaN
  else
    let neg := fNeg x ≠ fNeg y
    if isInf x then (if isInf y then fNaN else fInf neg)
    else if isInf y then (if neg then 0x80000000 else 0)
    else if fMag y = 0 then (if fMag x = 0 then fNaN else fInf neg)
    else fOfFix (if neg then -((fMag x * 2 ^ 149 : Nat) : Int) else ((fMag x * 2 ^ 149 : Nat) : Int)) (fMag y) neg

/-- A value held to a range. -/
def fClamp (lo hi x : F32) : F32 := if fLt x lo then lo else if fLt hi x then hi else x

/-- A value read as a boolean (R193). -/
def fBool (v : F32) : Bool := !isNaN v && fLe fHalf v

/-- Round a whole number to 53 significant bits, ties to even: one binary64 addition of binary32 values (R216). -/
def round53 (n : Int) : Int :=
  let m := n.natAbs
  let k := if m < 2 ^ 53 then 0 else Nat.log2 m - 52
  let r := divRne m (2 ^ k) * 2 ^ k
  if n < 0 then -(r : Int) else (r : Int)

/-- The mean of finite values, summed in binary64 and rounded to binary32 (R216). -/
def fMean (l : List F32) : F32 :=
  if l.any isNaN then fNaN
  else if l.any isInf then
    (if l.any (fun v => isInf v && fNeg v) && l.any (fun v => isInf v && !fNeg v) then fNaN
     else fInf (l.any (fun v => isInf v && fNeg v)))
  else if l.isEmpty then fNaN
  else fOfFix (l.foldl (fun acc v => round53 (acc + fFix v)) 0) l.length false

end Sys2Proof.Machine
end

