-- ==== Sys2Proof/Machine/Hash.lean ====
section
/-! DEFINITION. Machine/Hash.lean: the checks and codes the spec computes: CRC-32, SipHash-2-4 and the memory code over GF(16). -/
namespace Sys2Proof.Machine

/-! Bytes, least significant first. -/

def leBytes (n : Nat) (v : Nat) : List Byte :=
  match n with
  | 0 => []
  | m + 1 => BitVec.ofNat 8 v :: leBytes m (v / 256)

def wordBytes (w : Word) : List Byte := leBytes 4 w.toNat

def leNat (l : List Byte) : Nat :=
  match l with
  | [] => 0
  | b :: r => b.toNat + 256 * leNat r

def wordsBytes (l : List Word) : List Byte := l.flatMap wordBytes

/-- Words of a byte list, the last one padded with zeros. -/
def bytesWordsGo (fuel : Nat) (l : List Byte) : List Word :=
  match fuel with
  | 0 => []
  | f + 1 => if l.isEmpty then [] else BitVec.ofNat 32 (leNat (l.take 4)) :: bytesWordsGo f (l.drop 4)

def bytesWords (l : List Byte) : List Word := bytesWordsGo l.length l

/-! CRC-32 (R87): reflected polynomial 0xEDB8_8320, initial value and final XOR 0xFFFF_FFFF. -/

def crcBit (c : BitVec 32) : BitVec 32 := if c.getLsbD 0 then (c >>> 1) ^^^ 0xEDB88320 else c >>> 1

def crcByte (c : BitVec 32) (b : Byte) : BitVec 32 :=
  let x := c ^^^ b.setWidth 32
  crcBit (crcBit (crcBit (crcBit (crcBit (crcBit (crcBit (crcBit x)))))))

def crc32 (l : List Byte) : Word := (l.foldl crcByte 0xFFFFFFFF) ^^^ 0xFFFFFFFF

/-! SipHash-2-4 (R98, R303). -/

/-- The four words of the SipHash state. -/
structure Sip where
  v0 : BitVec 64
  v1 : BitVec 64
  v2 : BitVec 64
  v3 : BitVec 64
  deriving DecidableEq, Repr

def sipRound (s : Sip) : Sip :=
  let v0 := s.v0 + s.v1
  let v1 := (s.v1.rotateLeft 13) ^^^ v0
  let v0 := v0.rotateLeft 32
  let v2 := s.v2 + s.v3
  let v3 := (s.v3.rotateLeft 16) ^^^ v2
  let v0 := v0 + v3
  let v3 := (v3.rotateLeft 21) ^^^ v0
  let v2 := v2 + v1
  let v1 := (v1.rotateLeft 17) ^^^ v2
  let v2 := v2.rotateLeft 32
  ⟨v0, v1, v2, v3⟩

def sipBlock (s : Sip) (m : BitVec 64) : Sip :=
  let s := sipRound (sipRound { s with v3 := s.v3 ^^^ m })
  { s with v0 := s.v0 ^^^ m }

/-- SipHash-2-4 of an 8-byte message given as one little-endian word. -/
def sip8 (k0 k1 m : BitVec 64) : BitVec 64 :=
  let s : Sip := ⟨k0 ^^^ 0x736f6d6570736575, k1 ^^^ 0x646f72616e646f6d, k0 ^^^ 0x6c7967656e657261, k1 ^^^ 0x7465646279746573⟩
  let s := sipBlock (sipBlock s m) (0x0800000000000000 : BitVec 64)
  let s := sipRound (sipRound (sipRound (sipRound { s with v2 := s.v2 ^^^ 0xff })))
  s.v0 ^^^ s.v1 ^^^ s.v2 ^^^ s.v3

/-! The memory code (R52): symbols of GF(16) under x^4 + x + 1. -/

/-- Multiply by α. -/
def gfX (a : BitVec 4) : BitVec 4 := if a.getLsbD 3 then (a <<< 1) ^^^ 3 else a <<< 1

/-- Multiply by α^n. -/
def gfExp (n : Nat) (a : BitVec 4) : BitVec 4 :=
  match n with
  | 0 => a
  | m + 1 => gfX (gfExp m a)

def gfMul (a b : BitVec 4) : BitVec 4 :=
  (if b.getLsbD 0 then a else 0) ^^^ (if b.getLsbD 1 then gfExp 1 a else 0) ^^^
    (if b.getLsbD 2 then gfExp 2 a else 0) ^^^ (if b.getLsbD 3 then gfExp 3 a else 0)

/-- Coefficient i of the codeword: data nibble j is c(j + 3), the check bits are c2, c1, c0. -/
def cwCoeff (data : Word) (check : BitVec 12) (i : Nat) : BitVec 4 :=
  if i < 3 then check.extractLsb' (4 * i) 4 else data.extractLsb' (4 * (i - 3)) 4

/-- c(x) at α^e. -/
def syndrome (data : Word) (check : BitVec 12) (e : Nat) : BitVec 4 :=
  (List.range 11).foldl (fun acc i => acc ^^^ gfExp (e * i % 15) (cwCoeff data check i)) 0

/-- What a read finds: a clean word, one corrected symbol, or an uncorrectable word. -/
inductive EccResult where
  | clean
  | fixed (symbol : Nat) (data : Word)
  | uncorrectable
  deriving DecidableEq, Repr

def eccRead (data : Word) (check : BitVec 12) : EccResult :=
  let s0 := syndrome data check 0
  let s1 := syndrome data check 1
  let s2 := syndrome data check 2
  if s0 = 0 ∧ s1 = 0 ∧ s2 = 0 then .clean
  else if s0 = 0 then .uncorrectable
  else match (List.range 11).find? (fun i => s1 = gfExp i s0) with
    | none => .uncorrectable
    | some i =>
      if gfMul s2 s0 = gfMul s1 s1 then
        .fixed i (if i < 3 then data else data ^^^ ((s0.setWidth 32) <<< (4 * (i - 3))))
      else .uncorrectable

/-- The check bits of a word: the remainder of d(x)·x^3 by g(x) = x^3 + α^10 x^2 + α^11 x + α^3, formed nibble by nibble. -/
def eccCheck (data : Word) : BitVec 12 :=
  let r := (List.range 8).foldl (fun (r : BitVec 4 × BitVec 4 × BitVec 4) n =>
      let f := data.extractLsb' (4 * (7 - n)) 4 ^^^ r.1
      (r.2.1 ^^^ gfExp 10 f, r.2.2 ^^^ gfExp 11 f, gfExp 3 f)) ((0, 0, 0) : BitVec 4 × BitVec 4 × BitVec 4)
  r.1 ++ r.2.1 ++ r.2.2

end Sys2Proof.Machine
end

