-- ==== Sys2Proof/Config.lean ====
section
/-! DEFINITION. Config.lean: what an implementation fixes and the spec does not state, as constants without a body. -/
namespace Sys2Proof

/-- The n-th unstated 32-bit value: what an undefined case of R57, or a value the spec does not state, takes. -/
opaque Config.freeWord : Nat → BitVec 32

/-- What a measurement register of the supplies shows in a millisecond of the clock for which no command carries the measurement. -/
opaque Config.measured : Nat → Nat → BitVec 16

/-- The text and the attribute of a front-panel line, by page, line and the values that the page shows there (Table 15.3 gives the
values, and no layout). -/
opaque Config.frontText : List Word → List Byte
opaque Config.frontAttr : List Word → BitVec 2

/-- The built-in font: 18 rows of 16 pixels for a character (R372). -/
opaque Config.glyph : Byte → Nat → BitVec 16

/-- The grey level of the draw image outside the lines drawn, which the spec does not give. -/
opaque Config.marginLevel : Nat → BitVec 2

/-- The bytes of one 4,096-byte block of the firmware image the node was delivered with. -/
opaque Config.factoryBlock : Nat → List Byte

/-- The Plovust release key in the boot ROM, byte 0 lowest (R414). -/
opaque Config.releaseKey : BitVec 256

/-- The settings record that a word of the settings and counters memory belongs to; the spec gives no layout of that memory. -/
opaque Config.settingsRecord : Nat → Nat

end Sys2Proof
end

