-- ==== Sys2Proof/Machine/Addr.lean ====
section
/-! DEFINITION. Machine/Addr.lean: register addresses by name, from the register tables of the chapters. -/
namespace Sys2Proof.Machine

def aSYS_STATUS : Nat := 0x010000
def aSYS_EVENT : Nat := 0x010004
def aSYS_LOCK : Nat := 0x010008
def aSYS_SNAP : Nat := 0x01000C
def aSYS_RESET_CAUSE : Nat := 0x010010
def aSYS_ADDR_MISS : Nat := 0x010014
def aSYS_LOCK_REFUSED : Nat := 0x010018
def aSYS_SNAP_OVERRUN : Nat := 0x01001C

/-- Supply and Drydown (Table 3.8 onward). -/
def aSUP_STATUS : Nat := 0x020000
def aSUP_EVENT : Nat := 0x020004

def aSUP_DD_COUNT : Nat := 0x02002C
def aSUP_DD_ABANDON : Nat := 0x020030
def aSUP_RIDE_COUNT : Nat := 0x020034

/-- Register of one channel: offset o of channel n (Tables 5.13 and 6.13). -/
def aAFE (n : Fin 64) (o : Nat) : Nat := 0x040000 + n.val * 0x100 + o

/-- Register of one repeat output (Table 7.8). -/
def aAR (k : Fin 8) (o : Nat) : Nat := 0x050000 + k.val * 0x40 + o

/-- Register of one digital input and of one digital output (Table 7.10). -/
def aDI (k : Fin 32) (o : Nat) : Nat := 0x060000 + k.val * 0x20 + o
def aDO (k : Fin 16) (o : Nat) : Nat := 0x060400 + k.val * 0x40 + o

def aALM_EVENT : Nat := 0x070004
def aALM_CMD_LOST : Nat := 0x070014
def aALM_ACK_STALE : Nat := 0x070018
def aALM_TRANSITIONS : Nat := 0x07001C

def aCALL_EVENT : Nat := 0x080004
def aACC_FO_FIX : Nat := 0x080010
def aACC_LATE_MEMBER : Nat := 0x080014
def aACC_REBUILD : Nat := 0x080018
def aCALL_STARTED : Nat := 0x08001C
def aCALL_STAGE2 : Nat := 0x080020
def aCALL_STAGE3 : Nat := 0x080024
def aCALL_UNDELIVERED : Nat := 0x080028
def aCALL_SRC_LOST : Nat := 0x08002C

/-- Register of one panel-bus port: offset o of port p (Table 10.11). -/
def aPB (p : Fin 2) (o : Nat) : Nat := 0x090000 + p.val * 0x100 + o

def aFAB_EVENT : Nat := 0x0A0004
def aFAB_ADDR : Nat := 0x0A0008
def aFAB_DUP_EVICT : Nat := 0x0A0040
def aFAB_DUP_DROP : Nat := 0x0A0044
def aFAB_OLD_DROP : Nat := 0x0A0048
def aFAB_HOP_DROP : Nat := 0x0A004C
def aFAB_AGE_DROP : Nat := 0x0A0050
def aFAB_NOROUTE_DROP : Nat := 0x0A0054
def aFAB_BAD_HDR : Nat := 0x0A0058
def aFAB_RES_OVER : Nat := 0x0A005C
def aFAB_CLAIM_LOST : Nat := 0x0A0060
def aFAB_ADDR_CONFLICT : Nat := 0x0A0064
def aFAB_SPF_RUNS : Nat := 0x0A0068
def aFAB_TIME_STEPS : Nat := 0x0A006C

/-- Register of one link: offset o of link k (Table 11.11). -/
def aLINK (k : Fin 7) (o : Nat) : Nat := 0x0A0100 + k.val * 0x40 + o

def aPLACE_EVENT : Nat := 0x0B0004
def aPLACE_RECOMPUTE : Nat := 0x0B0020
def aPLACE_MOVES : Nat := 0x0B0024
def aPLACE_STARVED_COUNT : Nat := 0x0B0028
def aPLACE_REFUSALS : Nat := 0x0B002C
def aPLACE_DEF_MISMATCH : Nat := 0x0B0030
def aPLACE_MERGE : Nat := 0x0B0034

def aPAIR_EVENT : Nat := 0x0C0004
def aPAIR_ROLE : Nat := 0x0C0008
def aPAIR_TAKEOVERS : Nat := 0x0C0030
def aPAIR_MISS_P : Nat := 0x0C0034
def aPAIR_MISS_F : Nat := 0x0C0038
def aPAIR_CKPT_BAD : Nat := 0x0C003C
def aPAIR_SEIZES : Nat := 0x0C0040
def aPAIR_SPLITS : Nat := 0x0C0044
def aPAIR_LOOP_FAULTS : Nat := 0x0C0048

def aLOG_EVENT : Nat := 0x0E0004
def aLOG_WRITTEN : Nat := 0x0E001C
def aLOG_OVERWRITTEN : Nat := 0x0E0020
def aLOG_DROPPED : Nat := 0x0E0024
def aEVQ_LOST : Nat := 0x0E002C

/-- Register of one memory: offset o of memory m (Table 2.13). -/
def aECC (m : Fin 8) (o : Nat) : Nat := 0x100000 + m.val * 0x10 + o
def aECC_VOTE_FIX : Nat := 0x100100

end Sys2Proof.Machine
end

