-- ==== Sys2Proof/Machine/StateCore.lean ====
section
/-! DEFINITION. Machine/StateCore.lean: state of the register file, the meeting points, the log and the loaded configuration. -/
namespace Sys2Proof.Machine

/-- One RSQ register (Table 2.3), with the events of the running 1 ms frame that its end will latch (R42). -/
structure Rsq where
  seq : BitVec 8 := 0
  bits : BitVec 24 := 0
  pend : BitVec 24 := 0
  deriving DecidableEq, Repr

/-- The three copies of a register word that holds a triplicated field (R50). -/
structure Tri where
  a : Word := 0
  b : Word := 0
  c : Word := 0
  deriving DecidableEq, Repr

/-- One entry of the event queue (R20, Table 16.1): what its record will carry, and when it was queued. -/
structure Event where
  kind : BitVec 8
  cause : BitVec 8
  sev : BitVec 2
  source : Word
  synced : Bool
  ft : BitVec 64
  data : List Word
  queuedAt : Nat
  deriving DecidableEq, Repr

/-- One snapshot picture (Table 2.9): entries are island number, source address and value. -/
structure SnapPic where
  valid : Bool := false
  num : BitVec 16 := 0
  cycles : BitVec 64 := 0
  delays : List Word := []
  entries : List (BitVec 8 × BitVec 24 × Word) := []
  deriving DecidableEq, Repr

/-- SYS_SNAP, the captured values in flight and the holding area (R45 to R47). -/
structure SnapSt where
  busy : Bool := false
  aborted : Bool := false
  late : Bool := false
  num : BitVec 16 := 0
  work : SnapPic := {}
  hold : SnapPic := {}
  deriving DecidableEq, Repr

/-- One watchdog channel (R27): the last service word and the time of the last service. -/
structure Wd where
  last : BitVec 16 := 0
  servedAt : Nat := 0
  deriving DecidableEq, Repr

/-- What a node is doing as a whole (R67, R79, R99, R417). -/
inductive Phase where
  | held | released | safeIdle | live | running | drydown | recovery
  deriving DecidableEq, Repr

/-- A vote failure that waits for its reset (R51): block, base of the element, address word or tag, and the three copies. -/
structure VoteFail where
  block : BitVec 8
  base : Word
  at_ : Word
  copies : Tri
  deriving DecidableEq, Repr

/-- System control, memory protection and the watchdog (chapters 1 and 2). `releasedAt`: when the islands were last released;
`eccReset`: a word of main SRAM is uncorrectable and the reset has not come yet; `memUncorr`: MEM_UNCORR of Table 13.4. -/
structure SysSt where
  phase : Phase := .released
  resetCause : BitVec 8 := 1
  wdSource : BitVec 8 := 0
  starts : BitVec 8 := 0
  lock : Bool := false
  policy : BitVec 2 := 0
  endOfStart : Option Nat := none
  releasedAt : Nat := 0
  wdControl : Wd := {}
  wdData : Wd := {}
  wdMgmt : Wd := {}
  wdEngine : Wd := {}
  snap : SnapSt := {}
  eccLast : Vector Word 8 := Vector.replicate 8 0
  scrubBehind : Vector Bool 8 := Vector.replicate 8 false
  eccReset : Option (BitVec 24) := none
  voteFail : Option VoteFail := none
  memUncorr : Bool := false
  deriving DecidableEq, Repr

/-- One stored record of the event log (Table 16.1): its 32 words, and whether it holds an uncorrectable word. -/
structure LogRec where
  words : List Word
  bad : Bool := false
  deriving DecidableEq, Repr

/-- The log's index (R402), kept in the settings area. -/
structure LogIndex where
  next : Word := 0
  oldest : Word := 0
  fill : Nat := 0
  sev0 : Nat := 0
  sev1 : Nat := 0
  sev2 : Nat := 0
  sev3 : Nat := 0
  corrupt : Nat := 0
  closed : Bool := false
  deriving DecidableEq, Repr

/-- The event recorder (chapter 16): the event queue, the log and its index, and the readout window. -/
structure RecSt where
  queue : List Event := []
  lostSince : Nat := 0
  startDue : Option Event := none
  slots : Tab LogRec := []
  index : LogIndex := {}
  running : Bool := false
  rebuilding : Bool := false
  sel : Word := 0
  winBusy : Bool := false
  winValid : Bool := false
  winExact : Bool := false
  winSkipped : BitVec 16 := 0
  win : List Word := []
  deriving DecidableEq, Repr

/-- One subscription of the node section (Table 4.6). -/
structure Sub where
  localEntry : BitVec 10
  srcEntry : BitVec 10
  srcNode : Addr
  deriving DecidableEq, Repr

/-- One Accord record (Table 4.8). -/
structure AccordRec where
  id : BitVec 16
  groupDelay : Nat
  flags : Word
  summary : Word
  roster : Word
  defCrc : Word
  members : List Word
  deriving DecidableEq, Repr

/-- One engineer of a roster record (Table 4.9). -/
structure Engineer where
  name : List Byte
  cabin : Word
  flags : Word
  deriving DecidableEq, Repr

/-- One roster record (Table 4.9). -/
structure RosterRec where
  id : Word
  t1 : Nat
  t2 : Nat
  patrolWarn : Nat
  patrolCall : Nat
  defCrc : Word
  pubs : List Word
  bridges : List Word
  engineers : List Engineer
  deriving DecidableEq, Repr

/-- One panel record of the panel map (Table 4.10); port 0 is C1. -/
structure PanelRec where
  port : Fin 2
  panel : Fin 64
  kind : BitVec 8
  set : BitVec 16
  deriving DecidableEq, Repr

/-- One message record of the panel map (Table 4.10); no panel: every panel on the port. -/
structure MsgRec where
  ident : BitVec 29
  ext : Bool
  code : BitVec 16
  port : Fin 2
  panel : Option (Fin 64)
  deriving DecidableEq, Repr

/-- The guarded defaults (Table 4.11), as the Flacon gives them and as the guarded-class records keep them (R102). -/
structure Guarded where
  doFail : List Byte := []
  rolePref : BitVec 8 := 0
  lockPolicy : BitVec 8 := 0
  pinLen : BitVec 8 := 0
  pin : Word := 0
  deriving DecidableEq, Repr

/-- The configuration that the Flacon gave (R92 to R98), active from configuration live. `regs` are the channel-section words by
register address, `points` the eight configuration words of each alarm point. -/
structure Cfg where
  live : Bool := false
  id : Word := 0
  issue : Word := 0
  minFw : Word := 0
  zone : BitVec 6 := 0
  station : BitVec 6 := 0
  memberPref : BitVec 16 := 0xFFFF
  nodeName : List Byte := []
  portEnable : BitVec 16 := 0
  border : Bool := false
  c1Rate : BitVec 8 := 0
  c2Rate : BitVec 8 := 0
  c1Wait : BitVec 8 := 0
  c2Wait : BitVec 8 := 0
  slots : Nat := 0
  subs : List Sub := []
  regs : Tab Word := []
  points : Tab (List Word) := []
  accords : List AccordRec := []
  rosters : List RosterRec := []
  panels : List PanelRec := []
  msgs : List MsgRec := []
  k0 : BitVec 64 := 0
  k1 : BitVec 64 := 0
  guarded : Guarded := {}
  deriving DecidableEq, Repr

end Sys2Proof.Machine
end

