-- ==== Sys2Proof/Machine/StateAlarm.lean ====
section
/-! DEFINITION. Machine/StateAlarm.lean: state of the alarm engine, the Accord evaluators and the call managers (chapters 8 and 9). -/
namespace Sys2Proof.Machine

/-- The states of an alarm point (Table 8.6). -/
inductive PState where
  | normal | activeUnack | activeAck | clearedUnack | blocked | shelved | outOfService
  deriving DecidableEq, Repr

/-- One alarm-point record (Tables 8.2 to 8.6). ALM_STATE is held field by field. `memFault`: the record has an uncorrectable
word (R207). `restart`: a configuration write whose effect the next slot applies (Table 8.13). `lastRate`: the latest r of a RATE point (R197). `sounds`: the point has entered
ACTIVE_UNACK since the last SILENCE of the front panel (R221). `evCfg`, `evLink` and `evRoster`: the words as the latest slot read them, by which
commands and events go until the next slot (R188, R208). -/
structure Point where
  cfg : Word := 0
  link : Word := 0
  block : Word := 0
  roster : Word := 0
  sp : F32 := 0
  hyst : F32 := 0
  onDelay : Word := 0
  offDelay : Word := 0
  st : PState := .outOfService
  cond : Bool := false
  raw : Bool := false
  frozen : Bool := false
  blockNow : Bool := false
  rateValid : Bool := false
  rateCnt : BitVec 8 := 0
  occ : BitVec 16 := 0
  onCount : BitVec 19 := 0
  offCount : BitVec 19 := 0
  blkCount : BitVec 19 := 0
  shelveLeft : BitVec 22 := 0
  anchor : F32 := 0
  lastValue : F32 := 0
  lastRate : F32 := 0
  onset : Word := 0
  memFault : Bool := false
  restart : Bool := false
  sounds : Bool := false
  evCfg : Word := 0
  evLink : Word := 0
  evRoster : Word := 0xFFFFFFFF
  deriving DecidableEq, Repr

/-- The Accord mean the engine keeps for DEVIATION points (R198). -/
structure MeanSt where
  m : F32
  good : Bool
  at_ : Nat
  deriving DecidableEq, Repr

/-- An alarm event whose fabric copy waits for a member number and a route (R206). -/
structure HeldCopy where
  item : Word
  ev : AlmEvent
  deriving DecidableEq, Repr

/-- The alarm engine (chapter 8). -/
structure AlmSt where
  points : Tab Point := []
  running : Bool := false
  cycle : Word := 0
  tickAt : Nat := 0
  countA : Word := 0
  countB : Word := 0
  sel : BitVec 12 := 0
  cmdArg : BitVec 15 := 0
  cmds : List (BitVec 12 × AlmOp) := []
  instants : Tab (BitVec 64) := []
  means : Tab MeanSt := []
  inVals : Tab ValEntry := []
  inInstants : Tab (BitVec 64) := []
  inMeans : Tab MeanSt := []
  inDo : BitVec 16 := 0
  inCauses : BitVec 128 := 0
  inTime : BitVec 64 := 0
  latchAt : Nat := 0
  held : List HeldCopy := []
  deriving DecidableEq, Repr

/-- What an evaluator knows of one member (R212): its latest known state with the TIME its frame was offered at, and the value and
quality of its latest report with the TIME of that one (`repT`); `reportAt` is when the latest report came. -/
structure Member where
  st : BitVec 3 := 0
  frozen : Bool := false
  quality : BitVec 8 := 0
  occ : BitVec 16 := 0
  value : F32 := 0
  onset : BitVec 64 := 0
  prio : BitVec 2 := 0
  cond : BitVec 4 := 0
  at_ : BitVec 64 := 0
  repT : BitVec 64 := 0
  reportAt : Option Nat := none
  known : Bool := false
  deriving DecidableEq, Repr

/-- One Accord evaluator that runs here, as primary or as shadow (chapter 9). -/
structure AccItem where
  state : BitVec 2 := 0
  rebuilding : Bool := true
  startedAt : Nat := 0
  groupAt : Option Nat := none
  members : Tab Member := []
  foTag : Word := 0xFFFFFFFF
  foOnset : BitVec 64 := 0
  winOpen : Bool := false
  entered : List (Word × BitVec 64) := []
  simul : BitVec 8 := 0
  mean : F32 := 0
  meanGood : Bool := false
  requesters : List (Addr × Nat) := []
  raiseT : Word := 0
  changeT : Word := 0
  reported : List Addr := []
  deriving DecidableEq, Repr

/-- One call manager that runs here, as primary or as shadow (chapter 9): its state, whether it has one, the primary from
whose shadow it was promoted since the last STEP_DOWN (R311), whether stage 2 is due at the next tick (R227), the latest record of each Accord, its own
point sources, the duty reports, and the parts of a state that is still coming in (R258). -/
structure CallItem where
  st : CallState
  rebuilding : Bool := true
  held : Bool := false
  promoted : Option Addr := none
  due : Bool := false
  accs : Tab AccEvent := []
  points : Tab PointSource := []
  duties : List (Addr × DutyReport) := []
  parts : List (Nat × CallState) := []
  deriving DecidableEq, Repr

/-- The engineer-call block: the items that run here, and the selects of its views (Table 9.9). -/
structure CallSt where
  accords : Tab AccItem := []
  rosters : Tab CallItem := []
  lastNums : Tab (BitVec 16) := []
  accSel : BitVec 16 := 0
  rosSel : Word := 0
  reportNum : Word := 0
  deriving DecidableEq, Repr

end Sys2Proof.Machine
end

