-- ==== Sys2Proof/Machine/StateFabric.lean ====
section
/-! DEFINITION. Machine/StateFabric.lean: state of the fabric, the panel bus, placement and the pair (chapters 10 to 13). -/
namespace Sys2Proof.Machine

/-- A frame in a transmit queue: when it was offered (or came in), and whether it is forwarded (R278, R280). -/
structure QFrame where
  frame : Frame
  at_ : Nat
  forwarded : Bool
  deriving DecidableEq, Repr

/-- A frame in a receive queue: the command that it is, and when it came in (R278). -/
structure RxFrame where
  cmd : Instr
  at_ : Nat
  deriving DecidableEq, Repr

/-- The neighbour a link's latest HELLO showed (R262). -/
structure Neigh where
  serial : Word
  addr : Addr
  unaddr : Bool
  border : Bool
  deriving DecidableEq, Repr

/-- One link (Tables 11.7, 11.11 and 11.15). -/
structure LinkSt where
  enabled : Bool := false
  enabledAt : Nat := 0
  phyUp : Bool := false
  twoWay : Bool := false
  synced : Bool := false
  alone : Bool := false
  held : Bool := false
  neigh : Option Neigh := none
  helloNum : BitVec 16 := 0
  helloSent : List (BitVec 16 × Nat) := []
  seen : Option (Word × BitVec 16 × BitVec 64) := none
  delays : List Int := []
  want : List (Addr × Word × Bool) := []
  gotList : Bool := false
  urgent : List QFrame := []
  routine : List QFrame := []
  mgmt : List QFrame := []
  data : List QFrame := []
  onWire : Option QFrame := none
  rxUrgent : List RxFrame := []
  rxRoutine : List RxFrame := []
  rxMgmt : List RxFrame := []
  rxData : List RxFrame := []
  credit : Nat := 0
  creditAt : Nat := 0
  deriving DecidableEq, Repr

/-- One entry of the LSA table: a live LSA or a tombstone, with the time it was refreshed or entombed (R271). -/
structure LsaEnt where
  lsa : Lsa
  tomb : Bool
  at_ : Nat
  deriving DecidableEq, Repr

/-- A claim in progress (R266). `byWrite`: made by a FAB_ADDR write (R294). -/
structure ClaimSt where
  number : BitVec 12
  rank : BitVec 2
  startedAt : Nat
  tx : Nat
  byWrite : Bool
  deriving DecidableEq, Repr

/-- One duplicate window (R287). -/
structure Window where
  key : Word
  stream : BitVec 12
  high : BitVec 16
  mask : BitVec 64
  at_ : Nat
  deriving DecidableEq, Repr

/-- One path to a zone: the zones crossed, the border neighbour it came from, and when it was refreshed (R276). -/
structure ZPath where
  zone : BitVec 6
  neigh : Addr
  path : List (BitVec 6)
  at_ : Nat
  deriving DecidableEq, Repr

/-- The exit and the summary of one zone: the border node chosen and its path length, and the bitmap of the latest ZONE_SUMMARY (R273,
R277, Table 11.5). -/
structure ZExit where
  zone : BitVec 6
  border : Addr
  pathLen : Nat
  bitmap : BitVec 4096
  deriving DecidableEq, Repr

/-- One node served with publications (R289). -/
structure Subscriber where
  node : Addr
  mask : BitVec 112
  heardAt : Nat
  sentAt : Tab Nat
  sentSeq : Tab (BitVec 16 × BitVec 8)
  deriving DecidableEq, Repr

/-- The fabric (chapter 11). The fabric time is `ftBase` ns at clock `ftAt`, plus the time since, plus the slew of `slew` ns; before end of
start (`ftOn` clear) it reads 0. -/
structure FabSt where
  links : Vector LinkSt 7 := Vector.replicate 7 {}
  up : Bool := false
  addressed : Bool := false
  member : BitVec 12 := 0
  claim : Option ClaimSt := none
  lost : List (BitVec 12) := []
  excluded : List (BitVec 12) := []
  givenUp : List (BitVec 12) := []
  claimCache : List (Word × BitVec 12 × BitVec 2 × Bool) := []
  exhausted : Bool := false
  wonAt : Nat := 0
  lateZone : Option (BitVec 6) := none
  lateMember : Option (BitVec 12) := none
  ownSeq : Word := 0
  lsas : List LsaEnt := []
  fwd : Tab Link := []
  view : List Addr := []
  zpaths : List ZPath := []
  zexits : List ZExit := []
  windows : List Window := []
  streamSeq : Tab (BitVec 16) := []
  ftBase : Nat := 0
  ftAt : Nat := 0
  ftOn : Bool := false
  slew : Int := 0
  slewPpm : Nat := 100
  goodMarks : Nat := 0
  synced : Bool := false
  root : Option Addr := none
  rootTimeOk : Bool := false
  rootStep : Bool := false
  markNum : Word := 0
  sysZone : BitVec 6 := 0
  crossings : BitVec 6 := 0
  borderOffsets : List Int := []
  ftHi : Word := 0
  offset : Word := 0
  subscribers : List Subscriber := []
  subSeen : Tab (Nat × BitVec 64) := []
  deriving DecidableEq, Repr

/-- A frame for a panel, from its queue entry to its end (R246, R247), under the identifier of its record (R238). `stamp` and `ftSof`:
the counter at its latest start of frame, and that instant in fabric time (R244, R245). -/
structure CanFrame where
  num : Nat
  roster : Word
  panel : Option (Fin 64)
  code : BitVec 16
  msg : PanelMsg
  queuedAt : Nat
  refresh : Bool
  id : CanId
  late : Bool := false
  stamp : Option Word := none
  ftSof : BitVec 64 := 0
  deriving DecidableEq, Repr

/-- One port of the panel bus (chapter 10). `rxSof`: the stamp of the latest frame that came in, destroyed or not (R244); `fresh`: the
state of R253 is still to follow the first NODE_BEAT (R255). -/
structure PbPort where
  up : Bool := false
  monitor : Bool := false
  busOff : Bool := false
  busOffAt : Nat := 0
  recovering : Bool := false
  clash : Bool := false
  tec : Nat := 0
  rec_ : Nat := 0
  depth : BitVec 6 := 3
  callq : List CanFrame := []
  otherq : List CanFrame := []
  fifo : List CanFrame := []
  lastSof : Word := 0
  rxSof : Option Word := none
  fresh : Bool := false
  present : BitVec 64 := 0
  deriving DecidableEq, Repr

/-- The ON DUTY lamp of a panel for one roster: lit or not, the engineer index, and the press that lit it (R229). -/
structure Lamp where
  lit : Bool
  eng : BitVec 8
  press : BitVec 64
  deriving DecidableEq, Repr

/-- What the node holds for one panel it carries: the calls, lamps and patrols shown and the sounds commanded, by roster; the sound
in force; silence (R221); the call number whose stage-3 notice was acknowledged there (Table 9.4); the latest ON DUTY press; the latest KEY SEQ (R240); and kind, page set and page of its latest beat. -/
structure PanelSt where
  calls : Tab CallMsg := []
  lamps : Tab Lamp := []
  patrols : Tab (BitVec 8 × BitVec 16 × Nat) := []
  sounds : Tab (BitVec 8 × BitVec 8) := []
  sound : BitVec 8 × BitVec 8 := (0, 0)
  silenced : Bool := false
  acked : Tab (BitVec 16) := []
  pressAt : BitVec 64 := 0
  keySeq : Option (BitVec 16) := none
  beat : Option (BitVec 8 × BitVec 16 × BitVec 8) := none
  deriving DecidableEq, Repr

/-- The panel bus (chapter 10): ports, the latest mark and the one before it (R245), panels by port × 64 + panel, stored pages by page set, page and line, and what the node
keeps for its duty reports (R229) and its key relays (R313). -/
structure PbSt where
  c1 : PbPort := {}
  c2 : PbPort := {}
  frameNum : Nat := 0
  tsMark : Word := 0
  tsMarkFt : BitVec 64 := 0
  tsPrev : Word := 0
  tsPrevFt : BitVec 64 := 0
  panels : Tab PanelSt := []
  lines : Tab PageLine := []
  pageCount : Tab Nat := []
  patrolNote : Tab PatrolNote := []
  topCall : Tab (BitVec 16) := []
  callFrom : List (Word × Addr × Nat) := []
  deriving DecidableEq, Repr

/-- A catalogue as accepted, or as its frames come in (R299). `expired`: its origin has been absent for 600 s and is no candidate until
it is back in the view (R302). -/
structure CatSt where
  origin : Addr
  version : Word
  slots : BitVec 16
  eligible : Bool
  crossings : BitVec 8
  from_ : Option Addr
  entries : List CatEntry
  frames : List (BitVec 8) := []
  count : BitVec 8 := 0
  expired : Bool := false
  deriving DecidableEq, Repr

/-- One entry of a candidate list (R302). -/
structure Candidate where
  addr : Addr
  slots : BitVec 16
  deriving DecidableEq, Repr

/-- What the latest NODE_STATE of a node says (R301, R305). -/
structure NodeFact where
  addr : Addr
  slots : BitVec 16
  eligible : Bool
  trend : Bool
  catVersion : Word
  configId : Word
  deriving DecidableEq, Repr

/-- The role this node has for an item (R306). -/
inductive Role where
  | none | primary | shadow
  deriving DecidableEq, Repr

/-- What the node knows of one placed item (chapter 12). -/
structure ItemSt where
  role : Role := .none
  primary : Option Addr := none
  shadow : Option Addr := none
  healthy : Nat := 0
  quorum : Bool := true
  quorumOk : Bool := false
  starved : Bool := false
  refused : Bool := false
  movedAt : Word := 0
  seq : Tab (BitVec 16) := []
  deriving DecidableEq, Repr

/-- One period of a trend ring (R316). -/
structure TrendPeriod where
  period : Word
  start : BitVec 64
  means : List F32
  quals : List Byte
  deriving DecidableEq, Repr

/-- The running sums of one channel's trend period (R316): samples counted, their values, the latest other quality. -/
structure TrendAcc where
  vals : List F32 := []
  bad : Option Byte := none
  deriving DecidableEq, Repr

/-- Placement (chapter 12). -/
structure PlaceSt where
  up : Bool := false
  version : Word := 0
  cats : List CatSt := []
  partialCats : List CatSt := []
  cands : Tab (List Candidate) := []
  facts : List NodeFact := []
  healthyNodes : List Addr := []
  items : Tab ItemSt := []
  sel : Word := 0
  calcItem : Word := 0
  calcAddr : Addr := 0
  calcH : BitVec 64 := 0
  lastWithdraw : Option Nat := none
  rings : Tab (List TrendPeriod) := []
  acc : Tab TrendAcc := []
  pages : Tab (List PageLine) := []
  renders : Tab (BitVec 2 × BitVec 2 × List PointSource) := []
  renderParts : Tab (List (List PointSource)) := []
  renderAccs : Tab AccEvent := []
  deriving DecidableEq, Repr

/-- The unit states of Table 13.2; a handover is incoming or outgoing. -/
inductive UnitState where
  | start | selftest | standby | active | handoverIn | handoverOut | faulted
  deriving DecidableEq, Repr

/-- One heartbeat path (R326): whether it is not lost, the number of the latest frame sent on it, and when the latest beat came on it,
or SELFTEST began. -/
structure PathSt where
  up : Bool := true
  sent : BitVec 16 := 0
  since : Nat := 0
  deriving DecidableEq, Repr

/-- The redundant pair (chapter 13). `ownHeld` is the supervisor's. `wanted` is the cause of a planned handover that is under way,
`trigger` that of the latest takeover (Table 13.10), `diagCnt` counts the samples of each output that disagree with the partner (R334). -/
structure PairSt where
  state : UnitState := .start
  ownHeld : Bool := false
  takenAt : Nat := 0
  loopHeld : Bool := false
  loopOpen : Bool := false
  split : Bool := false
  doubleSend : Bool := false
  forHandover : Bool := false
  pathP : PathSt := {}
  pathF : PathSt := {}
  force : BitVec 2 := 0
  holdoff : BitVec 16 := 0x012C
  health : Word := 0
  peerHealth : Word := 0
  peer : Option PairMsg := none
  peerAt : Nat := 0
  peerAddr : Option Addr := none
  peerSerial : Option Word := none
  announcedAt : Option Nat := none
  probing : Bool := false
  listening : Bool := false
  listenFrom : Nat := 0
  extended : Bool := false
  seizing : Bool := false
  requested : Bool := false
  wanted : BitVec 4 := 0
  triggerAt : Nat := 0
  trigger : BitVec 4 := 0
  lastSwitch : Word := 0
  ckptGen : Word := 0
  copy : Option Checkpoint := none
  copyRuntime : Tab (List Word) := []
  halves : BitVec 2 := 0
  ckptAt : Option Nat := none
  calMiss : Vector Bool 8 := Vector.replicate 8 false
  calFail : Bool := false
  diagCnt : Vector Nat 16 := Vector.replicate 16 0
  partnerCmd : BitVec 16 := 0
  deriving DecidableEq, Repr

end Sys2Proof.Machine
end

