-- ==== Sys2Proof/Machine/StateIo.lean ====
section
/-! DEFINITION. Machine/StateIo.lean: state of the supply monitors, the analogue channels, the repeat outputs and the 24 V inputs and
outputs (chapters 3 and 5 to 7). Configuration registers are in the register table and the triplicated words, under their address. -/
namespace Sys2Proof.Machine

/-- One field supply (R77): its latest measurement and the millisecond of the clock it belongs to, its status bits, and whether it
stands below 12.0 V now (R180). -/
structure FieldSupply where
  mv : BitVec 16 := 24000
  ma : BitVec 16 := 0
  ms : Option Nat := none
  absent : Bool := false
  low : Bool := false
  high : Bool := false
  overCur : Bool := false
  below12 : Bool := false
  deriving DecidableEq, Repr

/-- How the supply to the islands went before a start: up from nothing, after a completed Drydown, after an abandoned one, or never held. -/
inductive Prior where
  | powerOn | drydown | abandoned | none
  deriving DecidableEq, Repr

/-- What the supply monitors of chapter 3 hold, and what the supervisor keeps across a reset: the events lost with the queue that are not in EVQ_LOST yet, and those that no LOST record has reported (R20), the
start of a running Drydown, how the next start comes about (R72, R75), the reset cause that ended a Drydown, the bus
voltage of its end, the time of its last save-store write, and what became of its panel update (Table 3.10). `lowCnt` and `freqCnt` count consecutive cycles against the present state;
`pairUnit`: the unit was a pair member
before the reset it is in (Table 7.1). `lastHalf` is the clock at the end of the last valid half-cycle; `freq` is the last valid frequency in mHz. -/
structure SupSt where
  busV : BitVec 16 := 3900
  mainsV : BitVec 16 := 2300
  mainsLost : Bool := false
  riding : Bool := false
  mainsLow : Bool := false
  freqOut : Bool := false
  lowCnt : Nat := 0
  freqCnt : Nat := 0
  periods : List Nat := []
  freqValid : Bool := false
  freq : Nat := 0
  lastHalf : Nat := 0
  a : FieldSupply := {}
  b : FieldSupply := {}
  evqKept : Nat := 0
  evqOwed : Nat := 0
  ddAt : Option Nat := none
  prior : Prior := .powerOn
  ddCause : Option (BitVec 8) := none
  busEnd : BitVec 12 := 0
  ddMs : BitVec 10 := 0
  ddPanel : BitVec 2 := 0
  pairUnit : Bool := false
  deriving DecidableEq, Repr

/-- The conversion path of a channel (R137 to R139): the modulator's last bits, newest first; the modulator samples since the last
first-stage output; the first-stage outputs, newest first, in units of 2^-28 of full scale; and the mains frequencies, in mHz, of the
output periods ended since the restart point, newest first, three at most. -/
structure Filt where
  mods : List Bool := []
  phase : Nat := 0
  s1 : List Int := []
  periods : List Nat := []
  deriving DecidableEq, Repr

/-- One analogue channel (chapters 5 and 6). `filt`: its filter; `gone`: the highest-ranked quality that an ended cause gave since the
latest instant (R159); `pending`: a restart waits for its restart point; `remain`: instants left of the
settle; `latest`: the latest computed value; `mode`: the
SPRITZ field the latest result applied (R162); `measHi` to `limLo`: the range causes of R157. -/
structure Chan where
  excLimit : Bool := false
  loopLimit : Bool := false
  excUnreg : Bool := false
  shed : Bool := false
  draw : Nat := 0
  modRange : Bool := false
  termRange : Bool := false
  excLost : Bool := false
  loopOpen : Bool := false
  open_ : Bool := false
  short : Bool := false
  openCnt : Nat := 0
  shortCnt : Nat := 0
  await : Bool := false
  mode : BitVec 2 := 0
  trackFrozen : Bool := false
  measHi : Bool := false
  measLo : Bool := false
  limHi : Bool := false
  limLo : Bool := false
  pending : Bool := false
  remain : Nat := 0
  latest : F32 := 0
  lastGood : F32 := 0
  pcal : F32 := 0
  raw : BitVec 24 := 0
  excMeas : Word := 0
  cjUsed : F32 := 0
  zp : F32 := 0
  zc : F32 := 0
  freq : Nat := 0
  filt : Filt := {}
  gone : BitVec 8 := 0
  deriving DecidableEq, Repr

/-- One block of eight channels (chapter 5). `plug`: the code of a plug seen present; `retry`: a retry of a shed channel is
scheduled, and for when; `observing`: the second after a retry runs;
`cjApart`: the latest two cold-junction readings differ by more than 5.0 °C. -/
structure Blk where
  plug : Option (BitVec 3) := none
  foldback : Bool := false
  excLimit : Bool := false
  excP : BitVec 16 := 0
  retry : Option Nat := none
  observing : Bool := false
  cj1 : F32 := 0
  cj2 : F32 := 0
  cj1Fail : Bool := false
  cj2Fail : Bool := false
  cjSpread : Bool := false
  cjApart : Bool := false
  deriving DecidableEq, Repr

/-- The analogue front end. `gap` marks the entries in the switchover gap, which ends for each entry by itself (R332);
`pause` is the service pause (R154);
`freqSeen` is the last valid mains frequency the conversion island was passed since start (R146). -/
structure AfeSt where
  chans : Vector Chan 64 := Vector.replicate 64 {}
  blks : Vector Blk 8 := Vector.replicate 8 {}
  gap : BitVec 112 := 0
  pause : Bool := false
  freqSeen : Option Nat := none
  deriving DecidableEq, Repr

/-- One repeat output (R164 to R167). `held`: the source value of the partner's checkpoint that it drives until its source is GOOD. -/
structure ArSt where
  code : BitVec 16 := 0
  driven : Bool := false
  held : Option F32 := none
  ref : BitVec 16 := 0
  out : BitVec 16 := 0
  refLow : Bool := false
  refHigh : Bool := false
  dev : Bool := false
  devCnt : Nat := 0
  clamp : Bool := false
  holding : Bool := false
  fault : Bool := false
  deriving DecidableEq, Repr

/-- One digital input (R168 to R172). `cfg`: the DI_CFG word the latest sample used; `taken`: samples since the settle began. -/
structure DiSt where
  cfg : Word := 0
  count : BitVec 10 := 0
  out : Bool := false
  pub : Bool := false
  raw : Bool := false
  taken : Nat := 0
  ua : Nat := 0
  brk : Bool := false
  brkCnt : Nat := 0
  deriving DecidableEq, Repr

/-- The phases of a fixative (R180). -/
inductive Fix where
  | released | track | hold
  deriving DecidableEq, Repr

/-- One digital output with its fixative (R173 to R184). `fixState` is the state held; `holdLen` the hold in units of 0.1 s;
`holdEnd` the mark kept for the next start; `latchTsd` the restart rule that the switch goes on by while the node is in reset (R174). -/
structure DoSt where
  cmd : Bool := false
  cmdAt : Nat := 0
  stale : Bool := false
  limit : Bool := false
  tsd : Bool := false
  tsdLatched : Bool := false
  openOn : Bool := false
  openOff : Bool := false
  extDrive : Bool := false
  mv : BitVec 16 := 0
  ma : BitVec 16 := 0
  fix : Fix := .released
  fixState : Bool := false
  holdFrom : Nat := 0
  holdLen : Nat := 0
  holdEnd : Bool := false
  latchTsd : Bool := false
  deriving DecidableEq, Repr

/-- The field outputs and inputs of chapter 7. -/
structure IoSt where
  ars : Vector ArSt 8 := Vector.replicate 8 {}
  dis : Vector DiSt 32 := Vector.replicate 32 {}
  dos : Vector DoSt 16 := Vector.replicate 16 {}
  deriving DecidableEq, Repr

end Sys2Proof.Machine
end

