-- ==== Sys2Proof/Machine/StateStore.lean ====
section
/-! DEFINITION. Machine/StateStore.lean: the time island, the save store, the Flacon socket, and state of the panel, of port S and of
the update engine (chapters 4, 14, 15 and 17). -/
namespace Sys2Proof.Machine

/-- One calendar alarm (Table 14.6): TALM_CTRL as written with SKIPPED apart, TALM_DATE, TALM_TOD and TALM_HWM. -/
structure Talm where
  ctrl : Word := 0
  skipped : Bool := false
  date : Word := 0x101
  tod : Word := 0
  hwm : Word := 0
  deriving DecidableEq, Repr

/-- The shadows of R353: TIME_FRAC, the seconds count, TIME_DATE and TIME_TOD as sampled. -/
structure Shadow where
  frac : Word
  sec : Word
  date : Word
  tod : Word
  deriving DecidableEq, Repr

/-- The time island (chapter 14). The prescaler stands at `frac` at clock `fracAt` and counts on while the crystal runs; `endOsf`: OSF
was set by the end of the count and stays (Table 14.2); `lost`: the island has lost its state since the last start (R350); `due`:
records that wait until the recorder runs. -/
structure TimeSt where
  osf : Bool := true
  endOsf : Bool := false
  stopped : Bool := false
  offFreq : Bool := false
  sec : Word := 0
  frac : BitVec 15 := 0
  fracAt : Nat := 0
  vcap : BitVec 16 := 3000
  src : BitVec 2 := 0
  shadow : Option Shadow := none
  setDate : Word := 0x07D00101
  setTod : Word := 0
  trim : BitVec 8 := 0
  conv : Word := 0
  ftDiff : Word := 0
  a0 : Talm := {}
  a1 : Talm := {}
  backup : Tab Word := []
  lost : Bool := true
  due : List (BitVec 2 × List Word) := []
  deriving DecidableEq, Repr

/-- A rectangle of the panel (Table 15.13), in pixels, with its CLEAN flag. -/
structure Rect where
  x0 : Nat
  w : Nat
  y0 : Nat
  h : Nat
  clean : Bool := false
  deriving DecidableEq, Repr

/-- A running region (R381 to R385, Table 15.12). `only`: the cleaning waveform alone (R393); `begun`: its first frame has started;
`drop`: it stops without becoming pending (R391, R392); `scales`: SCALE of each tile it covers. -/
structure Region where
  rect : Rect
  only : Bool := false
  band : Fin 8
  length : Nat
  frame : Nat := 0
  begun : Bool := false
  aborting : Bool := false
  drop : Bool := false
  startMs : Word
  scales : List (Nat × Nat)
  deriving DecidableEq, Repr

/-- The front pages (Table 15.3), and what the panel shows in recovery (R417). -/
inductive FrontPage where
  | start | alarms | status | standby | idle | service | noFirmware
  deriving DecidableEq, Repr

/-- One line of the front panel: 24 characters and an attribute, 0 normal, 1 inverse, 2 emphasis (R372); on ALARMS, the point that it
shows, with its OCC (R374). -/
structure FrontLine where
  text : List Byte
  attr : BitVec 2
  point : Option (Nat × BitVec 16) := none
  deriving DecidableEq, Repr

/-- PIN entry (R373): the digits before the current one, and the current one. -/
structure PinEntry where
  before : List (Fin 10) := []
  digit : Fin 10 := 0
  deriving DecidableEq, Repr

/-- The panel and the front controls (chapter 15). Images hold one word for 16 pixels. `vcomNow`: the VCOM code in use (R390);
`checkDue`: an image check waits for the idle engine (R388); `alarmsDue`: ALARMS is drawn while START is still shown (Table 15.3). -/
structure DispSt where
  old : Tab Word := []
  new : Tab Word := []
  lines : Tab FrontLine := []
  wave : Tab Word := []
  waveCopy : Tab Word := []
  slots : Vector (Option Region) 8 := Vector.replicate 8 none
  pend : List Rect := []
  reqs : List Rect := []
  cleaning : List Rect := []
  frameOn : Bool := false
  temp : Int := 200
  band : Fin 8 := 3
  tempOut : Bool := false
  railsOn : Bool := false
  railsAt : Nat := 0
  railFault : Bool := false
  faultAt : List Nat := []
  failed : Bool := false
  imbalance : Bool := false
  charge : Tab Int := []
  stress : Tab Word := []
  stressRem : Tab Nat := []
  crcLast : Word := 0
  checkDue : Bool := false
  vcomNow : BitVec 8 := 150
  alarmsDue : Bool := false
  page : FrontPage := .start
  sel : Nat := 0
  ackKey : Bool := false
  silKey : Bool := false
  touched : BitVec 4 := 0
  stuck : BitVec 4 := 0
  testUntil : Nat := 0
  faultSilenced : Bool := false
  pin : Option PinEntry := none
  pinWrong : Nat := 0
  pinLocked : Bool := false
  deriving DecidableEq, Repr

/-- The states of a bank (Table 17.13). -/
inductive BankState where
  | empty | loading | verified | good | failed
  deriving DecidableEq, Repr

/-- One firmware bank: its state, erase cycles, the blocks programmed, and whether it holds the image the node was delivered with,
whose bytes the spec does not give (R414, R415). -/
structure Bank where
  state : BankState := .empty
  cycles : Word := 0
  blocks : Tab (List Byte) := []
  factory : Bool := false
  deriving DecidableEq, Repr

/-- The self-test state that a unit without OWN saves in its own Drydown (R74): the health word, the channels' calibration misses and
the counts of disagreeing output read-backs (R334). -/
structure SelfTest where
  health : Word
  calMiss : Vector Bool 8
  calFail : Bool
  diagCnt : Vector Nat 16
  deriving DecidableEq, Repr

/-- The save store's checkpoint of alarm, acknowledge, Accord and call state (R70); on a unit without OWN, its self-test state. -/
structure StoreCkpt where
  gen : Word
  fmt : BitVec 16
  cfgId : Word
  cfgIssue : Word
  points : Tab Point
  accords : Tab AccItem
  rosters : Tab CallItem
  panels : Tab PanelSt
  selfTest : Option SelfTest := none
  deriving DecidableEq, Repr

/-- The settings records that a new image migrates (R101, R418): the version of each, the trims of the channels, TIME_TRIM, DISP_VCOM
and the member numbers. -/
structure Settings where
  vers : Tab (BitVec 16) := []
  savedNum : Option (BitVec 6 × BitVec 12) := none
  savedStandby : Option (BitVec 6 × BitVec 12) := none
  cal : Tab (F32 × F32 × Word) := []
  trim : BitVec 8 := 0
  vcom : BitVec 8 := 150
  deriving DecidableEq, Repr

/-- The save store's settings (chapters 3, 4, 12 and 17), which outlive every reset. -/
structure StoreSt where
  savedNum : Option (BitVec 6 × BitVec 12) := none
  savedStandby : Option (BitVec 6 × BitVec 12) := none
  cal : Tab (F32 × F32 × Word) := []
  trim : BitVec 8 := 0
  vcom : BitVec 8 := 150
  vers : Tab (BitVec 16) := []
  before : Option Settings := none
  opSeconds : Word := 0
  powerCycles : BitVec 24 := 0
  rideLast : BitVec 16 := 0
  ddLast : Word := 0
  evqLost : Word := 0
  stress : Tab Word := []
  markers : List Rect := []
  ageFull : Word := 1000000
  keys : Vector (BitVec 256) 4 := Vector.replicate 4 0
  guarded : Option Guarded := none
  guardedFor : Word × Word := (0, 0)
  ckptA : Option StoreCkpt := none
  ckptB : Option StoreCkpt := none
  lastVer : Option Word := none
  bankSel : Bool := false
  trial : Bool := false
  trialStarts : BitVec 8 := 0
  bankA : Bank := { state := .good, factory := true }
  bankB : Bank := {}
  rollbacks : Word := 0
  deriving DecidableEq, Repr

/-- The Flacon socket and the start registers of Table 4.15. -/
structure FlaconSt where
  present : Bool := false
  jedec : BitVec 24 := 0
  bytes : List Byte := []
  reason : BitVec 8 := 0
  detail : BitVec 16 := 0
  startMs : BitVec 16 := 0
  cfgId : Word := 0
  cfgIssue : Word := 0
  len : Word := 0
  jedecReg : BitVec 24 := 0
  deriving DecidableEq, Repr

/-- What port S last sent (R407, R408). -/
inductive Sent where
  | reply (ip : Word) (port : BitVec 16) (m : MgmtReply)
  | arp (ip : Word)
  | echo
  deriving DecidableEq, Repr

/-- Port S and the gateway (R406 to R413): replies kept for ten seconds, requests forwarded and unanswered, the nonce in force, the
requests that wait, whether one of them is being executed, and a reset that a RESET over the fabric has ordered. -/
structure SvcSt where
  ip : Word := 0
  defendedAt : Option Nat := none
  kept : List (SvcOrigin × BitVec 16 × MgmtReply) := []
  waiting : List (SvcOrigin × BitVec 16 × Addr × BitVec 8) := []
  nonce : Option (BitVec 128) := none
  sent : Option Sent := none
  queue : List Instr := []
  taking : Bool := false
  resetDue : Bool := false
  deriving DecidableEq, Repr

/-- The states of the update engine (Table 17.11). -/
inductive UpdState where
  | idle | loading | verifying | verified | activating | failed
  deriving DecidableEq, Repr

/-- An update session (R419): owner, BLOCKS and the versions, the blocks written, and the record whose fragments come in. -/
structure Session where
  owner : SvcOrigin
  newVer : Word
  count : Nat
  written : List Nat := []
  partialRec : Option (UpdFrag × List Byte) := none
  deriving DecidableEq, Repr

/-- The update engine (chapter 17). `ver` is NEW_VER and `blocks` the count of the latest session; `fin` the request that
UPD_FINISH left to be answered (R421). -/
structure UpdSt where
  state : UpdState := .idle
  reason : BitVec 8 := 0
  sess : Option Session := none
  ver : Word := 0
  blocks : Nat := 0
  fin : Option (SvcOrigin × BitVec 16) := none
  bank : Bool := false
  runVer : Word := 0
  confirmAt : Option Nat := none
  deriving DecidableEq, Repr

end Sys2Proof.Machine
end

