-- ==== Sys2Proof/Machine/State.lean ====
section
/-! DEFINITION. Machine/State.lean: the state of the node, as plain data, and its state after reset. -/
namespace Sys2Proof.Machine

/-- Why the block stops with a fault. No command of the table faults: every effect the spec gives ends in a next state. -/
inductive Fault where
  /-- Raised by no command: the spec names no access or event that stops the block for good. Safe. -/
  | stopped
  deriving DecidableEq, Repr

/-- Why a command has no meaning here. -/
inductive Refusal where
  /-- Raised by the dispatch for a command that the model does not give a meaning. Safe: the run ends there. -/
  | notModelled (mnemonic : String)
  deriving DecidableEq, Repr

/-- The node. Registers that hold a plain word live in `reg`, `ctr` (counters), `rsq` and `tri` under their address. -/
structure State where
  /-- The model's own: commands waiting, first in first out. -/
  pending : List Instr := []
  /-- The model's own: frames and events the node delivers to itself, run when no command waits. -/
  selfQ : List Instr := []
  /-- The model's own: while a frame is taken out of its receive queue, the nanoseconds it waited there. -/
  taking : Option Nat := none
  /-- The model's own: nanoseconds since the model's start. -/
  clock : Nat := 0
  /-- The model's own: how many unstated values have been drawn. -/
  fresh : Nat := 0
  /-- The model's own: base addresses of the functions an undefined case has touched since start (R57). -/
  unspec : List Nat := []
  /-- ID_SERIAL and ID_HW_ISSUE, set at the factory. -/
  serial : Word := 1
  hwIssue : Word := 0x100
  rsq : Tab Rsq := []
  ctr : Tab Word := []
  reg : Tab Word := []
  tri : Tab Tri := []
  /-- The value table (R18); an unlisted entry holds its reset value. -/
  vals : Tab ValEntry := []
  sys : SysSt := {}
  rcd : RecSt := {}
  cfg : Cfg := {}
  alm : AlmSt := {}
  call : CallSt := {}
  fab : FabSt := {}
  pb : PbSt := {}
  plc : PlaceSt := {}
  pair : PairSt := {}
  tim : TimeSt := {}
  sup : SupSt := {}
  afe : AfeSt := {}
  io : IoSt := {}
  store : StoreSt := {}
  flacon : FlaconSt := {}
  disp : DispSt := {}
  svc : SvcSt := {}
  upd : UpdSt := {}
  deriving DecidableEq, Repr

/-- The machine right after reset. -/
def State.reset : State := {}

end Sys2Proof.Machine
end

