-- ==== Sys2Proof/Machine/Tab.lean ====
section
/-! DEFINITION. Machine/Tab.lean: the operations of the sparse tables: look up, put, remove, in one canonical form. -/
namespace Sys2Proof.Machine

/-- The entry stored under a key. -/
def tabLook {α : Type} (t : Tab α) (k : Nat) : Option α :=
  match t with
  | [] => none
  | (k', v) :: r => if k' = k then some v else tabLook r k

/-- The entry stored under a key, or the default. -/
def tabGet {α : Type} (d : α) (t : Tab α) (k : Nat) : α := (tabLook t k).getD d

/-- Remove a key. -/
def tabDel {α : Type} (t : Tab α) (k : Nat) : Tab α := t.filter (fun p => p.1 != k)

/-- Insert before the first larger key. -/
def tabInsert {α : Type} (t : Tab α) (k : Nat) (v : α) : Tab α :=
  match t with
  | [] => [(k, v)]
  | p :: r => if k < p.1 then (k, v) :: p :: r else p :: tabInsert r k v

/-- Store a value under a key. -/
def tabPut {α : Type} (t : Tab α) (k : Nat) (v : α) : Tab α := tabInsert (tabDel t k) k v

/-- Store a value under a key; a value equal to the default is not listed. -/
def tabSet {α : Type} [DecidableEq α] (d : α) (t : Tab α) (k : Nat) (v : α) : Tab α :=
  if v = d then tabDel t k else tabPut t k v

/-- Change the value under a key. -/
def tabMod {α : Type} [DecidableEq α] (d : α) (t : Tab α) (k : Nat) (f : α → α) : Tab α :=
  tabSet d t k (f (tabGet d t k))

/-- The distinct elements of a list, in order of first appearance. -/
def distinct {α : Type} [DecidableEq α] (l : List α) : List α :=
  l.foldl (fun acc x => if acc.contains x then acc else acc ++ [x]) []

/-- The canonical form: keys strictly rising. -/
def tabSorted {α : Type} (t : Tab α) : Bool :=
  match t with
  | [] => true
  | p :: r => (r.all (fun q => p.1 < q.1)) && tabSorted r

end Sys2Proof.Machine
end

