-- ==== Sys2Proof/Machine/Ops.lean ====
section
/-! DEFINITION. Machine/Ops.lean: the operations every meaning shares: counters, latched events, the event queue, fabric time,
unstated values and the triplicated words. -/
namespace Sys2Proof.Machine

/-- What a meaning answers. -/
abbrev Out := Host.Outcome State Fault Refusal

/-- Apply an effect where a condition holds. -/
def whenS (c : Bool) (f : State → State) (s : State) : State := if c then f s else s

/-- Apply an effect for each element of a list, in order. -/
def eachS {α : Type} (l : List α) (f : α → State → State) (s : State) : State := l.foldl (fun t a => f a t) s

/-- One bit of a word. -/
def bit (b : Bool) (n : Nat) : Word := if b then BitVec.ofNat 32 (2 ^ n) else 0

/-- A field of a word: w bits from bit lo. -/
def fld (v : Word) (lo w : Nat) : Nat := v.toNat / 2 ^ lo % 2 ^ w

/-- A Nat as a word. -/
def wd (n : Nat) : Word := BitVec.ofNat 32 n

/-! Counters (R44). -/

def ctrGet (s : State) (a : Nat) : Word := tabGet 0 s.ctr a

/-- Counters saturate at 0xFFFF_FFFF. -/
def satAdd (w : Word) (n : Nat) : Word := if w.toNat + n ≥ 0xFFFFFFFF then 0xFFFFFFFF else wd (w.toNat + n)

def bumpBy (a n : Nat) (s : State) : State := { s with ctr := tabSet 0 s.ctr a (satAdd (ctrGet s a) n) }

def bump (a : Nat) (s : State) : State := bumpBy a 1 s

/-! Plain registers. -/

def regGet (s : State) (a : Nat) : Word := tabGet 0 s.reg a

def regSet (a : Nat) (v : Word) (s : State) : State := { s with reg := tabSet 0 s.reg a v }

/-! Latched event registers (R42). -/

def rsqGet (s : State) (a : Nat) : Rsq := tabGet {} s.rsq a

def rsqWord (r : Rsq) : Word := wd (r.seq.toNat * 2 ^ 24 + r.bits.toNat)

/-- An event of an RSQ register arises; the end of the 1 ms frame latches it. -/
def latch (a b : Nat) (s : State) : State :=
  let r := rsqGet s a
  { s with rsq := tabSet {} s.rsq a { r with pend := r.pend ||| BitVec.ofNat 24 (2 ^ b) } }

/-- SEQ rises by one from 0x01 to 0xFF and wraps to 0x01. -/
def seqNext (q : BitVec 8) : BitVec 8 := if q = 0xFF then 1 else q + 1

/-- The latch of one register at the end of a frame. -/
def rsqLatch (r : Rsq) : Rsq :=
  if r.pend = 0 then r else { seq := seqNext r.seq, bits := r.bits ||| r.pend, pend := 0 }

/-- The register as it will stand after the latch that the running frame's events bring. -/
def rsqAfter (s : State) (a : Nat) : Word := rsqWord (rsqLatch (rsqGet s a))

/-- A clear write (R42): it clears the event bits where its SEQ equals the SEQ held. -/
def rsqClear (v : Word) (r : Rsq) : Rsq := if fld v 24 8 = r.seq.toNat then { r with bits := 0 } else r

/-! Fabric time (R281, R283): slewing adds at most `slewPpm` and at most the offset over 250 ms. -/

def fabNs (s : State) : Nat :=
  let f := s.fab
  let dt := s.clock - f.ftAt
  let o := f.slew.natAbs
  let m := min o (min (dt * f.slewPpm / 1000000) (dt * o / 250000000))
  if !f.ftOn then 0 else if f.slew < 0 then f.ftBase + dt - m else f.ftBase + dt + m

def fabUs (s : State) : BitVec 64 := BitVec.ofNat 64 (fabNs s / 1000)

/-- Milliseconds of fabric time, modulo 2^32. -/
def fabMs (s : State) : Word := wd (fabNs s / 1000000)

/-- The 10 ms tick of fabric time, modulo 65,536 (R226, R314). -/
def fabTick (s : State) : BitVec 16 := BitVec.ofNat 16 (fabNs s / 10000000)

/-! Unstated values. -/

def free (s : State) : Word := Config.freeWord s.fresh

def drawn (n : Nat) (s : State) : State := { s with fresh := s.fresh + n }

/-- An undefined case touches the function whose base address is given (R57). -/
def undef (base : Nat) (s : State) : State := if s.unspec.contains base then s else { s with unspec := base :: s.unspec }

/-! Triplicated words (R50). -/

/-- The three copies voted bit by bit. -/
def vote (t : Tri) : Word := (t.a &&& t.b) ||| (t.b &&& t.c) ||| (t.a &&& t.c)

def triGet (s : State) (a : Nat) : Tri := tabGet {} s.tri a

/-- A write of a triplicated word writes all three copies. -/
def triSet (a : Nat) (v : Word) (s : State) : State := { s with tri := tabSet {} s.tri a ⟨v, v, v⟩ }

/-- Register block of an address (Table 2.1). -/
def blockOf (a : Nat) : BitVec 8 := BitVec.ofNat 8 (a / 0x10000)

/-- A register word that holds a triplicated field (R50). -/
def isTri (a : Nat) : Bool :=
  a = aFAB_ADDR || a = aPAIR_ROLE || (0x040000 ≤ a && a < 0x044000 && a % 0x100 = 0) ||
    (0x060400 ≤ a && a < 0x060800 && a % 0x40 = 0x10)

/-- The bits of such a word that are the triplicated field: the zone, the pair role, TYPE, FAIL (R50). The word's other fields are
plain, and the first copy holds them. -/
def triMask (a : Nat) : Word :=
  if a = aFAB_ADDR then 0x3F000 else if a / 0x10000 = 0x04 then 0xFF else 3

/-- The value of a word with its triplicated field voted. -/
def voteWord (m : Word) (t : Tri) : Word := (vote t &&& m) ||| (t.a &&& ~~~m)

/-- The value a triplicated word reads as. -/
def voted (s : State) (a : Nat) : Word := voteWord (triMask a) (triGet s a)

/-- A copy of the field agrees with the majority. -/
def agrees (m : Word) (t : Tri) (c : Word) : Bool := c &&& m = vote t &&& m

/-- All three copies of the field agree. -/
def triAgrees (a : Nat) (t : Tri) : Bool := agrees (triMask a) t t.a && agrees (triMask a) t t.b && agrees (triMask a) t t.c

/-- A use of a triplicated field: the odd copy is rewritten and counted (R50); where the majority differs from all three copies,
the vote has failed (R51), and the first failure found is the one that the record names (DESIGN CHOICE, log entry 113). `base` is
the base address of the element that holds the field. -/
def voteUse (a : Nat) (base : Nat) (s : State) : State :=
  let t := triGet s a
  let m := triMask a
  if triAgrees a t then s
  else if agrees m t t.a || agrees m t t.b || agrees m t t.c then
    s |> triSet a (voted s a) |> bump aECC_VOTE_FIX |> latch aSYS_EVENT 3
  else if s.sys.voteFail.isSome then s
  else { s with sys := { s.sys with voteFail := some ⟨blockOf a, wd base, wd a, t⟩ } }

/-- Uses of the zone, of a channel's type, of an output's fail state and of the pair role (R50). -/
def useZone (s : State) : State := voteUse aFAB_ADDR 0x0A0000 s
def useType (n : Fin 64) (s : State) : State := voteUse (aAFE n 0) (aAFE n 0) s
def useFail (k : Fin 16) (s : State) : State := voteUse (aDO k 0x10) (aDO k 0) s
def useRole (s : State) : State := voteUse aPAIR_ROLE 0x0C0000 s

/-! The node's own address. -/

def ownZone (s : State) : BitVec 6 := BitVec.ofNat 6 (fld (voted s aFAB_ADDR) 12 6)

def mkAddr (z : BitVec 6) (m : BitVec 12) : Addr := z ++ m

def zoneOf (a : Addr) : BitVec 6 := a.extractLsb' 12 6

def memberOf (a : Addr) : BitVec 12 := a.extractLsb' 0 12

def ownAddr (s : State) : Addr := mkAddr (ownZone s) s.fab.member

/-- The node's address as its own records carry it; before the win, bit 31 with the zone (R185, R397). -/
def ownSource (s : State) : Word :=
  if s.fab.addressed then wd (ownAddr s).toNat else wd (2 ^ 31 + (ownZone s).toNat * 2 ^ 12)

/-! The event queue (R20). -/

/-- An event offered to the event queue; with 1,024 entries held it is lost and counted. -/
def emit (kind cause : BitVec 8) (sev : BitVec 2) (source : Word) (data : List Word) (s : State) : State :=
  if s.rcd.queue.length ≥ 1024 then
    { s with rcd := { s.rcd with lostSince := s.rcd.lostSince + 1 } } |> bump aEVQ_LOST |> latch aLOG_EVENT 2
  else
    let e : Event := ⟨kind, cause, sev, source, s.fab.synced, fabUs s, data, s.clock⟩
    { s with rcd := { s.rcd with queue := s.rcd.queue ++ [e] } }

/-- A block record (Table 16.2): the latched event register after the latch, then the values the rule names. -/
def blockRec (sev : BitVec 2) (base rsqAddr : Nat) (vals : List Word) (s : State) : State :=
  emit 0x10 (blockOf base) sev (wd base) (rsqAfter s rsqAddr :: vals) s

/-! Modular order of 16-bit numbers (R287). -/

def modDiff (q h : BitVec 16) : Int := if (q - h).toNat < 32768 then ((q - h).toNat : Int) else ((q - h).toNat : Int) - 65536

def modMax (a b : BitVec 16) : BitVec 16 := if modDiff a b > 0 then a else b

/-! The value table (R18, R156, R195) and its quality codes (Table 6.7). -/

def qGOOD : BitVec 8 := 0x00
def qSUBSTITUTED : BitVec 8 := 0x01
def qSETTLING : BitVec 8 := 0x02
def qHELD : BitVec 8 := 0x03
def qBAD_RANGE : BitVec 8 := 0x40
def qBAD_BREAK : BitVec 8 := 0x41
def qBAD_EXC : BitVec 8 := 0x42
def qOUT_OF_SERVICE : BitVec 8 := 0x80

/-- The reset value of an entry (Table 1.4). -/
def valReset : ValEntry := { seq := 0, quality := 0x80, value := 0 }

def valGet (s : State) (e : Nat) : ValEntry := tabGet valReset s.vals e

/-- The stored sample instant of an entry. -/
def instGet (s : State) (e : Nat) : BitVec 64 := tabGet 0 s.alm.instants e

/-- The function whose results an entry carries: a channel, an input or an output (R18). -/
def entryOwner (e : Nat) : Nat :=
  if e < 64 then 0x040000 + e * 0x100 else if e < 96 then 0x060000 + (e - 64) * 0x20
  else if e < 112 then 0x060400 + (e - 96) * 0x40 else 0

/-- An undefined case has touched the function with this base address since start (R57). -/
def poisoned (s : State) (base : Nat) : Bool := s.unspec.contains base

/-- A quality and a value as a function gives them: as formed, or unspecified after an undefined case (R57). -/
def result (e : Nat) (q : BitVec 8) (v : F32) (s : State) : BitVec 8 × F32 × State :=
  if poisoned s (entryOwner e) then
    ((Config.freeWord s.fresh).setWidth 8, Config.freeWord (s.fresh + 1), { s with fresh := s.fresh + 2 })
  else (q, v, s)

/-- A published sample of a channel counts in its trend period (R316). -/
def noteTrend (e : Nat) (q : BitVec 8) (v : F32) (s : State) : State :=
  if e < 64 then
    { s with plc := { s.plc with acc := tabMod {} s.plc.acc e (fun a =>
        if q = qGOOD || q = qSUBSTITUTED then { a with vals := a.vals ++ [v] } else { a with bad := some q }) } }
  else s

/-- A write at an instant: SAMPLE_SEQ moves on, and the instant is stored. -/
def writeSample (e : Nat) (q : BitVec 8) (v : F32) (inst : BitVec 64) (s : State) : State :=
  let (q, v, s) := result e q v s
  let s := noteTrend e q v s
  { s with vals := tabSet valReset s.vals e ⟨(valGet s e).seq + 1, q, v⟩,
           alm := { s.alm with instants := tabSet 0 s.alm.instants e inst } }

/-- A quality-only write (R156): SAMPLE_SEQ stays, and the time of the write is stored. -/
def writeQuality (e : Nat) (q : BitVec 8) (v : F32) (s : State) : State :=
  let (q, v, s) := result e q v s
  { s with vals := tabSet valReset s.vals e ⟨(valGet s e).seq, q, v⟩,
           alm := { s.alm with instants := tabSet 0 s.alm.instants e (fabUs s) } }

/-- A write of an RWL field (R48): refused, counted and latched while LK is 1. -/
def lockGuard (f : State → State) (s : State) : State :=
  if s.sys.lock then s |> bump aSYS_LOCK_REFUSED |> latch aSYS_EVENT 2 else f s

/-- A meaning's answer: the next state. -/
def done (s : State) : Out := .next s

end Sys2Proof.Machine
end

