-- ==== Sys2Proof/Machine/FabricOps.lean ====
section
/-! DEFINITION. Machine/FabricOps.lean: frames on the fabric: kinds, queues, routes, sending, and the checks of a received frame. -/
namespace Sys2Proof.Machine

/-! The running image's formats (Table 17.4, R425). -/

def bankOf (s : State) (b : Bool) : Bank := if b then s.store.bankB else s.store.bankA

/-- A half-word of block 0 of an image. -/
def imageField (b : Bank) (off n : Nat) : Nat := leNat (((tabGet [] b.blocks 0).drop off).take n)

/-- CKPT_FMT and CKPT_FMT_PREV; those of the delivered image, which the spec does not give, are 1 and 0. -/
def imageFmt (b : Bank) : BitVec 16 × BitVec 16 :=
  if b.factory then (1, 0) else (BitVec.ofNat 16 (imageField b 0xC 2), BitVec.ofNat 16 (imageField b 0xE 2))

def runFmt (s : State) : BitVec 16 × BitVec 16 := imageFmt (bankOf s s.upd.bank)

/-- A format that the running image reads. -/
def fmtKnown (s : State) (f : BitVec 16) : Bool := f = (runFmt s).1 || f = (runFmt s).2

/-! Frame kinds (Table 11.2). -/

/-- How a kind uses STREAM: unsequenced, one stream, the item stream of its kind, or either. -/
inductive StreamRule where
  | none | fixed (n : Nat) | item | fixedOrItem (n : Nat)
  deriving DecidableEq, Repr

/-- How a kind is addressed. -/
inductive DestRule where
  | linkLocal | flood | unicast | floodOrUnicast | unicastOrLocal
  deriving DecidableEq, Repr

/-- One row of Table 11.2: plane, class, stream and destination. -/
structure KindRow where
  plane : BitVec 2
  cls : BitVec 2
  stream : StreamRule
  dest : DestRule
  deriving DecidableEq, Repr

def kindRow (k : Nat) : Option KindRow :=
  match k with
  | 0x01 => some ⟨0, 1, .none, .linkLocal⟩
  | 0x02 => some ⟨0, 1, .none, .flood⟩
  | 0x03 => some ⟨0, 1, .none, .linkLocal⟩
  | 0x04 => some ⟨0, 1, .none, .flood⟩
  | 0x05 => some ⟨0, 1, .none, .flood⟩
  | 0x06 => some ⟨0, 0, .none, .floodOrUnicast⟩
  | 0x07 => some ⟨0, 1, .none, .linkLocal⟩
  | 0x08 => some ⟨0, 1, .fixed 1, .flood⟩
  | 0x09 => some ⟨0, 1, .fixed 1, .flood⟩
  | 0x0A => some ⟨0, 0, .none, .linkLocal⟩
  | 0x10 => some ⟨0, 0, .fixed 3, .unicast⟩
  | 0x11 => some ⟨0, 0, .item, .unicast⟩
  | 0x12 => some ⟨0, 1, .fixed 4, .unicast⟩
  | 0x13 => some ⟨0, 1, .item, .unicast⟩
  | 0x14 => some ⟨0, 0, .fixedOrItem 5, .unicast⟩
  | 0x15 => some ⟨0, 0, .fixed 6, .unicast⟩
  | 0x16 => some ⟨0, 0, .item, .unicast⟩
  | 0x17 => some ⟨0, 0, .fixed 7, .unicast⟩
  | 0x18 => some ⟨0, 1, .item, .unicast⟩
  | 0x19 => some ⟨0, 1, .fixedOrItem 8, .unicast⟩
  | 0x1A => some ⟨0, 1, .item, .unicast⟩
  | 0x1B => some ⟨0, 1, .none, .floodOrUnicast⟩
  | 0x1C => some ⟨0, 1, .none, .unicast⟩
  | 0x1D => some ⟨0, 1, .none, .unicast⟩
  | 0x1E => some ⟨0, 0, .none, .unicastOrLocal⟩
  | 0x1F => some ⟨0, 1, .none, .linkLocal⟩
  | 0x20 => some ⟨1, 0, .fixed 2, .unicast⟩
  | 0x21 => some ⟨1, 0, .none, .unicast⟩
  | 0x22 => some ⟨1, 0, .item, .unicast⟩
  | 0x30 => some ⟨2, 0, .fixed 9, .unicast⟩
  | 0x31 => some ⟨2, 0, .fixed 9, .unicast⟩
  | _ => none

/-- STREAM of an item's frames of one kind (R314). -/
def itemStream (kind : Nat) : BitVec 12 := BitVec.ofNat 12 (0x800 + kind)

def streamOk (r : StreamRule) (kind : Nat) (st : BitVec 12) : Bool :=
  match r with
  | .none => st = 0
  | .fixed n => st.toNat = n
  | .item => st = itemStream kind
  | .fixedOrItem n => st.toNat = n || st = itemStream kind

/-- Group 0xFFE, link-local. -/
def isLocal (h : FabHdr) : Bool := h.group && memberOf h.dst = 0xFFE

/-- Group 0xFFF, zone flood. -/
def isFlood (h : FabHdr) : Bool := h.group && memberOf h.dst = 0xFFF

def destOk (r : DestRule) (h : FabHdr) : Bool :=
  match r with
  | .linkLocal => isLocal h
  | .flood => isFlood h
  | .unicast => !h.group
  | .floodOrUnicast => isFlood h || !h.group
  | .unicastOrLocal => isLocal h || !h.group

/-- The header agrees with its row of Table 11.2 (R261); an unsequenced frame has SEQ 0 (Table 11.1). -/
def hdrOk (h : FabHdr) : Bool :=
  match kindRow h.kind.toNat with
  | none => false
  | some r => h.plane = r.plane && h.cls = r.cls && streamOk r.stream h.kind.toNat h.stream && destOk r.dest h &&
      (h.stream ≠ 0 || h.seq = 0)

def bodyKind (b : Body) : Nat :=
  match b with
  | .hello _ => 0x01 | .lsa _ => 0x02 | .sync _ => 0x03 | .claim _ => 0x04 | .defend _ => 0x05 | .timeMark _ => 0x06
  | .zoneUpdate _ => 0x07 | .zoneSummary _ => 0x08 | .nodeState _ => 0x09 | .drydownNotice _ _ => 0x0A
  | .alarmEvent _ _ => 0x10 | .accordEvent _ _ => 0x11 | .memberReport _ => 0x12 | .mean _ _ => 0x13
  | .alarmCommand _ _ _ => 0x14 | .keyRelay _ _ => 0x15 | .callCommand _ _ => 0x16 | .deliveryReport _ => 0x17
  | .outputCommand _ _ => 0x18 | .itemState _ => 0x19 | .pageContent _ => 0x1A | .catalogue _ => 0x1B
  | .catalogueRelay _ => 0x1C | .catalogueRequest _ => 0x1D | .pair _ _ => 0x1E | .checkpoint _ => 0x1F
  | .eventMirror _ _ => 0x1F | .tickMirror _ => 0x1F | .publication _ => 0x20 | .subscribe _ => 0x21 | .trend _ => 0x22
  | .mgmtRequest _ _ => 0x30 | .mgmtReply _ => 0x31 | .zoneOffset _ => 0x06

/-- Payload bytes before padding. -/
def payloadLen (b : Body) : Nat :=
  match b with
  | .hello _ => 36
  | .lsa l => 4 + 40 * l.length
  | .sync (.sequences _ l) => 4 + 12 * l.length
  | .sync (.request l) => 4 + 8 * l.length
  | .claim _ => 12
  | .defend _ => 12
  | .timeMark _ => 20
  | .zoneUpdate l => 4 + (l.map (fun p => 2 + p.path.length)).sum
  | .zoneSummary _ => 132
  | .nodeState _ => 32
  | .drydownNotice _ _ => 8
  | .alarmEvent _ l => 8 + 32 * l.length
  | .accordEvent _ l => 8 + 32 * l.length
  | .memberReport m => 12 + 14 * m.entries.length
  | .mean _ _ => 16
  | .alarmCommand _ _ _ => 16
  | .keyRelay _ _ => 16
  | .callCommand _ _ => 44
  | .deliveryReport _ => 24
  | .outputCommand _ _ => 8
  | .itemState (.state _ _ _ _ _ st) => 92 + 4 * st.panels.length + 6 * st.sources.length
  | .itemState (.duty _ _ r) => 24 + 12 * r.lamps.length
  | .itemState (.render _ _ _ _ _ l) => 12 + 14 * l.length
  | .pageContent m => 12 + 32 * m.lines.length
  | .catalogue c => 16 + 12 * c.entries.length
  | .catalogueRelay c => 16 + 12 * c.entries.length
  | .catalogueRequest _ => 4
  | .pair _ _ => 32
  | .checkpoint _ => 222
  | .eventMirror _ _ => 36
  | .tickMirror _ => 222
  | .publication l => 4 + 16 * l.length
  | .subscribe _ => 14
  | .trend _ => 336
  | .mgmtRequest _ (.write _ l) => 20 + 4 * l.length
  | .mgmtRequest _ _ => 24
  | .mgmtReply m => 12 + m.body.length
  | .zoneOffset _ => 8

/-- Length from destination address to FCS, padded to the 64-byte minimum (R258). -/
def frameLen (b : Body) : Nat := max 64 (34 + payloadLen b)

/-! Links. -/

def linkGet (s : State) (k : Link) : LinkSt := s.fab.links[k]

def linkMod (k : Link) (f : LinkSt → LinkSt) (s : State) : State :=
  { s with fab := { s.fab with links := s.fab.links.set k (f s.fab.links[k]) } }

/-- The links F1 to F6. -/
def fLinks : List Link := [0, 1, 2, 3, 4, 5]

def linkP : Link := 6

/-- An intra-zone link (R263): two-way, and the neighbour is of this node's zone. -/
def isIntra (s : State) (k : Link) : Bool :=
  let l := linkGet s k
  k.val < 6 && l.twoWay && match l.neigh with | some n => zoneOf n.addr = ownZone s | none => false

/-- A border link (R263): two-way, another zone, BORDER on both ends. -/
def isBorder (s : State) (k : Link) : Bool :=
  let l := linkGet s k
  k.val < 6 && l.twoWay && match l.neigh with | some n => zoneOf n.addr ≠ ownZone s && n.border && s.cfg.border | none => false

/-- A held link (R263): two-way to another zone without being a border link. -/
def isMismatch (s : State) (k : Link) : Bool := (linkGet s k).twoWay && !isIntra s k && !isBorder s k && k.val < 6

/-- FAB_STATUS.LIVE (Table 11.12). -/
def fabLive (s : State) : Bool := s.fab.addressed && fLinks.any (fun k => isIntra s k || isBorder s k)

/-! Queues (R278). -/

def planeDrop (plane : BitVec 2) (k : Link) : Nat :=
  if plane = 0 then aLINK k 0x1C else if plane = 1 then aLINK k 0x20 else aLINK k 0x24

/-- Offer a frame to a link's transmit queue; a full queue discards and counts it by plane. On P at most 32 pair frames wait (R335). -/
def enqueue (k : Link) (f : Frame) (fwd : Bool) (s : State) : State :=
  let l := linkGet s k
  let q : QFrame := ⟨f, s.clock, fwd⟩
  if f.hdr.plane = 0 ∧ f.hdr.cls = 0 then
    if l.urgent.length ≥ 16 then bump (planeDrop 0 k) s else linkMod k (fun l => { l with urgent := l.urgent ++ [q] }) s
  else if f.hdr.plane = 0 then
    if l.routine.length ≥ 64 ∨ (k = linkP ∧ l.routine.length + l.urgent.length ≥ 32) then bump (planeDrop 0 k) s
    else linkMod k (fun l => { l with routine := l.routine ++ [q] }) s
  else if f.hdr.plane = 1 then
    if l.data.length ≥ 32 then bump (planeDrop 1 k) s else linkMod k (fun l => { l with data := l.data ++ [q] }) s
  else if l.mgmt.length ≥ 16 then bump (planeDrop 2 k) s
  else
    linkMod k (fun l => { l with mgmt := l.mgmt ++ [q],
                                 creditAt := if l.mgmt.isEmpty then s.clock else l.creditAt }) s

/-! Sequence numbers (R286, R314, R337). -/

/-- Whether this unit numbers its frames under the pair address (R337). -/
def pairNumbers (s : State) : Bool := s.cfg.guarded.rolePref ≠ 0 && (s.pair.ownHeld || s.pair.doubleSend)

/-- The next SEQ of one of the node's own streams. -/
def nextSeq (st : BitVec 12) (s : State) : BitVec 16 × State :=
  if st = 0 then (0, s)
  else
    let prev := tabLook s.fab.streamSeq st.toNat
    let q : BitVec 16 :=
      match prev with
      | none => if pairNumbers s then s.alm.cycle.setWidth 16 else 1
      | some p => if pairNumbers s then modMax (s.alm.cycle.setWidth 16) (p + 1) else p + 1
    (q, { s with fab := { s.fab with streamSeq := tabPut s.fab.streamSeq st.toNat q } })

def itemGet (s : State) (i : Word) : ItemSt := tabGet {} s.plc.items i.toNat

/-- The next SEQ of an item's stream of one kind (R314): the larger of the fabric-time tick and the previous plus 1. -/
def nextItemSeq (item : Word) (kind : Nat) (s : State) : BitVec 16 × State :=
  let it := itemGet s item
  let tick := if pairNumbers s then modMax (fabTick s) (s.alm.cycle.setWidth 16) else fabTick s
  let q := match tabLook it.seq kind with
    | none => tick
    | some p => modMax tick (p + 1)
  (q, { s with plc := { s.plc with items := tabPut s.plc.items item.toNat { it with seq := tabPut it.seq kind q } } })

/-- The pair address as the Flacon and the save store give it (R322): MEMBER_PREF, or the number saved for the pair. -/
def pairNumber (s : State) : BitVec 12 :=
  if s.cfg.memberPref ≠ 0xFFFF then s.cfg.memberPref.setWidth 12
  else match s.store.savedNum with | some (_, n) => n | none => 0

/-- The pair address (R322): the own address of the holder of OWN and of a single unit; for the other unit the partner's, where its
latest frame shows that it holds OWN. -/
def pairAddr (s : State) : Addr :=
  if s.cfg.guarded.rolePref = 0 || s.pair.ownHeld then ownAddr s
  else match s.pair.peer with
    | some m => if m.health.getLsbD 26 then m.addr else mkAddr (ownZone s) (pairNumber s)
    | none => mkAddr (ownZone s) (pairNumber s)

/-! Headers. -/

def mkHdr (s : State) (b : Body) (group : Bool) (dst : Addr) (stream : BitVec 12) (seq : BitVec 16) : FabHdr :=
  let k := bodyKind b
  let r := (kindRow k).getD ⟨0, 0, .none, .unicast⟩
  { ver := 1, plane := r.plane, cls := r.cls, hops := 0,
    src := if s.pair.doubleSend && (k = 0x10 || k = 0x12) then pairAddr s
      else if s.fab.addressed then ownAddr s else mkAddr (ownZone s) 0,
    group := group, unaddr := !s.fab.addressed, stream := stream, dst := dst, seq := seq,
    length := BitVec.ofNat 10 (payloadLen b), kind := BitVec.ofNat 6 k,
    time := if k = 0x06 then 0 else (fabUs s).setWidth 32 }

/-- Send a link-local frame on one link. Every frame sent uses the zone, a triplicated field (R50). -/
def sendLocal (k : Link) (b : Body) (s : State) : State :=
  let s := useZone s
  enqueue k ⟨mkHdr s b true (mkAddr (ownZone s) 0xFFE) 0 0, b⟩ false s

/-- Send a zone flood: on every intra-zone link but the one given. -/
def floodOut (but : Option Link) (f : Frame) (fwd : Bool) (s : State) : State :=
  eachS (fLinks.filter (fun k => isIntra s k && some k ≠ but)) (fun k t => enqueue k f fwd t) s

/-- Originate a zone flood on a stream. -/
def sendFlood (b : Body) (stream : BitVec 12) (s : State) : State :=
  let (q, s1) := nextSeq stream (useZone s)
  floodOut none ⟨mkHdr s1 b true (mkAddr (ownZone s1) 0xFFF) stream q, b⟩ false s1

/-! Routes (R272, R277). -/

/-- The exit border node toward another zone: the shortest path, then the lowest address (R277). -/
def bestExit (l : List ZExit) (z : BitVec 6) : Option ZExit :=
  (l.filter (fun e => e.zone = z)).foldl
    (fun best e => match best with
      | none => some e
      | some b => if e.pathLen < b.pathLen ∨ (e.pathLen = b.pathLen ∧ e.border.toNat < b.border.toNat) then some e else best) none

/-- The exits in use: the node's own while it holds a path to the zone, another border node's while a route reaches it (R273, R277). -/
def exitsNow (s : State) : List ZExit :=
  s.fab.zexits.filter (fun e =>
    if e.border = ownAddr s then s.fab.zpaths.any (fun p => p.zone = e.zone) else (tabLook s.fab.fwd (memberOf e.border).toNat).isSome)

/-- The better of two paths to a zone (R276): fewest zones, then the lower neighbouring zone, then the lower border neighbour. -/
def zpathBetter (a b : ZPath) : Bool :=
  a.path.length < b.path.length ||
    (a.path.length = b.path.length &&
      ((zoneOf a.neigh).toNat < (zoneOf b.neigh).toNat ||
        ((zoneOf a.neigh) = (zoneOf b.neigh) && a.neigh.toNat < b.neigh.toNat)))

def bestZPath (l : List ZPath) (z : BitVec 6) : Option ZPath :=
  (l.filter (fun p => p.zone = z)).foldl
    (fun best p => match best with | none => some p | some b => if zpathBetter p b then some p else best) none

/-- The border link to a border neighbour. -/
def linkTo (s : State) (a : Addr) : Option Link :=
  fLinks.find? (fun k => isBorder s k && match (linkGet s k).neigh with | some n => n.addr = a | none => false)

/-- The link a unicast frame leaves on: by the forwarding table in the own zone; for another zone toward its exit, and over the
border link of the best path at the exit. -/
def routeTo (s : State) (dst : Addr) : Option Link :=
  if !s.fab.addressed then none
  else if zoneOf dst = ownZone s then tabLook s.fab.fwd (memberOf dst).toNat
  else match bestExit (exitsNow s) (zoneOf dst) with
    | none => none
    | some e =>
      if e.border = ownAddr s then
        match bestZPath s.fab.zpaths (zoneOf dst) with
        | none => none
        | some p => linkTo s p.neigh
      else tabLook s.fab.fwd (memberOf e.border).toNat

/-- Nodes of the own-zone view: of an unaddressed node, only itself, which has no address to list (R265). -/
def ownCount (s : State) : Nat :=
  if s.fab.addressed then (s.fab.view.filter (fun a => zoneOf a = ownZone s)).length else if s.fab.up then 1 else 0

/-- Whether an address lies in the membership view (R273). -/
def inView (s : State) (a : Addr) : Bool := s.fab.view.contains a

/-! Delivery to itself. -/

/-- The command that a frame delivered here is. -/
def deliver (rx : Rx) (b : Body) : Option Instr :=
  match b with
  | .hello m => some (.hello rx m)
  | .lsa l => some (.lsa rx l)
  | .sync m => some (.sync rx m)
  | .claim m => some (.claim rx m)
  | .defend m => some (.defend rx m)
  | .timeMark m => some (.timeMark rx m)
  | .zoneUpdate l => some (.zoneUpdate rx l)
  | .zoneSummary m => some (.zoneSummary rx m)
  | .nodeState m => some (.nodeState rx m)
  | .drydownNotice a w => some (.drydownNotice rx a w)
  | .alarmEvent i l => some (.alarmEvent rx i l)
  | .accordEvent i l => some (.accordEvent rx i l)
  | .memberReport m => some (.memberReport rx m)
  | .mean i m => some (.mean rx i m)
  | .alarmCommand i t o => some (.alarmCommand rx i t o)
  | .keyRelay p k => some (.keyRelay rx p k)
  | .callCommand i c => some (.callCommand rx i c)
  | .deliveryReport d => some (.deliveryReport rx d)
  | .outputCommand i c => some (.outputCommand rx i c)
  | .itemState (.render i st c p n l) => some (.rendererCallState rx i st c p n l)
  | .itemState m => some (.itemState rx m)
  | .pageContent m => some (.pageContent rx m)
  | .catalogue c => some (.catalogue rx c)
  | .catalogueRelay c => some (.catalogueRelay rx c)
  | .catalogueRequest v => some (.catalogueRequest rx v)
  | .pair .beat m => some (.beat rx m)
  | .pair .probe m => some (.probe rx m)
  | .pair .probeReply m => some (.probeReply rx m)
  | .pair .handoverReq m => some (.handoverReq rx m)
  | .pair .grant m => some (.grant rx m)
  | .pair .released m => some (.released rx m)
  | .checkpoint c => some (.checkpoint rx c true true)
  | .eventMirror f e => some (.eventMirror rx f e)
  | .tickMirror m => some (.tickMirror rx m)
  | .publication l => some (.publication rx l)
  | .subscribe m => some (.subscribe rx m)
  | .trend m => some (.trend rx m)
  | .mgmtRequest g o => some (.mgmtRequest rx g o)
  | .mgmtReply m => some (.mgmtReply rx m)
  | .zoneOffset o => some (.meanOffsetReport rx o)

/-- A frame the node addresses to itself is delivered through its own queue. -/
def toSelf (h : FabHdr) (b : Body) (s : State) : State :=
  match deliver ⟨none, true, true, frameLen b, h, false⟩ b with
  | some i => { s with selfQ := s.selfQ ++ [i] }
  | none => s

/-- Send a unicast frame with a given stream and SEQ. -/
def sendTo (dst : Addr) (stream : BitVec 12) (seq : BitVec 16) (b : Body) (s : State) : State :=
  if !s.fab.addressed then s
  else
    let s := useZone s
    let f : Frame := ⟨mkHdr s b false dst stream seq, b⟩
    if dst = ownAddr s then toSelf f.hdr b s
    else match routeTo s dst with
      | some k => enqueue k f false s
      | none => bump aFAB_NOROUTE_DROP s

/-- The partner's address (R326): from the beats on P; while P is lost, the node of the same CONFIG_ID whose LSA gives the same
MEMBER_PREF. -/
def peerDst (s : State) : Option Addr :=
  if s.pair.pathP.up && s.pair.peerAddr.isSome then s.pair.peerAddr
  else
    let same := s.plc.facts.find? (fun f => f.configId = s.cfg.id && f.addr ≠ ownAddr s &&
      s.fab.lsas.any (fun e => !e.tomb && e.lsa.addr = f.addr && e.lsa.pref = s.cfg.memberPref))
    match same with | some f => some f.addr | none => s.pair.peerAddr

/-- Send a unicast frame on one of the node's own streams. -/
def sendUni (dst : Addr) (stream : BitVec 12) (b : Body) (s : State) : State :=
  if !s.fab.addressed then s else let (q, s1) := nextSeq stream s; sendTo dst stream q b s1

/-- Send one frame of an item to a list of nodes under one SEQ each, on the item's stream (R314). -/
def sendItem (item : Word) (dsts : List Addr) (b : Body) (s : State) : State :=
  if !s.fab.addressed then s
  else
    eachS dsts (fun d t => let (q, t1) := nextItemSeq item (bodyKind b) t; sendTo d (itemStream (bodyKind b)) q b t1) s

/-! Duplicate windows (R286 to R288). -/

/-- The key of a frame's window: its item for an item stream, its source otherwise. -/
def winKey (h : FabHdr) (b : Body) : Word :=
  if h.stream.toNat ≥ 0x800 then
    match b with
    | .accordEvent i _ | .mean i _ | .alarmCommand i _ _ | .callCommand i _ | .outputCommand i _ => i
    | .itemState (.state i _ _ _ _ _) => i
    | .itemState (.render i _ _ _ _ _) => i
    | .itemState (.duty r _ _) => r
    | .pageContent m => m.item
    | .trend m => m.item
    | _ => wd h.src.toNat
  else wd h.src.toNat

/-- The least recently updated of the windows. -/
def oldestWin (l : List Window) : Option Window :=
  l.foldl (fun o w => match o with | none => some w | some v => if w.at_ < v.at_ then some w else o) none

/-- The rule of R287 on one frame: whether it is delivered, and the windows after. -/
def dupCheck (key : Word) (st : BitVec 12) (q : BitVec 16) (s : State) : Bool × State :=
  if st = 0 then (true, s)
  else
    let ws := s.fab.windows
    let same := fun (w : Window) => w.key = key && w.stream = st
    match ws.find? same with
    | none =>
      let (ws1, s1) :=
        if ws.length ≥ 2048 then
          match oldestWin ws with
          | some v => (ws.filter (fun w => !(w.key = v.key && w.stream = v.stream)), s |> bump aFAB_DUP_EVICT |> latch aFAB_EVENT 5)
          | none => (ws, s)
        else (ws, s)
      (true, { s1 with fab := { s1.fab with windows := ⟨key, st, q, 1, s.clock⟩ :: ws1 } })
    | some w =>
      let d := modDiff q w.high
      let put := fun (w' : Window) (t : State) =>
        { t with fab := { t.fab with windows := ws.map (fun x => if same x then w' else x) } }
      if d > 0 then (true, put { w with high := q, mask := (w.mask <<< d.toNat) ||| 1, at_ := s.clock } s)
      else if d > -64 then
        let b := (-d).toNat
        if w.mask.getLsbD b then (false, put { w with at_ := s.clock } (bump aFAB_DUP_DROP s))
        else (true, put { w with mask := w.mask ||| (1 <<< b), at_ := s.clock } s)
      else (false, put { w with at_ := s.clock } (bump aFAB_OLD_DROP s))

/-! Receiving. -/

/-- A mark is flooded by reverse path or sent over a border link, never to one node; the report of an offset is unicast (log 73). -/
def markOk (h : FabHdr) (b : Body) : Bool := match b with | .timeMark _ => h.group | .zoneOffset _ => !h.group | _ => true

/-- The checks of R258 and R261 on a frame that came in on a link; a failure is counted there. -/
def rxCheck (k : Link) (rx : Rx) (b : Body) (s : State) : Bool × State :=
  if !rx.fcsOk then (false, bump (aLINK k 0x18) s)
  else
    let s := bump (aLINK k 0x14) s
    let h := rx.hdr
    let lim := if h.plane = 0 then 256 else 1024
    if !rx.etherOk || h.ver ≠ 1 || !hdrOk h || !markOk h b || 34 + h.length.toNat > rx.size || rx.size > lim then (false, bump aFAB_BAD_HDR s)
    else (true, s)

/-- Forward a unicast frame for another node (R260, R272). -/
def forwardUni (h : FabHdr) (b : Body) (s : State) : State :=
  if !s.fab.addressed then s
  else if h.hops = 63 then bump aFAB_HOP_DROP s
  else match routeTo s h.dst with
    | some k => enqueue k ⟨{ h with hops := h.hops + 1 }, b⟩ true s
    | none => bump aFAB_NOROUTE_DROP s

/-- Forward a flood on every intra-zone link but the one it came in on (R272). -/
def forwardFlood (k : Link) (h : FabHdr) (b : Body) (s : State) : State :=
  if h.hops = 63 then bump aFAB_HOP_DROP s else floodOut (some k) ⟨{ h with hops := h.hops + 1 }, b⟩ true s

/-- A flood is accepted only on the link of the next hop toward its source (R272). -/
def reversePath (k : Link) (src : Addr) (s : State) : Bool :=
  s.fab.addressed && src ≠ ownAddr s && tabLook s.fab.fwd (memberOf src).toNat = some k && zoneOf src = ownZone s

/-- Whether a unicast frame is for this node. -/
def forUs (h : FabHdr) (s : State) : Bool := s.fab.addressed && h.dst = ownAddr s

/-- The node's links run from end of start on (R292), P from the SELFTEST of a pair member (R326). -/
def linksUp (s : State) (k : Link) : Bool := s.fab.up || (k = linkP && s.sys.phase = .live)

/-- A link takes part: its port is enabled, the node's links run, and its PHY is up (R92, R99, R292). -/
def linkOn (s : State) (k : Link) : Bool := linksUp s k && (linkGet s k).enabled && (linkGet s k).phyUp

/-- The queue of Table 11.7 that a frame belongs to, and how many frames it holds. -/
def queueOf (h : FabHdr) : TxQueue :=
  if h.plane = 0 then (if h.cls = 0 then .urgent else .routine) else if h.plane = 1 then .data else .mgmt

def queueRoom (q : TxQueue) : Nat := match q with | .urgent => 16 | .routine => 64 | .mgmt => 16 | .data => 32

/-- One transmit queue of a link. -/
def txQueue (l : LinkSt) (q : TxQueue) : List QFrame :=
  match q with | .urgent => l.urgent | .routine => l.routine | .mgmt => l.mgmt | .data => l.data

/-- The link with one transmit queue changed; the credit of an empty management queue is 0 (R279). -/
def setTxQueue (q : TxQueue) (x : List QFrame) (l : LinkSt) : LinkSt :=
  match q with
  | .urgent => { l with urgent := x } | .routine => { l with routine := x }
  | .mgmt => { l with mgmt := x, credit := if x.isEmpty then 0 else l.credit }
  | .data => { l with data := x }

/-- One receive queue of a link. -/
def rxQueue (l : LinkSt) (q : TxQueue) : List RxFrame :=
  match q with | .urgent => l.rxUrgent | .routine => l.rxRoutine | .mgmt => l.rxMgmt | .data => l.rxData

def setRxQueue (q : TxQueue) (x : List RxFrame) (l : LinkSt) : LinkSt :=
  match q with
  | .urgent => { l with rxUrgent := x } | .routine => { l with rxRoutine := x }
  | .mgmt => { l with rxMgmt := x } | .data => { l with rxData := x }

/-- A frame joins its receive queue; a full queue discards and counts it by plane (R14, R278). -/
def holdRx (k : Link) (h : FabHdr) (cmd : Instr) (s : State) : State :=
  let q := queueOf h
  let l := rxQueue (linkGet s k) q
  if l.length ≥ queueRoom q then bump (planeDrop h.plane k) s else linkMod k (setRxQueue q (l ++ [⟨cmd, s.clock⟩])) s

/-- The next frame to take from the receive queues: by the order of Table 11.7, then the lower link (log 131). -/
def rxNext (s : State) : Option (RxFrame × State) :=
  ([TxQueue.urgent, .routine, .mgmt, .data].flatMap (fun q => (List.finRange 7).map (fun k => (q, k)))).findSome? (fun x =>
    match rxQueue (linkGet s x.2) x.1 with
    | f :: r => some (f, linkMod x.2 (setRxQueue x.1 r) s)
    | [] => none)

/-- What a node does with a frame it has taken: forward it where it is for others, and say whether this node acts on it. Kinds with a
flooding rule of their own (LSA, CLAIM, DEFEND, TIME_MARK) are not forwarded here. No flood but a TIME_MARK crosses a zone border
(R275). -/
def accept (k : Link) (rx : Rx) (b : Body) (s : State) : Bool × State :=
  let h := rx.hdr
  if k = linkP then (h.kind = 0x1E || h.kind = 0x1F || h.kind = 0x0A, s)
  else if isMismatch s k && h.kind ≠ 0x01 then (false, s)
  else if isLocal h then (true, s)
  else if isFlood h then
    if isBorder s k && h.kind ≠ 0x06 then (false, s)
    else if h.kind = 0x02 || h.kind = 0x04 || h.kind = 0x05 || h.kind = 0x06 then (true, s)
    else if !reversePath k h.src s then (false, s)
    else
      let s := forwardFlood k h b s
      dupCheck (winKey h b) h.stream h.seq s
  else if forUs h s then dupCheck (winKey h b) h.stream h.seq s
  else (false, forwardUni h b s)

/-- Receive a frame that is the command given: check it (R258, R261), queue it while its plane has not taken it or an earlier frame
waits there, or act on it. A frame the node sends itself is checked for duplicates as it is delivered (R286). -/
def receiveAs (cmd : Option Instr) (rx : Rx) (b : Body) (s : State) : Bool × State :=
  match rx.link with
  | none => dupCheck (winKey rx.hdr b) rx.hdr.stream rx.hdr.seq s
  | some k =>
    if s.taking.isSome then accept k rx b (useZone s)
    else if !linkOn s k then (false, s)
    else
      let (ok, s) := rxCheck k rx b s
      if !ok then (false, s)
      else
        match cmd, rx.waits || !(rxQueue (linkGet s k) (queueOf rx.hdr)).isEmpty with
        | some c, true => (false, holdRx k rx.hdr c s)
        | _, _ => accept k rx b (useZone s)

/-- Receive a frame whose command is the one that its body names. -/
def receive (rx : Rx) (b : Body) (s : State) : Bool × State := receiveAs (deliver rx b) rx b s

/-- How long ago the frame that is being taken came in. -/
def rxAge (s : State) : Nat := s.taking.getD 0

end Sys2Proof.Machine
end

