-- ==== Sys2Proof/Machine/PlaceOps.lean ====
section
/-! DEFINITION. Machine/PlaceOps.lean: placed items, candidates, scores and roles (R295 to R309). -/
namespace Sys2Proof.Machine

/-! Items (R295). -/

def itemKind (i : Word) : Nat := fld i 28 4
def accordItem (id : BitVec 16) : Word := wd (0x10000000 + id.toNat)
def rosterItem (r : Word) : Word := wd (0x20000000 + r.toNat % 2 ^ 28)
def pageItem (z : BitVec 6) (set : BitVec 16) : Word := wd (0x30000000 + z.toNat * 2 ^ 16 + set.toNat)
def trendItem (a : Addr) : Word := wd (0x40000000 + a.toNat)

def accordRec (s : State) (id : BitVec 16) : Option AccordRec := s.cfg.accords.find? (fun r => r.id = id)
def rosterRec (s : State) (r : Word) : Option RosterRec := s.cfg.rosters.find? (fun x => x.id = r)

/-- Zone of a tag's node, and of a panel reference's. -/
def tagAddr (t : Word) : Addr := t.extractLsb' 12 18
def refAddr (r : Word) : Addr := r.extractLsb' 0 18

/-- The panel references of a roster record. -/
def rosterRefs (r : RosterRec) : List Word := r.pubs ++ r.bridges ++ r.engineers.map (fun e => e.cabin)

/-- The zone set of an item (Table 12.1). -/
def itemZones (s : State) (i : Word) : List (BitVec 6) :=
  match itemKind i with
  | 1 => match accordRec s (i.setWidth 16) with | some r => distinct (r.members.map (fun t => zoneOf (tagAddr t))) | none => []
  | 2 => match rosterRec s (wd (fld i 0 28)) with | some r => distinct ((rosterRefs r).map (fun x => zoneOf (refAddr x))) | none => []
  | 3 => [BitVec.ofNat 6 (fld i 16 6)]
  | 4 => [zoneOf (i.setWidth 18)]
  | _ => []

/-- Weight in slots (Table 12.1). -/
def itemWeight (s : State) (i : Word) : Nat :=
  match itemKind i with
  | 1 => match accordRec s (i.setWidth 16) with | some r => (r.members.length + 63) / 64 | none => 1
  | 2 => 4
  | 3 => 2
  | 4 => 32
  | _ => 0

/-- DEF_CRC of a carried item; 0 where none is compared. -/
def itemCrc (s : State) (i : Word) : Word :=
  match itemKind i with
  | 1 => match accordRec s (i.setWidth 16) with | some r => r.defCrc | none => 0
  | 2 => match rosterRec s (wd (fld i 0 28)) with | some r => r.defCrc | none => 0
  | _ => 0

/-- The items of kinds 1 to 3 that the node carries (R298). -/
def carriedItems (s : State) : List Word :=
  s.cfg.accords.map (fun r => accordItem r.id) ++ s.cfg.rosters.map (fun r => rosterItem r.id) ++
    (distinct (s.cfg.panels.map (fun p => p.set))).map (fun x => pageItem (ownZone s) x)

/-- The channel type of a channel's AFE_CFG, voted. -/
def chanType (s : State) (n : Nat) : Nat := fld (voted s (0x040000 + n * 0x100)) 0 8

/-- The node has a configured analogue channel (Table 12.3, TREND). -/
def hasAnalogue (s : State) : Bool := (List.range 64).any (fun n => chanType s n ≠ 0)

/-- A pair member is eligible only while ACTIVE (R333); a single unit always. -/
def pairAllows (s : State) : Bool := s.cfg.guarded.rolePref = 0 || s.pair.state = .active

/-- ELIGIBLE (R301). -/
def eligible (s : State) : Bool := s.fab.addressed && s.cfg.slots ≥ 1 && pairAllows s && s.plc.up

/-! The score (R303, R304). -/

/-- h of an item and an address under the placement key. -/
def scoreH (k0 k1 : BitVec 64) (item : Word) (a : Addr) : BitVec 64 :=
  sip8 k0 k1 (BitVec.ofNat 64 (item.toNat + 2 ^ 32 * a.toNat))

/-- Candidate a ranks above candidate b. -/
def ranksAbove (k0 k1 : BitVec 64) (item : Word) (a b : Candidate) : Bool :=
  let x := (scoreH k0 k1 item a.addr).toNat * b.slots.toNat
  let y := (scoreH k0 k1 item b.addr).toNat * a.slots.toNat
  x < y || (x = y && a.addr.toNat < b.addr.toNat)

/-- Insert a candidate by rank. -/
def rankInsert (k0 k1 : BitVec 64) (item : Word) (c : Candidate) (l : List Candidate) : List Candidate :=
  match l with
  | [] => [c]
  | x :: r => if ranksAbove k0 k1 item c x then c :: x :: r else x :: rankInsert k0 k1 item c r

/-- Candidates in rank order. -/
def rankSort (k0 k1 : BitVec 64) (item : Word) (l : List Candidate) : List Candidate :=
  l.foldl (fun acc c => rankInsert k0 k1 item c acc) []

/-! Catalogues and facts. -/

def ownRefused (s : State) : List Word := s.plc.items.filterMap (fun p => if p.2.refused then some (wd p.1) else none)

/-- The node's own catalogue (R298): with PLACE_SLOTS 0 it is empty. -/
def ownEntries (s : State) : List CatEntry :=
  if s.cfg.slots = 0 then []
  else
    let ref := ownRefused s
    (carriedItems s).map (fun i => ⟨i, itemCrc s i, ref.contains i⟩) ++
      (ref.filter (fun i => itemKind i = 4)).map (fun i => ⟨i, 0, true⟩)

def catOf (s : State) (a : Addr) : Option CatSt := s.plc.cats.find? (fun c => c.origin = a)

def factOf (s : State) (a : Addr) : Option NodeFact := s.plc.facts.find? (fun f => f.addr = a)

/-- A catalogue lists an item without REFUSED and with the definition held here. -/
def catOffers (s : State) (c : CatSt) (i : Word) : Bool :=
  c.entries.any (fun e => e.item = i && !e.refused && e.defCrc = itemCrc s i)

def catRefuses (c : CatSt) (i : Word) : Bool := c.entries.any (fun e => e.item = i && e.refused)

/-- Slots a node offers: its own, its latest NODE_STATE's, or for a remote node its catalogue's. -/
def slotsOf (s : State) (a : Addr) : BitVec 16 :=
  if s.fab.addressed && a = ownAddr s then BitVec.ofNat 16 s.cfg.slots
  else match factOf s a with
    | some f => f.slots
    | none => match catOf s a with | some c => c.slots | none => 0

/-- ELIGIBLE as the latest NODE_STATE shows it, or for a remote node the latest catalogue (R305). -/
def eligibleOf (s : State) (a : Addr) : Bool :=
  if s.fab.addressed && a = ownAddr s then eligible s
  else if zoneOf a = ownZone s then match factOf s a with | some f => f.eligible | none => false
  else match catOf s a with | some c => c.eligible | none => false

def refusedBy (s : State) (a : Addr) (i : Word) : Bool :=
  if s.fab.addressed && a = ownAddr s then (itemGet s i).refused
  else match catOf s a with | some c => catRefuses c i | none => false

/-- The candidates of an item (R297, R302). -/
def candidates (s : State) (i : Word) : List Candidate :=
  let self : Candidate := ⟨ownAddr s, BitVec.ofNat 16 s.cfg.slots⟩
  match itemKind i with
  | 1 => tabGet [] s.plc.cands i.toNat
  | 2 => tabGet [] s.plc.cands i.toNat
  | 3 =>
    let z := BitVec.ofNat 6 (fld i 16 6)
    (if s.fab.addressed && (carriedItems s).contains i && s.cfg.slots ≥ 1 then [self] else []) ++
      (s.fab.view.filter (fun a => a ≠ ownAddr s && zoneOf a = z && (slotsOf s a).toNat ≥ 1 &&
        (match catOf s a with | some c => c.entries.any (fun e => e.item = i) | none => false))).map (fun a => ⟨a, slotsOf s a⟩)
  | 4 =>
    let src : Addr := i.setWidth 18
    (s.fab.view.filter (fun a => a ≠ src && zoneOf a = zoneOf src && (slotsOf s a).toNat ≥ 1)).map (fun a => ⟨a, slotsOf s a⟩)
  | _ => []

/-- Quorum (R307): more than half of the candidate list in the view, or exactly half with its lowest address. -/
def quorumOf (s : State) (i : Word) : Bool :=
  if itemKind i = 1 ∨ itemKind i = 2 then
    let l := candidates s i
    let here := l.filter (fun c => inView s c.addr)
    let low := l.foldl (fun m c => min m c.addr.toNat) (2 ^ 18)
    2 * here.length > l.length || (2 * here.length = l.length && here.any (fun c => c.addr.toNat = low) && !l.isEmpty)
  else true

/-- A healthy candidate (R305). -/
def healthyFor (s : State) (i : Word) (a : Addr) : Bool :=
  inView s a && s.plc.healthyNodes.contains a && eligibleOf s a && !refusedBy s a i &&
    (a ≠ ownAddr s || (itemKind i ≠ 1 && itemKind i ≠ 2) || (itemGet s i).quorumOk)

/-- The healthy candidates of an item in rank order. -/
def ranking (s : State) (i : Word) : List Candidate :=
  rankSort s.cfg.k0 s.cfg.k1 i ((candidates s i).filter (fun c => healthyFor s i c.addr))

/-- The items a node knows: those it carries, page sets that catalogues of the view list, and the trend items of its zone. -/
def knownItems (s : State) : List Word :=
  if !s.plc.up then []
  else
    let pages := (s.plc.cats.filter (fun c => inView s c.origin)).flatMap
      (fun c => (c.entries.filter (fun e => itemKind e.item = 3)).map (fun e => e.item))
    let trends := (s.plc.facts.filter (fun f => f.trend && inView s f.addr && zoneOf f.addr = ownZone s)).map (fun f => trendItem f.addr)
    let own := if s.fab.addressed && hasAnalogue s then [trendItem (ownAddr s)] else []
    distinct (carriedItems s ++ pages ++ trends ++ own)

/-- Primary and shadow of an item in this node's computation (R306). -/
def itemTargets (s : State) (i : Word) : List Addr :=
  let it := itemGet s i
  (match it.primary with | some a => [a] | none => []) ++ (match it.shadow with | some a => [a] | none => [])

def hostedAs (s : State) (r : Role) : List Word := s.plc.items.filterMap (fun p => if p.2.role = r then some (wd p.1) else none)

/-- Slots in use (R308). -/
def slotsUsed (s : State) : Nat := ((hostedAs s .primary ++ hostedAs s .shadow).map (itemWeight s)).sum

def anyStarved (s : State) : Bool := s.plc.items.any (fun p => p.2.starved)

/-- NODE_STATE with its placement block (R301). -/
def nodeStateMsg (s : State) : NodeState :=
  { addr := ownAddr s, serial := s.serial, configId := s.cfg.id, timeOk := !s.tim.osf, synced := s.fab.synced,
    eligible := eligible s, refusing := !(ownRefused s).isEmpty, starved := anyStarved s, trend := hasAnalogue s,
    slots := BitVec.ofNat 16 s.cfg.slots, used := BitVec.ofNat 16 (slotsUsed s),
    primaries := BitVec.ofNat 16 (hostedAs s .primary).length, shadows := BitVec.ofNat 16 (hostedAs s .shadow).length,
    catVersion := s.plc.version }

/-- Flood NODE_STATE on stream 0x001 (Table 11.2). -/
def sendNodeState (s : State) : State := if s.fab.addressed then sendFlood (.nodeState (nodeStateMsg s)) 1 s else s

end Sys2Proof.Machine
end

