-- ==== Sys2Proof/Machine/AlarmEngine.lean ====
section
/-! DEFINITION. Machine/AlarmEngine.lean: the alarm-point record, one slot of the engine, its commands and its events (R185 to R208). -/
namespace Sys2Proof.Machine

/-! The record (Tables 8.3 to 8.6). -/

def pCondition (p : Point) : Nat := fld p.cfg 28 4
def pPriority (p : Point) : Nat := fld p.cfg 26 2
def pShelvable (p : Point) : Bool := p.cfg.getLsbD 24
def pRateDir (p : Point) : Nat := fld p.cfg 22 2
def pDigLevel (p : Point) : Bool := p.cfg.getLsbD 21
def pAccordMember (p : Point) : Bool := p.cfg.getLsbD 20
def pRefKind (p : Point) : Nat := fld p.cfg 18 2
def pRateWindow (p : Point) : Nat := fld p.cfg 10 8
def pSource (p : Point) : Nat := fld p.cfg 0 10
def pAccord (p : Point) : BitVec 16 := BitVec.ofNat 16 (fld p.link 16 16)
def pBlockEn (p : Point) : Bool := p.link.getLsbD 14
def pBlockLevel (p : Point) : Bool := p.link.getLsbD 13
def pRef (p : Point) : Nat := fld p.link 0 10
def pBlockSrc (p : Point) : Nat := fld p.block 19 10
def pBlockDelay (p : Point) : Nat := fld p.block 0 19
def pOnDelay (p : Point) : Nat := fld p.onDelay 0 19
def pOffDelay (p : Point) : Nat := fld p.offDelay 0 19

/-- STATE code (Table 8.6). -/
def stCode (s : PState) : BitVec 3 :=
  match s with
  | .normal => 0 | .activeUnack => 1 | .activeAck => 2 | .clearedUnack => 3 | .blocked => 4 | .shelved => 5 | .outOfService => 6

def stOfCode (c : BitVec 3) : PState :=
  if c = 0 then .normal else if c = 1 then .activeUnack else if c = 2 then .activeAck else if c = 3 then .clearedUnack
  else if c = 4 then .blocked else if c = 5 then .shelved else .outOfService

def isActive (s : PState) : Bool := s = .activeUnack || s = .activeAck
def isUnacked (s : PState) : Bool := s = .activeUnack || s = .clearedUnack

/-- ALM_STATE (Table 8.6). -/
def stateWord (p : Point) : Word :=
  wd ((stCode p.st).toNat * 2 ^ 29 + p.rateCnt.toNat * 2 ^ 16 + p.occ.toNat) ||| bit p.cond 28 ||| bit p.raw 27 |||
    bit p.frozen 26 ||| bit p.blockNow 25 ||| bit p.rateValid 24

/-- The voted enable (R191). -/
def pEnabled (p : Point) : Bool :=
  let a := p.cfg.getLsbD 25
  let b := p.link.getLsbD 15
  let c := p.block.getLsbD 31
  (a && b) || (b && c) || (a && c)

/-- The three enable copies agree. -/
def pCopiesOk (p : Point) : Bool := p.cfg.getLsbD 25 = p.link.getLsbD 15 && p.link.getLsbD 15 = p.block.getLsbD 31

/-- Put one bit of a word. -/
def putBit (w : Word) (n : Nat) (b : Bool) : Word := if b then w ||| bit true n else w &&& ~~~(bit true n)

/-- All three enable copies from one bit (R191). -/
def setEnable (b : Bool) (p : Point) : Point :=
  { p with cfg := putBit p.cfg 25 b, link := putBit p.link 15 b, block := putBit p.block 31 b }

/-- Word w of a record (Table 8.2); the enable copies read as the voted value (R191). -/
def pointWord (p : Point) (w : Nat) : Word :=
  let q := setEnable (pEnabled p) p
  match w with
  | 0 => q.cfg | 1 => q.link | 2 => q.block | 3 => p.roster | 4 => p.sp | 5 => p.hyst | 6 => p.onDelay | 7 => p.offDelay
  | 8 => stateWord p | 9 => p.onCount.setWidth 32 | 10 => p.offCount.setWidth 32 | 11 => p.blkCount.setWidth 32
  | 12 => p.shelveLeft.setWidth 32 | 13 => p.anchor | 14 => p.lastValue | 15 => p.onset | _ => 0

/-- The record's words as its latest slot read them (R188, R208). -/
def evPoint (p : Point) : Point := { p with cfg := p.evCfg, link := p.evLink, roster := p.evRoster }

/-- A slot reads the words; so does the load of a record. -/
def noteWords (p : Point) : Point := { p with evCfg := p.cfg, evLink := p.link, evRoster := p.roster }

def pointGet (s : State) (i : Nat) : Point := tabGet {} s.alm.points i

def pointSet (i : Nat) (p : Point) (s : State) : State := { s with alm := { s.alm with points := tabPut s.alm.points i p } }

/-! Inputs of a slot: the copy latched in step 1 (R186). -/

def inVal (s : State) (e : Nat) : ValEntry := tabGet valReset s.alm.inVals e
def inInst (s : State) (e : Nat) : BitVec 64 := tabGet 0 s.alm.inInstants e

/-- GOOD and not NaN: the entry passes Table 8.7. -/
def entryOk (s : State) (e : Nat) : Bool := (inVal s e).quality = qGOOD && !isNaN (inVal s e).value

/-- The mean of a DEVIATION point, where it is good and at most 1,000 ms old at the latch (R198). -/
def inMean (s : State) (id : BitVec 16) : Option F32 :=
  match tabLook s.alm.inMeans id.toNat with
  | some m => if m.good && s.alm.latchAt - m.at_ ≤ 1000000000 then some m.m else none
  | none => none

/-- Whether a point is usable in its slot (R194, R198, R199). -/
def usable (s : State) (p : Point) : Bool :=
  match pCondition p with
  | 6 => entryOk s (pSource p) && (inMean s (pAccord p)).isSome
  | 8 => entryOk s (pSource p) && (pRefKind p ≠ 2 || entryOk s (pRef p))
  | 9 => (inVal s (pSource p)).quality ≠ qHELD
  | 10 => true
  | _ => entryOk s (pSource p)

/-- RAW by a set test and a clear test; where neither holds it keeps its value (R196). -/
def setClear (raw set clr : Bool) : Bool := if set then true else if clr then false else raw

/-- The set and clear tests of an upper limit. -/
def upper (p : Point) (x : F32) : Bool := setClear p.raw (fLt p.sp x) (fLt x (fSub p.sp p.hyst))

/-- x of a RATE point, by RATE_DIR. -/
def rateX (p : Point) (r : F32) : F32 := if pRateDir p = 1 then r else if pRateDir p = 2 then fNegate r else fAbs r

/-- The command a DISCREPANCY point compares with (R199). -/
def discCmd (s : State) (p : Point) : Bool :=
  if pRefKind p = 1 then s.alm.inDo.getLsbD (pRef p % 16) else fBool (inVal s (pRef p)).value

/-- RAW, and what a RATE window moves, of a usable point (R196, R197, Table 8.8). -/
def formRaw (s : State) (p : Point) : Point :=
  let v := (inVal s (pSource p)).value
  match pCondition p with
  | 1 => { p with raw := upper p v }
  | 3 => { p with raw := upper p v }
  | 2 => { p with raw := setClear p.raw (fLt v p.sp) (fLt (fAdd p.sp p.hyst) v) }
  | 4 => { p with raw := setClear p.raw (fLt v p.sp) (fLt (fAdd p.sp p.hyst) v) }
  | 5 =>
    if !p.rateValid then { p with anchor := v, rateCnt := 0, rateValid := true }
    else
      let n := p.rateCnt + 1
      if n.toNat = pRateWindow p then
        let r := fDiv (fMul (fSub v p.anchor) (fOfInt 100)) (fOfInt (pRateWindow p))
        { p with anchor := v, rateCnt := 0, lastRate := r, raw := upper p (rateX p r) }
      else { p with rateCnt := n }
  | 6 =>
    match inMean s (pAccord p) with
    | some m => { p with raw := upper p (fAbs (fSub v m)) }
    | none => p
  | 7 => { p with raw := fBool v = pDigLevel p }
  | 8 => { p with raw := fBool v ≠ discCmd s p }
  | 9 => { p with raw := !entryOk s (pSource p) }
  | 10 => { p with raw := s.alm.inCauses.getLsbD (pSource p % 128) }
  | _ => p

/-- The instant of the entry that made RAW 1 (R195). -/
def rawInstant (s : State) (p : Point) : BitVec 64 :=
  match pCondition p with
  | 10 => s.alm.inTime
  | 8 =>
    if pRefKind p = 1 then s.alm.inTime
    else
      let a := inInst s (pSource p)
      let b := inInst s (pRef p)
      if a.toNat < b.toNat then b else a
  | _ => inInst s (pSource p)

/-- The delays of R201. -/
def delays (s : State) (p : Point) : Point :=
  if p.raw && !p.cond then
    let p := if p.onCount = 0 then { p with onset := (rawInstant s p).setWidth 32 } else p
    let n := p.onCount.toNat + 1
    if n > pOnDelay p then { p with offCount := 0, cond := true, onCount := 0 }
    else { p with offCount := 0, onCount := BitVec.ofNat 19 n }
  else if !p.raw && p.cond then
    let n := p.offCount.toNat + 1
    if n > pOffDelay p then { p with onCount := 0, cond := false, offCount := 0 }
    else { p with onCount := 0, offCount := BitVec.ofNat 19 n }
  else { p with onCount := 0, offCount := 0 }

/-- The value a usable slot keeps in ALM_LAST_VALUE. -/
def usedValue (s : State) (p : Point) : F32 :=
  if pCondition p = 10 then (if p.raw then fOne else 0) else (inVal s (pSource p)).value

/-- Condition, delays and freezing of an enabled point (R194 to R201). -/
def evaluate (s : State) (p : Point) : Point :=
  if usable s p then
    let p := delays s (formRaw s p)
    { p with frozen := false, lastValue := usedValue s p }
  else { p with frozen := true, rateValid := false }

/-- The block of R202. -/
def blockStep (s : State) (p : Point) : Point :=
  let q := (inVal s (pBlockSrc p)).quality
  if !pBlockEn p then { p with blockNow := false, blkCount := 0 }
  else if q = qSETTLING || q = qHELD then p
  else if q = qGOOD && fBool (inVal s (pBlockSrc p)).value = pBlockLevel p then { p with blockNow := true, blkCount := 0 }
  else if p.blockNow then
    let n := p.blkCount.toNat + 1
    if n > pBlockDelay p then { p with blockNow := false, blkCount := 0 } else { p with blkCount := BitVec.ofNat 19 n }
  else p

/-- The shelve countdown of R202. -/
def shelveStep (p : Point) : Point := if p.shelveLeft = 0 then p else { p with shelveLeft := p.shelveLeft - 1 }

/-- ACTIVE_UNACK with a new occurrence (R205). -/
def enterActive (p : Point) : Point := { p with st := .activeUnack, occ := p.occ + 1, sounds := true }

/-- The cause of the event that releases a point from a state. -/
def releaseCause (st : PState) : BitVec 8 := if st = .outOfService then 6 else if st = .shelved then 3 else 5

/-- Table 8.10 for an enabled point: the new record and the cause of its event. -/
def transition (p : Point) : Point × Option (BitVec 8) :=
  if p.shelveLeft ≠ 0 then (if p.st = .shelved then (p, none) else ({ p with st := .shelved }, some 2))
  else if p.blockNow then (if p.st = .blocked then (p, none) else ({ p with st := .blocked }, some 4))
  else match p.st with
    | .outOfService => if p.cond then (enterActive p, some 6) else ({ p with st := .normal }, some 6)
    | .shelved => if p.cond then (enterActive p, some 3) else ({ p with st := .normal }, some 3)
    | .blocked => if p.cond then (enterActive p, some 5) else ({ p with st := .normal }, some 5)
    | .normal => if p.cond then (enterActive p, some 0) else (p, none)
    | .activeUnack => if p.cond then (p, none) else ({ p with st := .clearedUnack }, some 0)
    | .activeAck => if p.cond then (p, none) else ({ p with st := .normal }, some 0)
    | .clearedUnack => if p.cond then (enterActive p, some 0) else (p, none)

/-- Table 8.10, first row: a disabled point or one with an uncorrectable word. -/
def takeOut (p : Point) : Point × Option (BitVec 8) :=
  let q := { p with st := .outOfService, cond := false, raw := false, blockNow := false, rateValid := false, onCount := 0,
                    offCount := 0, blkCount := 0, shelveLeft := 0 }
  (q, if p.st = .outOfService then none else some (if p.memFault then 8 else 7))

/-- What a configuration write leaves for the point's next slot (Table 8.13): RAW, the counts and RATE_VALID clear. -/
def applyRestart (p : Point) : Point :=
  if p.restart then { p with restart := false, raw := false, onCount := 0, offCount := 0, blkCount := 0, rateValid := false } else p

/-- One slot (R186, R194, R201 to R203): the record after it and the cause of its event, if it gives one. -/
def slot (s : State) (p : Point) : Point × Option (BitVec 8) :=
  let p := applyRestart (noteWords (setEnable (pEnabled p) p))
  if !pEnabled p || p.memFault then takeOut p else transition (shelveStep (blockStep s (evaluate s p)))

/-! Events (R206). -/

/-- A point's tag (R185); before the win it carries UNADDR and the zone. -/
def pointTag (s : State) (i : Nat) : Word :=
  if s.fab.addressed then wd ((pairAddr s).toNat * 4096 + i) else wd (2 ^ 30 + (ownZone s).toNat * 2 ^ 24 + i)

/-- Full fabric time of an onset of which 32 bits are kept (Table 8.12). -/
def fullOnset (now : BitVec 64) (lo : Word) : BitVec 64 := now - ((now.setWidth 32 - lo).setWidth 64)

/-- Full fabric time of which 32 bits are known, the nearest to now. -/
def nearTime (now : BitVec 64) (lo : Word) : BitVec 64 := now + (lo - now.setWidth 32).signExtend 64

/-- VALUE of an event (Table 8.12). -/
def eventValue (s : State) (p : Point) : F32 :=
  match pCondition p with
  | 5 => p.lastRate
  | 6 => match tabLook s.alm.inMeans (pAccord p).toNat with
    | some m => fSub (inVal s (pSource p)).value m.m
    | none => (inVal s (pSource p)).value
  | 10 => if s.alm.inCauses.getLsbD (pSource p % 128) then fOne else 0
  | _ => (inVal s (pSource p)).value

/-- The event of a transition of the record p, by the words that its latest slot read (Table 8.12). -/
def almEvent (s : State) (i : Nat) (old : PState) (p : Point) (cause : BitVec 8) : AlmEvent :=
  let p := evPoint p
  { cause := cause, oldState := (stCode old).setWidth 8, newState := (stCode p.st).setWidth 8, tag := pointTag s i, occ := p.occ,
    prio := BitVec.ofNat 8 (pPriority p), quality := if pCondition p = 10 then 0 else (inVal s (pSource p)).quality,
    value := eventValue s p, onset := fullOnset (fabUs s) p.onset, cycle := s.alm.cycle, cond := BitVec.ofNat 8 (pCondition p) }

/-- The 32 bytes of Table 8.12 as eight words. -/
def almWords (e : AlmEvent) : List Word :=
  [wd (1 + e.cause.toNat * 2 ^ 8 + e.oldState.toNat * 2 ^ 16 + e.newState.toNat * 2 ^ 24), e.tag,
   wd (e.occ.toNat + e.prio.toNat * 2 ^ 16 + e.quality.toNat * 2 ^ 24), e.value, e.onset.setWidth 32,
   (e.onset >>> 32).setWidth 32, e.cycle, wd e.cond.toNat]

/-- The item an event goes to: its Accord's evaluator, its roster's call manager, or none (R206). -/
def eventItem (p : Point) : Option Word :=
  if pAccordMember p then some (accordItem (pAccord p))
  else if p.roster ≠ 0xFFFFFFFF then some (rosterItem p.roster)
  else none

/-- Whether a frame can leave for every node that runs an item. -/
def itemRouted (s : State) (item : Word) : Bool :=
  s.fab.addressed && (itemTargets s item).all (fun a => a = ownAddr s || (routeTo s a).isSome)

/-- Send records of one item to its primary and its shadow, six to a frame (R206, R313). -/
def sendAlarms (item : Word) (l : List AlmEvent) (s : State) : State :=
  eachS (chunks 6 l) (fun part t => eachS (itemTargets t item) (fun a t => sendUni a 3 (.alarmEvent item part) t) t) s
where
  chunks (n : Nat) (l : List AlmEvent) : List (List AlmEvent) := go n l.length l
  go (n fuel : Nat) (l : List AlmEvent) : List (List AlmEvent) :=
    match fuel with
    | 0 => []
    | f + 1 => if l.isEmpty then [] else l.take n :: go n f (l.drop n)

/-- Offer the records of one step to the fabric, by destination; before the win they are held (R206). -/
def offerAlarms (l : List (Word × AlmEvent)) (s : State) : State :=
  if s.fab.addressed then
    eachS (distinct (l.map (fun x => x.1))) (fun i t => sendAlarms i ((l.filter (fun x => x.1 = i)).map (fun x => x.2)) t) s
  else { s with alm := { s.alm with held := s.alm.held ++ l.map (fun x => ⟨x.1, x.2⟩) } }

/-- A message of the pair on P; on a single unit there is none. -/
def sendPairP (b : Body) (s : State) : State :=
  if s.cfg.guarded.rolePref = 0 || !(linkGet s linkP).phyUp then s else sendLocal linkP b s

/-- One event of a point: into the event queue, counted, mirrored on P by the active (R335), and with its destination. -/
def emitAlarm (i : Nat) (old : PState) (p : Point) (cause : BitVec 8) (acc : List (Word × AlmEvent) × State) :
    List (Word × AlmEvent) × State :=
  let e := almEvent acc.2 i old p cause
  let s := emit 1 cause (BitVec.ofNat 2 (pPriority (evPoint p))) e.tag (almWords e) acc.2
  let s := bump aALM_TRANSITIONS s
  let s := if s.pair.ownHeld then sendPairP (.eventMirror (runFmt s).1 e) s else s
  (match eventItem (evPoint p) with | some it => acc.1 ++ [(it, e)] | none => acc.1, s)

/-- Key under which an undefined case of one alarm point is kept. -/
def pointBase (i : Nat) : Nat := 0x1000000 + i

/-- An undefined case has touched the point, or the engine whole. -/
def pointFree (s : State) (i : Nat) : Bool := poisoned s (pointBase i) || poisoned s 0x070000

/-- The slot of a point that an undefined case has touched (R57): its state, condition and occurrence are unspecified. -/
def slotFree (s : State) (p : Point) : Point × Option (BitVec 8) :=
  let w := free s
  let p := noteWords p
  let q := { p with st := stOfCode (w.extractLsb' 0 3), cond := w.getLsbD 3, raw := w.getLsbD 4, frozen := w.getLsbD 5,
                    occ := w.extractLsb' 16 16, lastValue := Config.freeWord (s.fresh + 1) }
  (q, if q.st = p.st then none else some (w.extractLsb' 8 8))

/-- The enable of point i is used: an odd copy is rewritten, counted and latched (R50, R191). Three copies of one bit always have a
majority. -/
def useEnable (i : Nat) (s : State) : State :=
  let p := pointGet s i
  if pCopiesOk p then s else s |> pointSet i (setEnable (pEnabled p) p) |> bump aECC_VOTE_FIX |> latch aSYS_EVENT 3

/-- Run the slot of point i: vote, evaluate, store, and give its event (R50, R189); a point taken out of service by an
uncorrectable word latches MEM_FAULT (R207). -/
def runSlot (i : Nat) (acc : List (Word × AlmEvent) × State) : List (Word × AlmEvent) × State :=
  let s := useEnable i acc.2
  let p := pointGet s i
  let (q, ev) := if pointFree s i then slotFree s p else slot s p
  let s := whenS (pointFree s i) (drawn 2) (pointSet i q s)
  let s := whenS (ev = some 8) (latch aALM_EVENT 3) s
  match ev with
  | some c => emitAlarm i p.st q c (acc.1, s)
  | none => (acc.1, s)

/-! Commands (R187, R204). -/

/-- Queue one command; a full queue discards, counts and latches (R187). -/
def queueCmd (i : BitVec 12) (op : AlmOp) (s : State) : State :=
  if s.alm.cmds.length ≥ 256 then s |> bump aALM_CMD_LOST |> latch aALM_EVENT 0
  else { s with alm := { s.alm with cmds := s.alm.cmds ++ [(i, op)] } }

/-- Apply one command (Table 8.11). -/
def applyCmd (c : BitVec 12 × AlmOp) (acc : List (Word × AlmEvent) × State) : List (Word × AlmEvent) × State :=
  let s := acc.2
  let i := c.1.toNat
  let p := pointGet s i
  match c.2 with
  | .ack k =>
    if k ≠ p.occ then (acc.1, s |> bump aALM_ACK_STALE |> latch aALM_EVENT 1)
    else if p.st = .activeUnack then
      let q := { p with st := .activeAck }
      emitAlarm i p.st q 1 (acc.1, pointSet i q s)
    else if p.st = .clearedUnack then
      let q := { p with st := .normal }
      emitAlarm i p.st q 1 (acc.1, pointSet i q s)
    else acc
  | .shelve secs =>
    if !pShelvable (evPoint p) || p.st = .outOfService || secs = 0 then (acc.1, latch aALM_EVENT 2 s)
    else (acc.1, pointSet i { p with shelveLeft := BitVec.ofNat 22 (100 * min secs.toNat 28800) } s)
  | .unshelve => if p.shelveLeft = 0 then acc else (acc.1, pointSet i { p with shelveLeft := 0 } s)

/-- Step 3 of Table 8.1: at most 128 commands, oldest first. -/
def commandPhase (acc : List (Word × AlmEvent) × State) : List (Word × AlmEvent) × State :=
  let cut := acc.2.alm.cmds.take 128
  let s := { acc.2 with alm := { acc.2.alm with cmds := acc.2.alm.cmds.drop 128 } }
  cut.foldl (fun a c => applyCmd c a) (acc.1, s)

/-- Step 4: the slots, in index order. An unlisted record is out of service and gives nothing. -/
def slotPhase (acc : List (Word × AlmEvent) × State) : List (Word × AlmEvent) × State :=
  (acc.2.alm.points.map (fun p => p.1)).foldl (fun a i => runSlot i a) acc

/-- Step 6: ALM_COUNT_A and ALM_COUNT_B (Table 8.15). -/
def countPhase (s : State) : State :=
  let n := fun (f : Point → Bool) => (s.alm.points.filter (fun p => f p.2)).length
  { s with alm := { s.alm with
      countA := wd (n (fun p => isActive p.st) * 2 ^ 16 + n (fun p => isUnacked p.st)),
      countB := wd (n (fun p => p.frozen) * 2 ^ 16 + n (fun p => p.st = .shelved || p.st = .blocked)) } }

/-- Steps 3 to 6 of one cycle over the latched inputs. -/
def runCycle (s : State) : State :=
  let (l, s) := slotPhase (commandPhase ([], s))
  countPhase (offerAlarms l s)

/-- The node's internal sounder sounds (R221). -/
def sounderOn (s : State) : Bool := s.alm.points.any (fun p => p.2.sounds && pPriority p.2 ≥ 1 && isUnacked p.2.st)

/-! Window writes (R188, R191, R208). -/

/-- Whether a configuration word holds a reserved encoding (Tables 8.2 to 8.5, R192). -/
def cfgReserved (w : Word) : Bool :=
  let c := fld w 28 4
  let shelv := w.getLsbD 24
  let prio := fld w 26 2
  let dir := fld w 22 2
  let rk := fld w 18 2
  let win := fld w 10 8
  let src := fld w 0 10
  c = 0 || c > 10 || (shelv && prio = 3) || dir = 3 || (dir ≠ 0 && c ≠ 5) || (w.getLsbD 21 && c ≠ 7) ||
    (if c = 8 then rk = 0 || rk = 3 else rk ≠ 0) || (if c = 5 then win = 0 else win ≠ 0) ||
    (c = 10 && (src ≥ 128 || src % 128 > 0x2E))

def linkReserved (c : Nat) (rk : Nat) (w : Word) : Bool :=
  let r := fld w 0 10
  if c = 8 then (if rk = 1 then r ≥ 16 else false) else r ≠ 0

/-- A delay above 360,000 cycles is reserved. -/
def delayReserved (w : Word) : Bool := fld w 0 19 > 360000

def spReserved (w : Word) : Bool := isNaN w
def hystReserved (w : Word) : Bool := isNaN w || fLt w 0

/-- A record's configuration holds a reserved encoding (R192). -/
def pointReserved (p : Point) : Bool :=
  cfgReserved p.cfg || linkReserved (pCondition p) (pRefKind p) p.link || delayReserved p.block || spReserved p.sp ||
    hystReserved p.hyst || delayReserved p.onDelay || delayReserved p.offDelay

/-- Write configuration word w of a record: reserved bits are ignored, and an enable bit writes all three copies (R39, R191). -/
def writePointWord (p : Point) (w : Nat) (v : Word) : Point :=
  match w with
  | 0 =>
    let q := setEnable (v.getLsbD 25) { p with cfg := v }
    { q with restart := p.restart || (v &&& 0xF0FFFFFF &&& ~~~(0x03100000 : Word)) ≠ (p.cfg &&& 0xF0FFFFFF &&& ~~~(0x03100000 : Word)) }
  | 1 =>
    let x := v &&& 0xFFFFE3FF
    let q := setEnable (v.getLsbD 15) { p with link := x }
    { q with restart := p.restart || (x &&& 0xFFFF03FF) ≠ (p.link &&& 0xFFFF03FF) }
  | 2 => setEnable (v.getLsbD 31) { p with block := v &&& 0x9FFFFFFF }
  | 3 => { p with roster := v }
  | 4 => { p with sp := v }
  | 5 => { p with hyst := v }
  | 6 => { p with onDelay := v &&& 0x7FFFF }
  | 7 => { p with offDelay := v &&& 0x7FFFF }
  | _ => p

/-- A window write to word w of the record that ALM_SEL shows (R208, R209). A reserved encoding is undefined case 1. -/
def recWrite (w : Nat) (v : Word) (s : State) : State :=
  let i := s.alm.sel.toNat
  let p := pointGet s i
  let q := writePointWord p w v
  let s := if w < 8 then pointSet i q s else s
  let bad := match w with
    | 0 => cfgReserved v
    | 1 => linkReserved (pCondition p) (pRefKind p) v
    | 2 => delayReserved v
    | 4 => spReserved v
    | 5 => hystReserved v
    | 6 => delayReserved v
    | 7 => delayReserved v
    | _ => false
  whenS bad (undef (pointBase i)) s

end Sys2Proof.Machine
end

