-- ==== Sys2Proof/Machine/Neighbours.lean ====
section
/-! DEFINITION. Machine/Neighbours.lean: links, hellos, LSAs and the member-number claim (R262 to R271, R294). -/
namespace Sys2Proof.Machine

/-! Links and hellos. -/

/-- A link stops being two-way (R262). -/
def loseTwoWay (k : Link) (s : State) : State :=
  if (linkGet s k).twoWay then
    linkMod k (fun l => { l with twoWay := false, synced := false, held := false, neigh := none, delays := [], want := [],
                                 gotList := false, helloSent := [] }) s
      |> bump (aLINK k 0x28) |> latch aFAB_EVENT 0
  else s

/-- LINK_STATUS.ZONE_MISMATCH follows its cause; its rise latches FAB_EVENT.ZONE_MISMATCH (R263). -/
def refreshHeld (k : Link) (s : State) : State :=
  let m := isMismatch s k
  let was := (linkGet s k).held
  let s := linkMod k (fun l => { l with held := m, alone := l.alone && !(isIntra s k || isBorder s k) }) s
  whenS (m && !was) (latch aFAB_EVENT 9) s

/-- The mean of a link's latest eight delay results, in ns; 0 until it is known (R264). -/
def linkDelay (s : State) (k : Link) : Int :=
  let d := (linkGet s k).delays
  if d.length < 8 then 0 else d.sum / 8

/-- LINK_DELAY as its 16 bits show it. -/
def linkDelayReg (s : State) (k : Link) : Word := wd (min 65535 (linkDelay s k).toNat)

/-- The list of LSA sequences a SYNC carries, in frames of up to 18 entries. -/
def lsaKeys (s : State) : List LsaKey :=
  s.fab.lsas.map (fun e => ⟨e.lsa.addr, e.lsa.serial, e.lsa.seq, e.tomb⟩)

/-- Cut a list into parts of at most n. -/
def chunksGo {α : Type} (n : Nat) (fuel : Nat) (l : List α) : List (List α) :=
  match fuel with
  | 0 => []
  | f + 1 => if l.isEmpty then [] else l.take n :: chunksGo n f (l.drop n)

def chunks {α : Type} (n : Nat) (l : List α) : List (List α) := chunksGo n l.length l

/-- Exchange LSA sequences on a link that became two-way (R265). -/
def sendSync (k : Link) (s : State) : State :=
  let parts := chunks 18 (lsaKeys s)
  if parts.isEmpty then sendLocal k (.sync (.sequences true [])) s
  else eachS ((List.range parts.length).zip parts) (fun p t => sendLocal k (.sync (.sequences (p.1 + 1 = parts.length) p.2)) t) s

/-- The frames of one link are discarded; at a PHY loss each is counted by its plane (R278). -/
def flushLink (k : Link) (count : Bool) (s : State) : State :=
  let l := linkGet s k
  let s := linkMod k (fun l => { l with urgent := [], routine := [], mgmt := [], data := [], onWire := none, credit := 0 }) s
  if count then
    s |> bumpBy (aLINK k 0x1C) (l.urgent.length + l.routine.length) |> bumpBy (aLINK k 0x20) l.data.length
      |> bumpBy (aLINK k 0x24) l.mgmt.length
  else s

/-- PHY_UP (R262): the link is up and its hellos begin. A port that is not enabled, or a node whose links are off, stays down. -/
def effPhyUp (k : Link) (s : State) : State :=
  if (linkGet s k).enabled && linksUp s k then linkMod k (fun l => { l with phyUp := true }) s else s

def execPhyUp (k : Link) (s : State) : Out := done (effPhyUp k s)

/-- PHY_DOWN (R262, R278). -/
def effPhyDown (k : Link) (s : State) : State :=
  if (linkGet s k).phyUp then
    s |> loseTwoWay k |> flushLink k true |> linkMod k (fun l => { l with phyUp := false })
  else s

def execPhyDown (k : Link) (s : State) : Out := done (effPhyDown k s)

/-- One HELLO on one link; the egress instant is written as it is transmitted (R262). -/
def sendHello (k : Link) (s : State) : State :=
  let l := linkGet s k
  let m : HelloMsg := {
    serial := s.serial, zone := ownZone s, border := s.cfg.border, unaddr := !s.fab.addressed,
    member := if s.fab.addressed then s.fab.member.setWidth 16 else 0xFFFF, lsaSeq := s.fab.ownSeq,
    number := l.helloNum, seen := l.seen, egress := 0 }
  s |> sendLocal k (.hello m) |> linkMod k (fun l => { l with helloNum := l.helloNum + 1 })

/-- HELLO_SEND (R262): on every enabled fabric link whose PHY is up. P carries no hello (R319). It uses the zone, a triplicated
field (R50). -/
def effHelloSend (s : State) : State :=
  eachS fLinks (fun k t => whenS ((linkGet t k).enabled && (linkGet t k).phyUp && t.fab.up) (sendHello k) t)
    (voteUse aFAB_ADDR 0x0A0000 s)

def execHelloSend (s : State) : Out := done (effHelloSend s)

/-- NEIGHBOUR_TIMEOUT (R262). -/
def execNeighbourTimeout (k : Link) (s : State) : Out := done (loseTwoWay k s)

/-- LINK_ALONE (R263): an enabled fabric link without an intra-zone or border neighbour for 2 s. -/
def effLinkAlone (k : Link) (s : State) : State :=
  if k.val < 6 && (linkGet s k).enabled && !(isIntra s k || isBorder s k) then linkMod k (fun l => { l with alone := true }) s
  else s

def execLinkAlone (k : Link) (s : State) : Out := done (effLinkAlone k s)

/-! LSAs. -/

def sameLsa (a : Addr) (w : Word) (e : LsaEnt) : Bool := e.lsa.addr = a && e.lsa.serial = w

def lsaFind (s : State) (a : Addr) (w : Word) : Option LsaEnt := s.fab.lsas.find? (sameLsa a w)

/-- The oldest tombstone of the table. -/
def oldestTomb (l : List LsaEnt) : Option LsaEnt :=
  (l.filter (fun e => e.tomb)).foldl
    (fun o e => match o with | none => some e | some b => if e.at_ < b.at_ then some e else o) none

/-- Keep an entry; with 8,192 in use a new one replaces the oldest tombstone, or is not stored (R271). -/
def lsaStore (e : LsaEnt) (s : State) : Bool × State :=
  let l := s.fab.lsas
  let put := fun (l : List LsaEnt) => { s with fab := { s.fab with lsas := l } }
  if l.any (sameLsa e.lsa.addr e.lsa.serial) then (true, put (l.map (fun x => if sameLsa e.lsa.addr e.lsa.serial x then e else x)))
  else if l.length < 8192 then (true, put (l ++ [e]))
  else match oldestTomb l with
    | some t => (true, put (l.filter (fun x => !sameLsa t.lsa.addr t.lsa.serial x) ++ [e]))
    | none => (false, s)

/-- The contents of the node's own LSA (R270): its two-way intra-zone links to addressed neighbours. -/
def ownLsa (s : State) : Lsa :=
  { addr := ownAddr s, serial := s.serial, seq := s.fab.ownSeq, border := s.cfg.border, timeOk := !s.tim.osf,
    synced := s.fab.synced, pref := s.cfg.memberPref,
    neighs := ([0, 1, 2, 3, 4, 5] : List (Fin 6)).filterMap (fun j =>
      let k : Link := j.castLE (by decide)
      if isIntra s k then
        match (linkGet s k).neigh with
        | some n => if n.unaddr then none else some (n.addr, j)
        | none => none
      else none) }

/-- The sequence of the own address and serial as the table holds it: after a restart, that of the previous run (R270). -/
def heldSeq (s : State) : Word := match lsaFind s (ownAddr s) s.serial with | some e => e.lsa.seq | none => 0

/-- Originate the own LSA with the next sequence and flood it (R270). -/
def originate (s : State) : State :=
  if s.fab.addressed then
    let q := if s.fab.ownSeq.toNat < (heldSeq s).toNat then heldSeq s else s.fab.ownSeq
    let s := { s with fab := { s.fab with ownSeq := q + 1 } }
    let l := ownLsa s
    let s := (lsaStore ⟨l, false, s.clock⟩ s).2
    sendFlood (.lsa [l]) 0 s
  else s

/-- LSA_ORIGINATE (R270). An unaddressed node originates none (R265). -/
def execLsaOriginate (s : State) : Out := done (originate s)

/-- LSA_TOMBSTONE (R270): an LSA not refreshed for 120 s becomes a tombstone. -/
def effLsaTombstone (a : Addr) (w : Word) (s : State) : State :=
  { s with fab := { s.fab with lsas := s.fab.lsas.map (fun e =>
      if sameLsa a w e && !e.tomb then { e with tomb := true, at_ := s.clock } else e) } }

def execLsaTombstone (addr : Addr) (serial : Word) (s : State) : Out := done (effLsaTombstone addr serial s)

/-- TOMBSTONE_EXPIRY (R270): a tombstone held for 24 h of operation is removed. -/
def effTombstoneExpiry (a : Addr) (w : Word) (s : State) : State :=
  { s with fab := { s.fab with lsas := s.fab.lsas.filter (fun e => !(sameLsa a w e && e.tomb)) } }

def execTombstoneExpiry (addr : Addr) (serial : Word) (s : State) : Out := done (effTombstoneExpiry addr serial s)

/-! Shortest paths and the view (R272, R273). -/

/-- The live LSA routing uses for an address: of two serials the lower (R271). -/
def routeLsa (s : State) (a : Addr) : Option Lsa :=
  (s.fab.lsas.filter (fun e => !e.tomb && e.lsa.addr = a)).foldl
    (fun o e => match o with
      | none => some e.lsa
      | some l => if e.lsa.serial.toNat < l.serial.toNat then some e.lsa else o) none

/-- A link counts only when the LSAs of both its ends list it (R272). -/
def linked (s : State) (a b : Addr) : Bool :=
  let lists := fun (x y : Addr) => match routeLsa s x with | some l => l.neighs.any (fun n => n.1 = y) | none => false
  lists a b && lists b a

/-- A node reached: its address, the first neighbour on its path and the link to it. -/
structure Hop where
  addr : Addr
  first : Addr
  link : Link
  deriving DecidableEq, Repr

/-- Among equal paths: the lower next-hop address, then the lower link number. -/
def hopBetter (a b : Hop) : Bool := a.first.toNat < b.first.toNat || (a.first = b.first && a.link.val < b.link.val)

/-- Keep the better hop of each address. -/
def hopAdd (l : List Hop) (h : Hop) : List Hop :=
  match l with
  | [] => [h]
  | x :: r => if x.addr = h.addr then (if hopBetter h x then h :: r else x :: r) else x :: hopAdd r h

/-- The neighbours of a reached node that no shorter path has reached. -/
def hopNext (s : State) (seen : List Addr) (h : Hop) : List Hop :=
  match routeLsa s h.addr with
  | none => []
  | some l => l.neighs.filterMap (fun n => if !seen.contains n.1 && linked s h.addr n.1 then some { h with addr := n.1 } else none)

/-- Breadth first, one link of cost 1 at a time. -/
def spfGo (fuel : Nat) (s : State) (seen : List Addr) (front : List Hop) (out : List Hop) : List Hop :=
  match fuel with
  | 0 => out
  | f + 1 =>
    if front.isEmpty then out
    else
      let seen := seen ++ front.map (fun h => h.addr)
      let next := (front.flatMap (hopNext s seen)).foldl hopAdd []
      spfGo f s seen next (out ++ front)

/-- The nodes that LSAs reach from the neighbours, whether or not this node is addressed (R267). -/
def reachable (s : State) : List Addr :=
  let first := (fLinks.filterMap (fun k =>
    if isIntra s k then
      match (linkGet s k).neigh with
      | some n => if n.unaddr then none else some (⟨n.addr, n.addr, k⟩ : Hop)
      | none => none
    else none)).foldl hopAdd []
  (spfGo (s.fab.lsas.length + 1) s [] first []).map (fun h => h.addr)

/-- An entry becomes OUT_OF_SERVICE with value 0.0 (R290). -/
def entryOut (e : Nat) (s : State) : State :=
  if (valGet s e).quality = qOUT_OF_SERVICE then s else writeQuality e qOUT_OF_SERVICE 0 s

/-- Install a membership view: healthy counts of the nodes that left end (R305), and entries whose source left become
OUT_OF_SERVICE (R290). -/
def installView (v : List Addr) (s : State) : State :=
  let s := { s with fab := { s.fab with view := v },
                    plc := { s.plc with healthyNodes := s.plc.healthyNodes.filter (fun a => v.contains a) } }
  eachS (s.cfg.subs.filter (fun b => !v.contains b.srcNode)) (fun b t => entryOut b.localEntry.toNat t) s

/-! Claims. -/

/-- Whether this unit is a pair member that does not hold OWN: it holds a standby number (R322). -/
def isStandbyNumber (s : State) : Bool := s.cfg.guarded.rolePref ≠ 0 && !s.pair.ownHeld

/-- The saved number that heads the claim order (R103, R322). -/
def savedChoice (s : State) : Option (BitVec 12) :=
  match (if isStandbyNumber s then s.store.savedStandby else s.store.savedNum) with
  | some (z, n) => if z = ownZone s then some n else none
  | none => none

/-- A free number (R267), given the reachable nodes. A number lost in this round is no next choice (R266). -/
def numberFree (s : State) (reach : List Addr) (n : BitVec 12) : Bool :=
  let a := mkAddr (ownZone s) n
  !reach.contains a && !(s.fab.lsas.any (fun e => (e.tomb && e.lsa.addr = a) || e.lsa.pref = n.setWidth 16)) &&
    !s.fab.excluded.contains n && !s.fab.givenUp.contains n && !s.fab.lost.contains n

def freeNumber (s : State) : Option (BitVec 12) :=
  match ((List.range 4096).map (fun i => BitVec.ofNat 12 i)).find? (numberFree s (reachable s)) with
  | some n => some n
  | none =>
    match oldestTomb (s.fab.lsas.filter (fun e => zoneOf e.lsa.addr = ownZone s &&
        !s.fab.givenUp.contains (memberOf e.lsa.addr) && !s.fab.lost.contains (memberOf e.lsa.addr))) with
    | some e => some (memberOf e.lsa.addr)
    | none => none

/-- The next choice of the claim order with its rank (R103, R266). -/
def nextChoice (s : State) : Option (BitVec 12 × BitVec 2) :=
  let ok := fun (n : BitVec 12) => !s.fab.lost.contains n && !s.fab.givenUp.contains n
  match s.fab.lateMember.filter ok with
  | some n => some (n, 1)
  | none =>
    match (savedChoice s).filter ok with
    | some n => some (n, 0)
    | none =>
      let pref := s.cfg.memberPref
      if pref ≠ 0xFFFF ∧ !isStandbyNumber s ∧ ok (pref.setWidth 12) then some (pref.setWidth 12, 1)
      else (freeNumber s).map (fun n => (n, 2))

/-- The last 64 transmissions stay in the claim cache (R266). -/
def cacheAdd (x : Word × BitVec 12 × BitVec 2 × Bool) (s : State) : State :=
  { s with fab := { s.fab with claimCache := (x :: s.fab.claimCache).take 64 } }

/-- Flood a CLAIM or DEFEND on every intra-zone link but the one given. -/
def floodClaim (but : Option Link) (b : Body) (s : State) : State :=
  floodOut but ⟨mkHdr s b true (mkAddr (ownZone s) 0xFFF) 0 0, b⟩ false s

/-- Send the CLAIM in progress once more under a transmission number. -/
def sendClaim (s : State) : State :=
  match s.fab.claim with
  | none => s
  | some c =>
    let tx := BitVec.ofNat 2 c.tx
    s |> cacheAdd (s.serial, c.number, tx, false) |> floodClaim none (.claim ⟨c.number, c.rank, s.serial, tx⟩)

/-- Begin a claim for a number. -/
def beginClaim (n : BitVec 12) (rank : BitVec 2) (byWrite : Bool) (s : State) : State :=
  { s with fab := { s.fab with claim := some ⟨n, rank, s.clock, 0, byWrite⟩ } } |> sendClaim

/-- Claim the next choice; with none left, ADDR_EXHAUSTED (R269). -/
def claimNext (s : State) : State :=
  match nextChoice s with
  | some (n, r) => beginClaim n r false s
  | none =>
    { s with fab := { s.fab with claim := none, exhausted := true } } |> whenS (!s.fab.exhausted) (latch aFAB_EVENT 2)

/-- A claim is lost (R266, R294). -/
def loseClaim (s : State) : State :=
  match s.fab.claim with
  | none => s
  | some c =>
    let s := { s with fab := { s.fab with claim := none, lost := c.number :: s.fab.lost,
                                          lateMember := if s.fab.lateMember = some c.number then none else s.fab.lateMember } }
      |> latch aFAB_EVENT 3 |> bump aFAB_CLAIM_LOST
    if s.fab.addressed then s else claimNext s

/-- Whether the unit may claim at all: its links run, it is unaddressed, and no OWN gives it the pair address (R322). -/
def mayClaim (s : State) : Bool :=
  s.fab.up && !s.fab.addressed && s.fab.claim.isNone && !(s.cfg.guarded.rolePref ≠ 0 && s.pair.ownHeld)

/-- CLAIM_START (R265): the first CLAIM, once sync is complete or 1 s after end of start. -/
def execClaimStart (s : State) : Out :=
  done (if mayClaim s then claimNext { s with fab := { s.fab with lost := [] } } else s)

/-- ADDR_RETRY (R269): while ADDR_EXHAUSTED is set the node tries again. -/
def execAddrRetry (s : State) : Out :=
  done (if mayClaim s && s.fab.exhausted then claimNext { s with fab := { s.fab with lost := [] } } else s)

/-- CLAIM_RETRANSMIT (R266): transmission numbers 1 and 2. -/
def execClaimRetransmit (s : State) : Out :=
  done (match s.fab.claim with
    | some c => if c.tx < 2 then sendClaim { s with fab := { s.fab with claim := some { c with tx := c.tx + 1 } } } else s
    | none => s)

/-- CLAIM_EXCLUSION_EXPIRY (R266). -/
def execClaimExclusionExpiry (number : BitVec 12) (s : State) : Out :=
  done { s with fab := { s.fab with excluded := s.fab.excluded.filter (fun n => n ≠ number) } }

/-- The number is given up and claimed afresh (R268); it stays excluded until the next start. -/
def giveUpNumber (s : State) : State :=
  installView [] { s with fab := { s.fab with addressed := false, givenUp := s.fab.member :: s.fab.givenUp, lost := [], fwd := [] } }
    |> bump aFAB_ADDR_CONFLICT |> latch aFAB_EVENT 4
    |> (fun t => blockRec 2 0x0A0000 aFAB_EVENT [] t) |> claimNext

/-- The partner's claim on the pair address, which OWN already excludes (R322): its serial was that of the address at the take, or
the LSA is a last one, with no neighbour entries. -/
def fromPartner (s : State) (other : Word) (lastLsa : Bool) : Bool :=
  s.cfg.guarded.rolePref ≠ 0 && s.pair.ownHeld && (lastLsa || s.pair.peerSerial = some other)

/-- Another holder of this node's address is seen: the higher serial gives the number up (R268). -/
def conflict (a : Addr) (other : Word) (lastLsa : Bool) (s : State) : State :=
  if s.fab.addressed && a = ownAddr s && other ≠ s.serial && s.serial.toNat > other.toNat && !fromPartner s other lastLsa
  then giveUpNumber s else s

/-- Whether a (rank, serial) is lower than another. -/
def rankLower (r1 : BitVec 2) (w1 : Word) (r2 : BitVec 2) (w2 : Word) : Bool :=
  r1.toNat < r2.toNat || (r1 = r2 && w1.toNat < w2.toNat)

/-- What a node does on a CLAIM (Table 11.3). -/
def onClaim (m : ClaimMsg) (s : State) : State :=
  if m.serial = s.serial then s
  else if s.fab.addressed && s.fab.member = m.number then
    s |> cacheAdd (s.serial, m.number, 0, true) |> floodClaim none (.defend ⟨m.number, 0, s.serial, 0⟩)
  else match s.fab.claim with
    | some c =>
      if c.number = m.number then
        if rankLower c.rank s.serial m.rank m.serial then sendClaim s else loseClaim s
      else { s with fab := { s.fab with excluded := m.number :: s.fab.excluded } }
    | none => { s with fab := { s.fab with excluded := m.number :: s.fab.excluded } }

/-- Forward a CLAIM or DEFEND once, on every intra-zone link but the one it came in on, under the claim cache (R266). -/
def forwardClaim (rx : Rx) (key : Word × BitVec 12 × BitVec 2 × Bool) (b : Body) (s : State) : State :=
  if s.fab.claimCache.contains key then s
  else
    let s := cacheAdd key s
    match rx.link with
    | none => s
    | some k =>
      if rx.hdr.hops = 63 then bump aFAB_HOP_DROP s
      else floodOut (some k) ⟨{ rx.hdr with hops := rx.hdr.hops + 1 }, b⟩ true s

/-- CLAIM (R266): the node acts on each transmission that comes in; the cache stops only its forwarding. -/
def effClaim (rx : Rx) (m : ClaimMsg) (s : State) : State :=
  let (ok, s) := receive rx (.claim m) s
  if !ok then s
  else
    onClaim m (forwardClaim rx (m.serial, m.number, m.tx, false) (.claim m) s)

def execClaim (rx : Rx) (m : ClaimMsg) (s : State) : Out := done (effClaim rx m s)

/-- DEFEND (R266, R268): a claimant of the number loses it; a holder sees another holder. -/
def effDefend (rx : Rx) (m : ClaimMsg) (s : State) : State :=
  let (ok, s) := receive rx (.defend m) s
  if !ok then s
  else
    let s := forwardClaim rx (m.serial, m.number, m.tx, true) (.defend m) s
    if m.serial = s.serial then s
    else
      let s := match s.fab.claim with
        | some c => if c.number = m.number then loseClaim s else s
        | none => s
      conflict (mkAddr (ownZone s) m.number) m.serial false s

def execDefend (rx : Rx) (m : ClaimMsg) (s : State) : Out := done (effDefend rx m s)

/-- HELLO (R262, R264, R268). -/
def effHello (rx : Rx) (m : HelloMsg) (s : State) : State :=
  match rx.link with
  | none => s
  | some k =>
    let (ok, s) := receive rx (.hello m) s
    if !ok || !(linkGet s k).phyUp || k = linkP then s
    else
      let a2 : Int := (fabNs s : Int) - rxAge s
      let other := match (linkGet s k).neigh with | some n => n.serial ≠ m.serial | none => false
      let s := whenS other (loseTwoWay k) s
      let addr := mkAddr m.zone (m.member.setWidth 12)
      let named := match m.seen with | some (w, _, _) => w = s.serial | none => false
      let l := linkGet s k
      let res : List Int :=
        match m.seen with
        | some (w, n, b1) =>
          if w = s.serial then
            match l.helloSent.find? (fun p => p.1 = n) with
            | some (_, a1) => [((a2 - (a1 : Int)) - ((m.egress.toNat : Int) - (b1.toNat : Int))) / 2]
            | none => []
          else []
        | none => []
      let rise := named && !l.twoWay
      let s := linkMod k (fun l => { l with
        neigh := some ⟨m.serial, addr, m.unaddr, m.border⟩, seen := some (m.serial, m.number, BitVec.ofNat 64 (fabNs s - rxAge s)),
        delays := (res ++ l.delays).take 8, twoWay := l.twoWay || named }) s
      let s := whenS rise (latch aFAB_EVENT 1) s
      let s := refreshHeld k s
      let s := whenS (rise && isIntra s k) (sendSync k) s
      if m.unaddr then s else conflict addr m.serial false s

def execHello (rx : Rx) (m : HelloMsg) (s : State) : Out := done (effHello rx m s)

/-- Sync with a neighbour is complete when its whole list has come and nothing it lists is lacking. -/
def syncCheck (k : Link) (s : State) : State :=
  linkMod k (fun l => { l with synced := l.synced || (l.gotList && l.want.isEmpty && l.twoWay) }) s

/-- SYNC (R265): a list makes the node ask for what it lacks; a request is answered with LSAs, up to five a frame. -/
def effSync (rx : Rx) (m : SyncMsg) (s : State) : State :=
  match rx.link with
  | none => s
  | some k =>
    let (ok, s) := receive rx (.sync m) s
    if !ok || !isIntra s k then s
    else match m with
      | .sequences last l =>
        let lacks := l.filter (fun x => match lsaFind s x.addr x.serial with
          | none => true
          | some e => e.lsa.seq.toNat < x.seq.toNat)
        let s := linkMod k (fun t => { t with gotList := t.gotList || last, want := t.want ++ lacks.map (fun x => (x.addr, x.serial, x.tomb)) }) s
        let s := eachS (chunks 27 lacks) (fun p t => sendLocal k (.sync (.request (p.map (fun x => (x.addr, x.serial))))) t) s
        syncCheck k s
      | .request l =>
        if s.fab.addressed then
          let found := l.filterMap (fun x => (lsaFind s x.1 x.2).map (fun e => e.lsa))
          eachS (chunks 5 found) (fun p t =>
            let b : Body := .lsa p
            enqueue k ⟨mkHdr t b true (mkAddr (ownZone t) 0xFFF) 0 0, b⟩ false t) s
        else s

def execSync (rx : Rx) (m : SyncMsg) (s : State) : Out := done (effSync rx m s)

/-- The own LSA as it was flooded, come back by a loop: not newer than what is held (R271), and not of a previous run (R270). -/
def ownCopy (l : Lsa) (s : State) : Bool := match lsaFind s l.addr l.serial with | some e => e.lsa = l && !e.tomb | none => false

/-- One LSA that came in: its own from a previous run is overtaken (R270); a new or newer one is stored and goes on (R271). -/
def onLsa (k : Option Link) (l : Lsa) (s : State) : Bool × State :=
  if s.fab.addressed && l.addr = ownAddr s && l.serial = s.serial then
    if l.seq.toNat ≥ s.fab.ownSeq.toNat && !ownCopy l s then
      (false, originate { s with fab := { s.fab with ownSeq := l.seq } })
    else (false, s)
  else
    let newer := match lsaFind s l.addr l.serial with
      | none => true
      | some e => e.lsa.seq.toNat < l.seq.toNat
    if !newer then (false, s)
    else
      let tomb := match k with
        | some k => (linkGet s k).want.any (fun x => x.1 = l.addr && x.2.1 = l.serial && x.2.2)
        | none => false
      let (stored, s) := lsaStore ⟨l, tomb, s.clock⟩ s
      let s := eachS fLinks (fun j t => t
        |> linkMod j (fun u => { u with want := u.want.filter (fun x => !(x.1 = l.addr && x.2.1 = l.serial)) }) |> syncCheck j) s
      (stored && !tomb, if tomb then s else conflict l.addr l.serial l.neighs.isEmpty s)

/-- LSA (R271): what is accepted is flooded on every intra-zone link but the one it came in on; an unaddressed node forwards none. -/
def effLsa (rx : Rx) (l : List Lsa) (s : State) : State :=
  let (ok, s) := receive rx (.lsa l) s
  if !ok then s
  else
    let (kept, s) := l.foldl (fun (acc : List Lsa × State) x =>
      let (st, t) := onLsa rx.link x acc.2
      (if st then acc.1 ++ [x] else acc.1, t)) (([] : List Lsa), s)
    if kept.isEmpty || !s.fab.addressed then s
    else if rx.hdr.hops = 63 then bump aFAB_HOP_DROP s
    else
      let b : Body := .lsa kept
      floodOut rx.link ⟨{ rx.hdr with hops := rx.hdr.hops + 1, length := BitVec.ofNat 10 (payloadLen b) }, b⟩ true s

def execLsa (rx : Rx) (l : List Lsa) (s : State) : Out := done (effLsa rx l s)

/-- Undefined case 5: this node's fabric address is unspecified (R57). -/
def freeAddr (s : State) : State :=
  let w := free s
  let s := triSet aFAB_ADDR (w &&& 0x3F000) (undef aFAB_ADDR (drawn 1 s))
  { s with fab := { s.fab with addressed := w.getLsbD 31, member := w.setWidth 12 } }

/-- FAB_ADDR written (R294). While LIVE it is undefined case 5; before configuration live it is discarded; before end of start it
waits for end of start. -/
def effFabAddrWrite (v : Word) (s : State) : State :=
  let z := BitVec.ofNat 6 (fld v 12 6)
  let n := BitVec.ofNat 12 (fld v 0 12)
  if fabLive s then freeAddr s
  else if !s.cfg.live then s
  else
    let shown := match s.fab.claim with | some c => c.number | none => s.fab.member
    let newZone := z ≠ ownZone s
    let newNum := n ≠ shown
    if !s.fab.up then
      { s with fab := { s.fab with lateZone := if newZone then some z else s.fab.lateZone,
                                   lateMember := if newNum then some n else s.fab.lateMember } }
    else if newZone then
      let s := triSet aFAB_ADDR (wd (z.toNat * 2 ^ 12)) s
      let s := installView [] { s with fab := { s.fab with addressed := false, claim := none, lost := [], exhausted := false,
                                                           fwd := [], member := if newNum then n else 0 } }
      if newNum then beginClaim n 1 true s else claimNext s
    else if newNum then beginClaim n 1 true { s with fab := { s.fab with lost := s.fab.lost.filter (fun x => x ≠ n) } }
    else s

/-- FAB_ADDR_WRITE (R294). -/
def execFabAddrWrite (value : Word) (s : State) : Out := done (effFabAddrWrite value s)

end Sys2Proof.Machine
end

