-- ==== Sys2Proof/Machine/Accords.lean ====
section
/-! DEFINITION. Machine/Accords.lean: Accord evaluators, member reports and means (R198, R210 to R220). -/
namespace Sys2Proof.Machine

def accGet (s : State) (id : BitVec 16) : Option AccItem := tabLook s.call.accords id.toNat

def accSet (id : BitVec 16) (e : AccItem) (s : State) : State :=
  { s with call := { s.call with accords := tabPut s.call.accords id.toNat e } }

def accDel (id : BitVec 16) (s : State) : State := { s with call := { s.call with accords := tabDel s.call.accords id.toNat } }

/-- The role of this node for an item. -/
def roleOf (s : State) (i : Word) : Role := (itemGet s i).role
def isPrimary (s : State) (i : Word) : Bool := roleOf s i = .primary

/-! What the members show (R212). -/

def mActive (m : Member) : Bool := m.known && (m.st = 1 || m.st = 2)
def mUnacked (m : Member) : Bool := m.known && (m.st = 1 || m.st = 3)

def accActive (e : AccItem) : Nat := (e.members.filter (fun x => mActive x.2)).length
def accUnacked (e : AccItem) : Nat := (e.members.filter (fun x => mUnacked x.2)).length

/-- Highest PRIORITY among the unacknowledged members, or among the active ones when none is unacknowledged. -/
def accPrio (e : AccItem) : BitVec 2 :=
  let l := if accUnacked e = 0 then e.members.filter (fun x => mActive x.2) else e.members.filter (fun x => mUnacked x.2)
  l.foldl (fun p x => if p.toNat < x.2.prio.toNat then x.2.prio else p) 0

/-- Members simultaneous with the first-out, not counting it (R215). -/
def accSimul (e : AccItem) : BitVec 8 :=
  BitVec.ofNat 8 (e.entered.filter (fun x => x.1 ≠ e.foTag && ((x.2.toNat : Int) - (e.foOnset.toNat : Int)).natAbs ≤ 100)).length

/-- Members whose latest report is less than 300 ms old (R213, Table 9.9). -/
def isFresh (s : State) (m : Member) : Bool := match m.reportAt with | some t => s.clock - t < 300000000 | none => false

/-! Records (Table 9.3). -/

def accEvent (id : BitVec 16) (e : AccItem) (cause : BitVec 8) (old : BitVec 2) (trig : Word) : AccEvent :=
  { cause := cause, oldState := old.setWidth 8, newState := e.state.setWidth 8, accord := id, prio := (accPrio e).setWidth 8,
    simul := accSimul e, foTag := e.foTag, trigTag := trig, foOnset := e.foOnset, active := BitVec.ofNat 16 (accActive e),
    unacked := BitVec.ofNat 16 (accUnacked e), changeT := e.changeT }

/-- The 32 bytes of Table 9.3 as eight words. -/
def accWords (a : AccEvent) : List Word :=
  [wd (2 + a.cause.toNat * 2 ^ 8 + a.oldState.toNat * 2 ^ 16 + a.newState.toNat * 2 ^ 24),
   wd (a.accord.toNat + a.prio.toNat * 2 ^ 16 + a.simul.toNat * 2 ^ 24), a.foTag, a.trigTag, a.foOnset.setWidth 32,
   (a.foOnset >>> 32).setWidth 32, wd (a.active.toNat + a.unacked.toNat * 2 ^ 16), a.changeT]

/-- The renderers of the pages that show an Accord: those of page set ROSTER_ID (R217, R375). -/
def rendererItems (s : State) (roster : Word) : List Word :=
  (knownItems s).filter (fun i => itemKind i = 3 && fld i 0 16 = roster.toNat)

/-- Send records to the Accord's call manager and renderers (R217). -/
def sendAccord (id : BitVec 16) (a : AccEvent) (s : State) : State :=
  match accordRec s id with
  | none => s
  | some r =>
    let dsts := distinct (itemTargets s (rosterItem r.roster) ++ (rendererItems s r.roster).flatMap (itemTargets s))
    sendItem (accordItem id) dsts (.accordEvent (accordItem id) [a]) s

/-- A change of Accord state, or of its first-out (R217): a primary logs it and sends it. -/
def accGo (id : BitVec 16) (new : BitVec 2) (cause : BitVec 8) (trig : Word) (e : AccItem) (s : State) : State :=
  let e' := { e with state := new, changeT := (fabUs s).setWidth 32, raiseT := if cause = 0 then fabMs s else e.raiseT,
                     simul := accSimul e }
  let s := accSet id e' s
  if isPrimary s (accordItem id) then
    let a := accEvent id e' cause e.state trig
    s |> emit 2 cause (accPrio e') (wd (2 ^ 31 + id.toNat)) (accWords a) |> sendAccord id a
  else s

/-! First-out (R214, R215). -/

/-- The first-out of a rebuild (R218): the earliest onset of a list of entries, and the lowest tag among those simultaneous with it. -/
def firstOut (l : List (Word × BitVec 64)) : Option (Word × BitVec 64) :=
  match l with
  | [] => none
  | x :: r =>
    let e0 := r.foldl (fun m y => min m y.2.toNat) x.2.toNat
    (l.filter (fun y => y.2.toNat - e0 ≤ 100)).foldl
      (fun b y => match b with | none => some y | some z => if y.1.toNat < z.1.toNat then some y else some z) none

/-- An arrival changes the first-out (R214, R215): its onset is earlier, or it is simultaneous and its tag is lower. Of two
simultaneous onsets the tag alone decides (log 127). -/
def betterFo (tag : Word) (o : BitVec 64) (e : AccItem) : Bool :=
  if ((o.toNat : Int) - (e.foOnset.toNat : Int)).natAbs ≤ 100 then tag.toNat < e.foTag.toNat else o.toNat < e.foOnset.toNat

/-- An arrival inside the window: where it changes the first-out, FO_CORRECT names the new one. -/
def refreshFo (id : BitVec 16) (tag : Word) (o : BitVec 64) (s : State) : State :=
  match accGet s id with
  | none => s
  | some e =>
    if !betterFo tag o e then s
    else
      let e' := { e with foTag := tag, foOnset := o }
      if tag = e.foTag then accSet id e' s
      else
        let s := whenS (isPrimary s (accordItem id)) (fun u => u |> bump aACC_FO_FIX |> latch aCALL_EVENT 1) s
        accGo id e.state 5 tag e' s

/-- Back to QUIET: no first-out, no window, no timer. -/
def accQuiet (e : AccItem) : AccItem :=
  { e with foTag := 0xFFFFFFFF, foOnset := 0, winOpen := false, entered := [], groupAt := none }

/-- One move of Table 9.2 by member trig, whose entry into ACTIVE_UNACK had the onset given. -/
def accMove (id : BitVec 16) (trig : Word) (on : Option (BitVec 64)) (s : State) : State :=
  match accGet s id with
  | none => s
  | some e =>
    let act := accActive e ≠ 0
    let una := accUnacked e ≠ 0
    let delay := match accordRec s id with | some r => r.groupDelay | none => 0
    if e.state = 0 then
      if !act then s
      else
        let o := match on with | some o => o | none => (tabGet {} e.members trig.toNat).onset
        let e := { e with winOpen := true, entered := [(trig, o)], foTag := trig, foOnset := o }
        if delay = 0 then accGo id 2 0 trig e s
        else accGo id 1 1 trig { e with groupAt := some (s.clock + delay * 10000000) } s
    else if e.state = 1 then (if act then s else accGo id 0 2 trig (accQuiet e) s)
    else if !act && !una then accGo id 0 4 trig (accQuiet e) s
    else if e.state = 2 && !una then accGo id 3 3 trig e s
    else if e.state = 3 && una then accGo id 2 0 trig e s
    else s

/-- A change of a member's known state moves the Accord (R212); a member that is active and acknowledged from the first makes two moves. -/
def accStep (id : BitVec 16) (trig : Word) (on : Option (BitVec 64)) (s : State) : State := accMove id trig none (accMove id trig on s)

/-- What a frame says of one member. -/
structure MemberInfo where
  tag : Word
  st : BitVec 3
  frozen : Bool
  quality : BitVec 8
  occ : BitVec 16
  value : F32
  onset : BitVec 64
  prio : BitVec 2
  cond : BitVec 4
  report : Bool
  at_ : BitVec 64
  deriving DecidableEq, Repr

/-- Whether time a is not earlier than time b, modulo 2^32, the nearer way round. -/
def notEarlier (a b : Word) : Bool := (a - b).toNat < 2 ^ 31

/-- What a report tells of the mean (R216): value and quality are those of the latest report, whatever events came since. -/
def takeReport (x : MemberInfo) (now : Nat) (k : Member) : Member :=
  if x.report && k.repT.toNat ≤ x.at_.toNat then
    { k with quality := x.quality, value := x.value, reportAt := some now, repT := x.at_ }
  else k

/-- Apply an event or a report to a member's latest known state (R212), and then to the Accord (R214). -/
def applyMember (id : BitVec 16) (x : MemberInfo) (s : State) : State :=
  match accGet s id, accordRec s id with
  | some e, some r =>
    if !r.members.contains x.tag then s
    else
      let k := takeReport x s.clock (tabGet {} e.members x.tag.toNat)
      if k.known && x.at_.toNat < k.at_.toNat then accSet id { e with members := tabPut e.members x.tag.toNat k } s
      else
        let entered := x.st = 1 && (!k.known || k.st ≠ 1 || k.occ ≠ x.occ)
        let m : Member := { k with st := x.st, frozen := x.frozen, occ := x.occ, onset := x.onset, prio := x.prio, cond := x.cond,
                                   at_ := x.at_, known := true }
        let e := { e with members := tabPut e.members x.tag.toNat m }
        if e.rebuilding then accSet id e s
        else
          let s :=
            if entered && e.state ≠ 0 then
              let late := !e.winOpen && x.onset.toNat < e.foOnset.toNat
              let e := { e with entered := e.entered.filter (fun y => y.1 ≠ x.tag) ++ [(x.tag, x.onset)] }
              let s := accSet id e s
              if e.winOpen then refreshFo id x.tag x.onset s
              else whenS (late && !x.report && isPrimary s (accordItem id)) (fun u => u |> bump aACC_LATE_MEMBER |> latch aCALL_EVENT 6) s
            else accSet id e s
          accStep id x.tag (if entered then some x.onset else none) s
  | _, _ => s

/-- A record of an ALARM_EVENT frame as an evaluator takes it. -/
def infoOfEvent (rx : Rx) (s : State) (a : AlmEvent) : MemberInfo :=
  { tag := a.tag, st := a.newState.setWidth 3, frozen := false, quality := a.quality, occ := a.occ, value := a.value, onset := a.onset,
    prio := a.prio.setWidth 2, cond := a.cond.setWidth 4, report := false, at_ := nearTime (fabUs s) rx.hdr.time }

/-- An entry of a member report as an evaluator takes it; the onset is completed from its 32 bits. -/
def infoOfReport (rx : Rx) (s : State) (m : MemberEntry) : MemberInfo :=
  { tag := wd (rx.hdr.src.toNat * 4096 + m.index.toNat), st := m.state, frozen := m.frozen, quality := m.quality, occ := m.occ,
    value := m.value, onset := fullOnset (fabUs s) m.onset, prio := m.prio, cond := m.cond, report := true,
    at_ := nearTime (fabUs s) rx.hdr.time }

/-- An evaluator's side of ALARM_EVENT. -/
def accOnEvents (rx : Rx) (id : BitVec 16) (l : List AlmEvent) (s : State) : State :=
  eachS l (fun a t => applyMember id (infoOfEvent rx t a) t) s

/-! Rebuild (R218). -/

/-- Set the state from what has been reported, with the window closed and no group delay. -/
def accDecide (id : BitVec 16) (s : State) : State :=
  match accGet s id with
  | none => s
  | some e =>
    let new : BitVec 2 := if accUnacked e ≠ 0 then 2 else if accActive e ≠ 0 then 3 else 0
    let l := (e.members.filter (fun x => mActive x.2 || mUnacked x.2)).map (fun x => (wd x.1, x.2.onset))
    let fo := (firstOut l).getD (0xFFFFFFFF, 0)
    let e := { e with rebuilding := false, winOpen := false, groupAt := none, entered := l, foTag := fo.1, foOnset := fo.2 }
    s |> bump aACC_REBUILD |> latch aCALL_EVENT 0 |> accGo id new 6 0xFFFFFFFF e

/-- Every member node of the membership view has reported. -/
def accAllReported (s : State) (id : BitVec 16) (e : AccItem) : Bool :=
  match accordRec s id with
  | some r => (distinct (r.members.map tagAddr)).all (fun a => !inView s a || e.reported.contains a)
  | none => false

/-- EVALUATOR_REBUILD (R218): every member node has reported, or 1 s has passed. -/
def effEvaluatorRebuild (id : BitVec 16) (s : State) : State :=
  match accGet s id with
  | some e => if e.rebuilding then accDecide id s else s
  | none => s

def execEvaluatorRebuild (accord : BitVec 16) (s : State) : Out := done (effEvaluatorRebuild accord s)

/-- An evaluator's side of MEMBER_REPORT. -/
def accOnReport (rx : Rx) (id : BitVec 16) (m : MemberReport) (s : State) : State :=
  let s := eachS m.entries (fun x t => applyMember id (infoOfReport rx t x) t) s
  match accGet s id with
  | none => s
  | some e => accSet id { e with reported := distinct (rx.hdr.src :: e.reported) } s

/-- Evaluator taken up by this node: it starts with a rebuild (Table 12.4). -/
def accStart (id : BitVec 16) (s : State) : State := accSet id { startedAt := s.clock } s

/-! The timers. -/

/-- FIRST_OUT_WINDOW_CLOSE (R214). -/
def effFirstOutWindowClose (id : BitVec 16) (s : State) : State :=
  match accGet s id with
  | some e => accSet id { e with winOpen := false } s
  | none => s

def execFirstOutWindowClose (accord : BitVec 16) (s : State) : Out := done (effFirstOutWindowClose accord s)

/-- GROUP_DELAY_EXPIRY (R212, Table 9.2). -/
def effGroupDelayExpiry (id : BitVec 16) (s : State) : State :=
  match accGet s id with
  | some e => if e.state = 1 && accActive e ≠ 0 then accStep id 0xFFFFFFFF none (accGo id 2 0 0xFFFFFFFF { e with groupAt := none } s) else s
  | none => s

def execGroupDelayExpiry (accord : BitVec 16) (s : State) : Out := done (effGroupDelayExpiry accord s)

/-! Means (R198, R216). -/

/-- The members whose values an Accord mean may take: the condition is a limit or DEVIATION. -/
def meanCond (c : BitVec 4) : Bool := c = 1 || c = 2 || c = 3 || c = 4 || c = 6

/-- The mean of one Accord, its good mark, and how many unstated values it took: the mean of no member is not stated. -/
def accMean (s : State) (e : AccItem) : F32 × Bool :=
  let all := e.members.filter (fun x => x.2.known && meanCond x.2.cond)
  let l := all.filter (fun x => isFresh s x.2 && x.2.quality = qGOOD)
  if l.isEmpty then (free s, false) else (fMean (l.map (fun x => x.2.value)), l.length ≥ 2 && 2 * l.length ≥ all.length)

/-- The nodes a mean goes to: every member node, and those that asked within the last 3 s. -/
def meanDsts (s : State) (id : BitVec 16) (e : AccItem) : List Addr :=
  let nodes := match accordRec s id with | some r => r.members.map tagAddr | none => []
  distinct (nodes ++ (e.requesters.filter (fun x => s.clock - x.2 ≤ 3000000000)).map (fun x => x.1))

/-- The mean of one evaluator, sent from the first period in which any member has reported (R218). -/
def meanOf (id : BitVec 16) (s : State) : State :=
  match accGet s id with
  | none => s
  | some e =>
    if e.reported.isEmpty then s
    else
      let (m, g) := accMean s e
      let s := accSet id { e with mean := m, meanGood := g } (drawn 1 s)
      if isPrimary s (accordItem id) then sendItem (accordItem id) (meanDsts s id e) (.mean (accordItem id) (.mean id m g)) s else s

/-- MEAN_PERIOD (R216). -/
def effMeanPeriod (s : State) : State := eachS (s.call.accords.map (fun x => BitVec.ofNat 16 x.1)) meanOf s

def execMeanPeriod (s : State) : Out := done (effMeanPeriod s)

/-- The Accords that DEVIATION points here name and of which this node holds no member (R216). -/
def meanWanted (s : State) : List (BitVec 16) :=
  distinct ((s.alm.points.filter (fun x => pCondition x.2 = 6)).map (fun x => pAccord x.2) |>.filter (fun id =>
    match accordRec s id with
    | some r => !r.members.any (fun t => tagAddr t = pairAddr s)
    | none => !s.alm.points.any (fun x => pAccordMember x.2 && pAccord x.2 = id)))

/-- MEAN_REQUEST_SEND (R216). -/
def effMeanRequestSend (s : State) : State :=
  eachS (meanWanted s) (fun id t =>
    sendItem (accordItem id) (itemTargets t (accordItem id)) (.mean (accordItem id) (.request id)) t) s

def execMeanRequestSend (s : State) : Out := done (effMeanRequestSend s)

/-- MEAN (R198, R216). -/
def effMean (rx : Rx) (item : Word) (m : MeanMsg) (s : State) : State :=
  let (ok, s) := receive rx (.mean item m) s
  if !ok then s
  else match m with
    | .request id =>
      match accGet s id with
      | some e => accSet id { e with requesters := (rx.hdr.src, s.clock) :: e.requesters.filter (fun x => x.1 ≠ rx.hdr.src) } s
      | none => s
    | .mean id v g => { s with alm := { s.alm with means := tabPut s.alm.means id.toNat ⟨v, g, s.clock⟩ } }

def execMean (rx : Rx) (item : Word) (m : MeanMsg) (s : State) : Out := done (effMean rx item m s)

/-! Reports. -/

/-- ACCORD_STATE_REPORT (R217). -/
def effAccordStateReport (s : State) : State :=
  eachS s.call.accords (fun x t =>
    let id := BitVec.ofNat 16 x.1
    if isPrimary t (accordItem id) && !x.2.rebuilding then sendAccord id (accEvent id x.2 7 x.2.state 0xFFFFFFFF) t else t) s

def execAccordStateReport (s : State) : Out := done (effAccordStateReport s)

/-- A point's entry of a member report (Table 9.1). -/
def memberEntry (s : State) (i : Nat) (p : Point) : MemberEntry :=
  { index := BitVec.ofNat 12 i, prio := BitVec.ofNat 2 (pPriority p), state := stCode p.st, frozen := p.frozen,
    cond := BitVec.ofNat 4 (pCondition p), quality := if pCondition p = 10 then 0 else (inVal s (pSource p)).quality, occ := p.occ,
    value := p.lastValue, onset := p.onset }

/-- Where a point's reports go (R211): item and key. -/
def reportKey (p : Point) : Option (Word × Word) :=
  if pAccordMember p then some (accordItem (pAccord p), (pAccord p).setWidth 32)
  else if p.roster ≠ 0xFFFFFFFF then some (rosterItem p.roster, p.roster ||| 0x80000000)
  else none

/-- The report of one item, in frames of up to 15 entries. -/
def sendReport (num : Word) (k : Word × Word) (s : State) : State :=
  let l := (s.alm.points.filter (fun x => reportKey x.2 = some k)).map (fun x => memberEntry s x.1 x.2)
  let parts := chunks 15 l
  eachS (itemTargets s k.1) (fun a t =>
    eachS ((List.range parts.length).zip parts) (fun x t => sendUni a 4 (.memberReport ⟨k.2, BitVec.ofNat 16 x.1, num, x.2⟩) t) t) s

/-- MEMBER_REPORT_SEND (R211); a standby reports only during double-send (R334, R337). -/
def effMemberReportSend (s : State) : State :=
  if !s.alm.running || (s.cfg.guarded.rolePref ≠ 0 && !s.pair.ownHeld && !s.pair.doubleSend) then s
  else
    let num := s.call.reportNum + 1
    let s := { s with call := { s.call with reportNum := num } }
    eachS (distinct (s.alm.points.filterMap (fun x => reportKey x.2))) (sendReport num) s

def execMemberReportSend (s : State) : Out := done (effMemberReportSend s)

/-! Acknowledgement (R219, R220). -/

/-- A group acknowledgement: one ACK command to each unacknowledged member, with the OCC last known. -/
def groupAck (id : BitVec 16) (s : State) : State :=
  match accGet s id, accordRec s id with
  | some e, some r =>
    if !isPrimary s (accordItem id) || !r.flags.getLsbD 0 then s
    else eachS (e.members.filter (fun x => mUnacked x.2)) (fun x t =>
      sendItem (accordItem id) [tagAddr (wd x.1)] (.alarmCommand (accordItem id) (wd x.1) (.ack x.2.occ)) t) s
  | _, _ => s

/-- ALARM_COMMAND (R187, R219, R220): for an own point it is queued for the next command phase; an ACK naming an Accord goes to
its evaluator here. -/
def effAlarmCommand (rx : Rx) (item tag : Word) (op : AlmOp) (s : State) : State :=
  let (ok, s) := receive rx (.alarmCommand item tag op) s
  if !ok then s
  else if tag.getLsbD 31 then (match op with | .ack _ => groupAck (tag.setWidth 16) s | _ => s)
  else if s.fab.addressed && tagAddr tag = pairAddr s then queueCmd (tag.setWidth 12) op s
  else s

def execAlarmCommand (rx : Rx) (item : Word) (tag : Word) (op : AlmOp) (s : State) : Out := done (effAlarmCommand rx item tag op s)

/-! Views (Tables 9.9 and 9.12). -/

def accView (s : State) (j : Nat) : Word :=
  let id := s.call.accSel
  match accGet s id with
  | none => 0
  | some e =>
    match j with
    | 0 =>
      let left := match e.groupAt with | some t => if e.state = 1 then (t - s.clock) / 10000000 else 0 | none => 0
      bit (isPrimary s (accordItem id)) 31 ||| bit (roleOf s (accordItem id) = .shadow) 30 |||
        wd (e.state.toNat * 2 ^ 24 + (accPrio e).toNat * 2 ^ 20 + left % 2 ^ 19) ||| bit e.winOpen 23 ||| bit e.meanGood 22
    | 1 => e.foTag
    | 2 => e.foOnset.setWidth 32
    | 3 => (e.foOnset >>> 32).setWidth 32
    | 4 => wd (accActive e * 2 ^ 16 + accUnacked e)
    | 5 => wd (e.simul.toNat * 2 ^ 16 + (e.members.filter (fun x => isFresh s x.2)).length)
    | 6 => e.mean
    | 7 => e.raiseT
    | _ => 0

end Sys2Proof.Machine
end

