-- ==== Sys2Proof/Machine/Filter.lean ====
section
/-! DEFINITION. Machine/Filter.lean: the conversion path of a channel (R138, R139, R145): the modulator's bits, the sinc^4 first stage,
the interpolator of the resampled rates and the sinc^3 second stage. -/
namespace Sys2Proof.Machine

/-- Coefficient m of 1 / (1 - z)^3 and of 1 / (1 - z)^4. -/
def binom3 (m : Int) : Int := if m < 0 then 0 else (m + 1) * (m + 2) / 2
def binom4 (m : Int) : Int := if m < 0 then 0 else (m + 1) * (m + 2) * (m + 3) / 6

/-- Weight of the sample k back in a sinc^3 decimator by d, and in a sinc^4 decimator by d: three, or four, running sums over d. -/
def sinc3 (d : Nat) (k : Nat) : Int := binom3 k - 3 * binom3 ((k : Int) - d) + 3 * binom3 ((k : Int) - 2 * d)
def sinc4 (d : Nat) (k : Nat) : Int :=
  binom4 k - 4 * binom4 ((k : Int) - d) + 6 * binom4 ((k : Int) - 2 * d) - 4 * binom4 ((k : Int) - 3 * d)

/-- A first-stage output (R138): the sinc^4 sum over the last 512 modulator samples, newest first, in units of 2^-28 of full scale. -/
def firstStage (mods : List Bool) : Int :=
  ((mods.take 512).zipIdx.map (fun x => if x.1 then sinc4 128 x.2 else -sinc4 128 x.2)).sum

/-- One modulator sample: every 128th completes a first-stage output. -/
def takeBit (f : Filt) (b : Bool) : Filt :=
  let mods := b :: f.mods
  if f.phase + 1 < 128 then { f with mods := mods, phase := f.phase + 1 }
  else { f with mods := mods, phase := 0, s1 := firstStage mods :: f.s1 }

/-- The modulator samples since the last command about the channel, oldest first. The coarse detector looks back over 2,048 of them,
and three output periods at 45 Hz hold 6,400 first-stage outputs. -/
def takeBits (bits : List Bool) (f : Filt) : Filt :=
  let g := bits.foldl takeBit f
  { g with mods := g.mods.take 2048, s1 := g.s1.take 6405 }

/-- A restart clears the second stage and the interpolator (R141), but for the five outputs that a resampled rate has waited for. -/
def clearStage2 (f : Filt) : Filt := { f with s1 := f.s1.take 5, periods := [] }

/-- The second stage at a direct rate: the sinc^3 sum over the periods since the restart point, three at most, in full scales. -/
def directOut (d : Nat) (f : Filt) : Rat :=
  (((f.s1.take (d * f.periods.length)).zipIdx.map (fun x => x.1 * sinc3 d x.2)).sum : Rat) / ((d : Rat) ^ 3 * 2 ^ 28)

/-- The fourth-order interpolator: the polynomial through five first-stage outputs, newest first, at u outputs back. The spec gives
its order; that it is this polynomial, two outputs back from the newest, is PRESUMED (log entry 116). -/
def interp4 (y : Nat → Rat) (u : Rat) : Rat :=
  y 0 * ((u - 1) * (u - 2) * (u - 3) * (u - 4) / 24) - y 1 * (u * (u - 2) * (u - 3) * (u - 4) / 6) +
    y 2 * (u * (u - 1) * (u - 3) * (u - 4) / 4) - y 3 * (u * (u - 1) * (u - 2) * (u - 4) / 6) +
    y 4 * (u * (u - 1) * (u - 2) * (u - 3) / 24)

/-- The resampled sample t outputs back from the instant. -/
def resampled (a : Array Int) (phase : Nat) (t : Rat) : Rat :=
  let back := t - (phase : Rat) / 128
  let i := back.ceil.toNat
  interp4 (fun j => ((a.getD (i + j) 0 : Int) : Rat)) (back + 2 - i)

/-- The second stage at a resampled rate (R139, R145): m samples in each period, spaced evenly in that period's own spacing (in
first-stage outputs, newest period first), weighted by sample and not by time. -/
def resampledOut (m : Nat) (spacing : List Rat) (f : Filt) : Rat :=
  let a := f.s1.toArray
  let start := fun j => ((spacing.take j).map (fun (d : Rat) => d * (m : Rat))).sum
  let part := fun (x : Rat × Nat) =>
    ((List.range m).map (fun k => (sinc3 m (x.2 * m + k) : Rat) * resampled a f.phase (start x.2 + k * x.1))).sum
  (spacing.zipIdx.map part).sum / ((m : Rat) ^ 3 * 2 ^ 28)

/-- A filter output in full scales as AFE_RAW shows it: full range is ±0x7FFFFF (Table 5.13). -/
def rawOf (x : Rat) : BitVec 24 :=
  let v := (x * 8388607 + 1 / 2).floor
  BitVec.ofInt 24 (max (-8388607) (min 8388607 v))

/-- The filter output at an instant, for a code of AFE_RATE (Table 6.1); none for the reserved code. The frequencies are in mHz. -/
def filterOut (rate : Nat) (f : Filt) : Option (BitVec 24) :=
  match rate with
  | 0 => some (rawOf (directOut 1600 f))
  | 1 => some (rawOf (directOut 320 f))
  | 2 => some (rawOf (resampledOut 256 (f.periods.map (fun _ => (25 : Rat) / 24)) f))
  | 3 => some (rawOf (directOut 32 f))
  | 4 => some (rawOf (directOut 4 f))
  | 5 => some (rawOf (resampledOut 1024 (f.periods.map (fun (q : Nat) => 78125 / (q : Rat))) f))
  | 6 => some (rawOf (resampledOut 1024 (f.periods.map (fun (q : Nat) => 93750 / (q : Rat))) f))
  | _ => none

/-- An output period ends (R145): the frequency it ran at joins those of the two before it. -/
def endPeriod (freq : Nat) (f : Filt) : Filt := { f with periods := (freq :: f.periods).take 3 }

/-- The coarse mean over the last 1 ms window, in full scales (R152): (2 × density - 1) of its bits. -/
def coarseMean (f : Filt) : Rat :=
  if f.mods.isEmpty then 0 else 2 * ((f.mods.count true : Nat) : Rat) / (f.mods.length : Nat) - 1

end Sys2Proof.Machine
end

