-- ==== Sys2Proof/Machine/Thermo.lean ====
section
/-! DEFINITION. Machine/Thermo.lean: the thermocouple reference functions of IEC 60584-1 for types J, K, N, T and E (R120). The spec
names the standard and gives no coefficient; those below are PRESUMED from the standard (log entry 48). -/
namespace Sys2Proof.Machine

/-- A polynomial in T (°C) with the coefficients n / 10^k, the constant term first. -/
def polyAt (cs : List (Int × Nat)) (t : Rat) : Rat := cs.foldr (fun c acc => (c.1 : Rat) / 10 ^ c.2 + acc * t) 0

def tcJLo : List (Int × Nat) :=
  [(0, 0), (50381187815, 12), (3047583693, 14), (-8568106572, 17), (13228195295, 20), (-17052958337, 23), (20948090697, 26),
   (-12538395336, 29), (15631725697, 33)]

def tcJHi : List (Int × Nat) :=
  [(29645625681, 8), (-14976127786, 10), (31787103924, 13), (-31847686701, 16), (15720819004, 19), (-30691369056, 23)]

def tcKLo : List (Int × Nat) :=
  [(0, 0), (39450128025, 12), (23622373598, 15), (-32858906784, 17), (-49904828777, 19), (-67509059173, 21),
   (-57410327428, 23), (-31088872894, 25), (-10451609365, 27), (-19889266878, 30), (-16322697486, 33)]

def tcKHi : List (Int × Nat) :=
  [(-17600413686, 12), (38921204975, 12), (18558770032, 15), (-99457592874, 18), (31840945719, 20), (-56072844889, 23),
   (56075059059, 26), (-32020720003, 29), (97151147152, 33), (-12104721275, 36)]

def tcNLo : List (Int × Nat) :=
  [(0, 0), (26159105962, 12), (10957484228, 15), (-93841111554, 18), (-46412039759, 21), (-26303357716, 22),
   (-22653438003, 24), (-76089300791, 27), (-93419667835, 30)]

def tcNHi : List (Int × Nat) :=
  [(0, 0), (25929394601, 12), (1571014188, 14), (43825627237, 18), (-25261169794, 20), (64311819339, 23), (-10063471519, 25),
   (99745338992, 29), (-60863245607, 32), (20849229339, 35), (-30682196151, 39)]

def tcTLo : List (Int × Nat) :=
  [(0, 0), (38748106364, 12), (44194434347, 15), (11844323105, 17), (20032973554, 18), (90138019559, 20), (22651156593, 21),
   (36071154205, 23), (38493939883, 25), (28213521925, 27), (14251594779, 29), (48768662286, 32), (1079553927, 33),
   (13945027062, 37), (79795153927, 41)]

def tcTHi : List (Int × Nat) :=
  [(0, 0), (38748106364, 12), (3329222788, 14), (20618243404, 17), (-21882256846, 19), (10996880928, 21), (-30815758772, 24),
   (4547913529, 26), (-27512901673, 30)]

def tcELo : List (Int × Nat) :=
  [(0, 0), (58665508708, 12), (45410977124, 15), (-77998048686, 17), (-25800160843, 18), (-59452583057, 20),
   (-93214058667, 22), (-10287605534, 23), (-80370123621, 26), (-43979497391, 28), (-16414776355, 30), (-39673619516, 33),
   (-55827328721, 36), (-34657842013, 39)]

def tcEHi : List (Int × Nat) :=
  [(0, 0), (5866550871, 11), (45032275582, 15), (28908407212, 18), (-33056896652, 20), (6502440327, 22), (-19197495504, 26),
   (-12536600497, 28), (21489217569, 31), (-14388041782, 34), (35960899481, 38)]

/-- exp(-x) for x ≥ 0, in units of 2^-96: the series at x / 2^12, squared twelve times. -/
def expNeg (x : Rat) : Int :=
  let one : Int := 2 ^ 96
  let y : Int := (x * one / 2 ^ 12).floor
  let e := [9, 8, 7, 6, 5, 4, 3, 2, 1].foldl (fun acc k => one - y * acc / (one * k)) one
  (List.range 12).foldl (fun a _ => a * a / one) (max e 0)

/-- The Gaussian term of type K above 0 °C. -/
def tcKExp (t : Rat) : Rat :=
  1185976 / 10 ^ 7 * ((expNeg (1183432 / 10 ^ 10 * ((t - 1269686 / 10 ^ 4) * (t - 1269686 / 10 ^ 4))) : Rat) / 2 ^ 96)

/-- The thermoelectric voltage in mV of a type (TYPE code) at a temperature in °C. -/
def tcVoltage (ty : Nat) (t : Rat) : Rat :=
  if ty = 0x10 then polyAt (if t ≤ 760 then tcJLo else tcJHi) t
  else if ty = 0x11 then (if t ≤ 0 then polyAt tcKLo t else polyAt tcKHi t + tcKExp t)
  else if ty = 0x12 then polyAt (if t ≤ 0 then tcNLo else tcNHi) t
  else if ty = 0x13 then polyAt (if t ≤ 0 then tcTLo else tcTHi) t
  else polyAt (if t ≤ 0 then tcELo else tcEHi) t

/-- The extent of a type's function, in °C (Table 5.6). -/
def tcExtent (ty : Nat) : Int × Int :=
  if ty = 0x10 then (-210, 1200) else if ty = 0x11 then (-270, 1372) else if ty = 0x12 then (-270, 1300)
  else if ty = 0x13 then (-270, 400) else (-270, 1000)

/-- The largest temperature of the interval, in units of 2^-20 °C, whose voltage is at most `mv`: the inverse by bisection. -/
def tcSearch (fuel : Nat) (ty : Nat) (mv : Rat) (lo hi : Int) : Int :=
  match fuel with
  | 0 => lo
  | f + 1 =>
    let m := (lo + hi) / 2
    if tcVoltage ty ((m : Rat) / 2 ^ 20) ≤ mv then tcSearch f ty mv m hi else tcSearch f ty mv lo m

/-- A rational as the nearest binary32. -/
def fOfQ (q : Rat) : F32 := fOfRat q.num q.den

/-- A finite binary32 as a rational. -/
def fToQ (v : F32) : Rat := (fFix v : Rat) / 2 ^ 149

end Sys2Proof.Machine
end

