-- ==== Sys2Proof/Machine/AfeOps.lean ====
section
/-! DEFINITION. Machine/AfeOps.lean: what the analogue rules share: types and their ranges, excitation, quality, restarts. -/
namespace Sys2Proof.Machine

/-! The node's condition. -/

/-- A member of a pair (R81). -/
def isPair (s : State) : Bool := s.cfg.guarded.rolePref ≠ 0

/-- The unit drives outputs and reads its terminals: a single unit, or the holder of OWN (R8, R331). -/
def isActiveUnit (s : State) : Bool := !isPair s || s.pair.ownHeld

/-- The node is past end of start and not yet in Drydown. -/
def isRunning (s : State) : Bool := s.sys.phase = .running

/-- The front end is connected to the terminals. -/
def frontClosed (s : State) : Bool := isRunning s && isActiveUnit s

/-- AFE_STATUS.ISOLATED (Table 5.17): standby, safe idle, or Drydown from step 2. -/
def isolatedBit (s : State) : Bool :=
  s.sys.phase = .safeIdle || s.sys.phase = .drydown || (isRunning s && !isActiveUnit s)

/-- The causes of HELD of one value-table entry (Table 6.8, rank 2). -/
def heldEntry (s : State) (e : Nat) : Bool := s.sys.phase = .drydown || s.afe.pause || s.afe.gap.getLsbD e

/-- The switchover gap of an entry ends (R332). -/
def endGap (e : Nat) (s : State) : State :=
  { s with afe := { s.afe with gap := s.afe.gap &&& ~~~(BitVec.ofNat 112 (2 ^ e)) } }

/-- On a unit that does not hold OWN, accessing a register that the partner owns leaves it unspecified (R343, undefined case 8). -/
def ownedWrite (a : Nat) (f : State → State) (s : State) : State :=
  if isPair s && !s.pair.ownHeld then
    let v := free s
    drawn 1 (if isTri a then triSet a v s else regSet a v s)
  else f s

/-! Channel, block and configuration. -/

def chan (s : State) (n : Fin 64) : Chan := s.afe.chans[n]

def chanMod (n : Fin 64) (f : Chan → Chan) (s : State) : State :=
  { s with afe := { s.afe with chans := s.afe.chans.set n (f s.afe.chans[n]) } }

/-- Block of a channel and channel of a block (R109). -/
def blkOf (n : Fin 64) : Fin 8 := ⟨n.val / 8, by omega⟩
def chOf (b : Fin 8) (k : Fin 8) : Fin 64 := ⟨b.val * 8 + k.val, by omega⟩
def blkChans (b : Fin 8) : List (Fin 64) := (List.finRange 8).map (chOf b)

def blk (s : State) (b : Fin 8) : Blk := s.afe.blks[b]

def blkMod (b : Fin 8) (f : Blk → Blk) (s : State) : State :=
  { s with afe := { s.afe with blks := s.afe.blks.set b (f s.afe.blks[b]) } }

/-- Fields of AFE_CFG[n] (Table 5.14); the word is triplicated. -/
def cfgWord (s : State) (n : Fin 64) : Word := voted s (aAFE n 0)
def typeOf (w : Word) : Nat := fld w 0 8
def wiresOf (w : Word) : Nat := fld w 8 4
def rangeOf (w : Word) : Nat := fld w 12 2
def chType (s : State) (n : Fin 64) : Nat := typeOf (cfgWord s n)

def isRtd (t : Nat) : Bool := t = 0x01 || t = 0x02
def isTc (t : Nat) : Bool := 0x10 ≤ t && t ≤ 0x14
def isLoop (t : Nat) : Bool := t = 0x30 || t = 0x31
def isVexc (t : Nat) : Bool := t = 0x20 || t = 0x50
/-- A type with an excitation source of its own (Table 5.7). -/
def hasExc (t : Nat) : Bool := isRtd t || isVexc t || t = 0x30
/-- A type of Table 5.4. -/
def typeDefined (t : Nat) : Bool := t = 0 || isRtd t || isTc t || isLoop t || isVexc t || t = 0x40

/-- AFE_CFG[n] holds a reserved encoding (Table 5.14), or a field that "must be 0" for its type is not. The field maps call only the
former reserved; that a channel of a type in use takes the latter as undefined case 1 too is a DESIGN CHOICE (log entry 117). An
unused channel (TYPE 0x00) uses none of those fields. -/
def cfgWordBad (w : Word) : Bool :=
  let t := typeOf w
  let x := wiresOf w
  !typeDefined t || (t ≠ 0 && t ≠ 0x20 && rangeOf w ≠ 0) ||
    (if isRtd t then !(x = 2 || x = 3 || x = 4) else if t = 0x50 then !(x = 3 || x = 5) else x ≠ 0)

/-- AFE_EXC[n] holds a reserved encoding for a type (Table 5.15, R124), or breaks a "must be 0" of the type in use (DESIGN CHOICE,
log entry 117). -/
def excWordBad (t : Nat) (w : Word) : Bool :=
  let i := fld w 14 2
  let v := fld w 0 10
  i ≥ 2 || v > 900 || (t ≠ 0 && !isRtd t && i ≠ 0) || (t ≠ 0 && !isVexc t && v ≠ 0) || (t = 0x02 && i = 1)

/-- The remaining configuration words (Tables 5.13 and 5.16, R116, R122). MODE is ignored for types other than thermocouples. -/
def rateWordBad (w : Word) : Bool := fld w 0 3 = 7
def cjWordBad (t : Nat) (w : Word) : Bool := isTc t && fld w 0 2 = 3
def fZero (v : F32) : Bool := v &&& 0x7FFFFFFF = 0
def limitsBad (lo hi : F32) : Bool := fLe hi lo && !(fZero lo && fZero hi)
/-- AFE_LEAD outside 0.0 to 50.0 on a 2-wire RTD, or not 0.0 on another type in use: the field map marks neither as reserved, and
that the model takes both as undefined case 1 is a DESIGN CHOICE (log entry 117). -/
def leadBad (t x : Nat) (lead : F32) : Bool :=
  if t = 0 then false
  else if isRtd t && x = 2 then !(fLe 0 lead && fLe lead (fOfInt 50)) else !fZero lead

/-- A threshold byte of AFE_HEALTH[n] (Table 6.14). -/
def threshBad (b : Nat) : Bool := b ≠ 0 && b ≠ 0xFF && (b / 16 > 6 || b % 16 = 0)
def healthWordBad (t : Nat) (w : Word) : Bool :=
  threshBad (fld w 24 8) || threshBad (fld w 16 8) || (fld w 0 2 = 3 && t ≠ 0 && !isLoop t)
def health2WordBad (w : Word) : Bool := fld w 0 4 = 0 || fld w 0 4 > 4

/-- SPRITZ, ignored for types 0x00, 0x30 and 0x31 (Table 6.14). -/
def spritzMode (s : State) (n : Fin 64) : Nat := fld (regGet s (aAFE n 0x24)) 0 2

/-- The plug of a block is accepted (R111). -/
def plugOk (s : State) (b : Fin 8) : Bool := (blk s b).plug = some (BitVec.ofNat 3 b.val)
def miscoded (s : State) (b : Fin 8) : Bool := (blk s b).plug.isSome && !plugOk s b

/-- The channel's excitation source is on (R124). -/
def excOn (s : State) (n : Fin 64) : Bool :=
  frontClosed s && hasExc (chType s n) && plugOk s (blkOf n) && !(chan s n).shed

/-- The channel converts (R137). -/
def converting (s : State) (n : Fin 64) : Bool := frontClosed s && chType s n ≠ 0

/-- A channel that its spritz slot serves (R149). -/
def served (s : State) (n : Fin 64) : Bool :=
  let t := chType s n
  t ≠ 0 && !isLoop t && spritzMode s n ≠ 0 && plugOk s (blkOf n) && frontClosed s

/-! Cold junction (R129 to R131). -/

def cjMode (s : State) (n : Fin 64) : Nat := fld (regGet s (aAFE n 0x0C)) 0 2
def cjFallback (s : State) (n : Fin 64) : F32 :=
  fOfRat ((regGet s (aAFE n 0x0C)).extractLsb' 16 16).toInt 100
def cjRemote (s : State) (n : Fin 64) : Nat := fld (regGet s (aAFE n 0x0C)) 2 10
def cjRemoteOk (s : State) (n : Fin 64) : Bool := (valGet s (cjRemote s n)).quality = qGOOD

/-- AFE_STATUS.CJ_SUBST and CJ_DEGRADED. -/
def cjSubst (s : State) (n : Fin 64) : Bool :=
  let b := blk s (blkOf n)
  isTc (chType s n) &&
    ((cjMode s n = 0 && b.cj1Fail && b.cj2Fail) || (cjMode s n = 2 && !cjRemoteOk s n))
def cjDegraded (s : State) (n : Fin 64) : Bool :=
  let b := blk s (blkOf n)
  isTc (chType s n) && cjMode s n = 0 && (b.cj1Fail != b.cj2Fail)

/-- The cold-junction temperature a sample uses. -/
def cjTemp (s : State) (n : Fin 64) : F32 :=
  let b := blk s (blkOf n)
  if cjMode s n = 0 then
    if b.cj1Fail && b.cj2Fail then cjFallback s n
    else if b.cj1Fail then b.cj2
    else if b.cj2Fail then b.cj1
    else fAdd b.cj1 (fDiv (fMul (fSub b.cj2 b.cj1) (fOfInt (n.val % 8 : Nat))) (fOfInt 7))
  else if cjMode s n = 2 then (if cjRemoteOk s n then (valGet s (cjRemote s n)).value else cjFallback s n)
  else cjFallback s n

/-! Quality (R153 to R156). -/

/-- AWAIT_SPRITZ (R158): a channel that is not served does not wait. -/
def awaiting (s : State) (n : Fin 64) : Bool := (chan s n).await && served s n

def breakCause (s : State) (n : Fin 64) : Bool :=
  let c := chan s n
  (blk s (blkOf n)).plug.isNone || ((c.open_ || c.short) && c.mode = 1) || c.excLost || c.loopOpen

def excCause (s : State) (n : Fin 64) : Bool :=
  let c := chan s n
  c.excLimit || c.shed || c.excUnreg || ((blk s (blkOf n)).foldback && excOn s n) || miscoded s (blkOf n)

def rangeCause (c : Chan) : Bool := c.modRange || c.termRange || c.measHi || c.measLo || c.limHi || c.limLo

/-- A settle runs: from the cause of a restart to its third instant (R141, R156). -/
def settling (c : Chan) : Bool := c.pending || c.remain ≠ 0

/-- The highest-ranked code whose cause is present (Table 6.8). -/
def chanQuality (s : State) (n : Fin 64) : BitVec 8 :=
  let c := chan s n
  if chType s n = 0 then qOUT_OF_SERVICE
  else if !(isRunning s || s.sys.phase = .drydown) then qOUT_OF_SERVICE
  else if heldEntry s n.val then qHELD
  else if !frontClosed s then qOUT_OF_SERVICE
  else if excCause s n then qBAD_EXC
  else if breakCause s n then qBAD_BREAK
  else if rangeCause c then qBAD_RANGE
  else if settling c || awaiting s n then qSETTLING
  else if cjSubst s n then qSUBSTITUTED
  else qGOOD

/-- The value each code shows (Table 6.7). -/
def shownValue (c : Chan) (q : BitVec 8) : F32 :=
  if q = qSETTLING || q = qHELD then c.lastGood else if q = qOUT_OF_SERVICE then 0 else c.latest

/-- Entering BAD_BREAK is counted, and GOOD and SUBSTITUTED keep the value as the last good one (R155, Table 6.13). -/
def notePublish (n : Fin 64) (old q : BitVec 8) (s : State) : State :=
  let s := whenS (q = qBAD_BREAK && old ≠ qBAD_BREAK) (bump (aAFE n 0xDC)) s
  whenS (q = qGOOD || q = qSUBSTITUTED) (chanMod n (fun c => { c with lastGood := c.latest })) s

/-- The rank of a code in Table 6.8; GOOD has none of its causes. -/
def qRank (q : BitVec 8) : Nat :=
  if q = qOUT_OF_SERVICE then 1 else if q = qHELD then 2 else if q = qBAD_EXC then 4 else if q = qBAD_BREAK then 5
  else if q = qBAD_RANGE then 6 else if q = qSETTLING then 7 else if q = qSUBSTITUTED then 8 else 9

/-- The higher-ranked of two codes. -/
def qHigher (a b : BitVec 8) : BitVec 8 := if qRank a ≤ qRank b then a else b

/-- An ended cause of a code is remembered up to the next instant (R159). -/
def noteGone (n : Fin 64) (q : BitVec 8) (s : State) : State := chanMod n (fun c => { c with gone := qHigher q c.gone }) s

/-- A quality-only write: the quality of the causes present, and the value that Table 6.7 gives for it (R156). -/
def publishQuality (n : Fin 64) (s : State) : State :=
  let q := chanQuality s n
  let old := (valGet s n.val).quality
  let s := whenS (qRank old < qRank q) (noteGone n old) s
  notePublish n old q (writeQuality n.val q (shownValue (chan s n) q) s)

/-- R156 between instants: a cause that ends, or one of rank 2 to 6 that is found, acts at once; FALLBACK in place of the cold
junction, of rank 8, waits for the next instant. -/
def refreshQuality (n : Fin 64) (s : State) : State :=
  let q := chanQuality s n
  let old := (valGet s n.val).quality
  whenS (q ≠ old && !(q = qSUBSTITUTED && old = qGOOD)) (publishQuality n) s

/-- A value-table entry has been written: a thermocouple that read it as not GOOD leaves SUBSTITUTED at once (R131, R156). -/
def refreshRemotes (s : State) : State :=
  eachS (List.finRange 64) (fun n t =>
    whenS (isTc (chType t n) && cjMode t n = 2 && (valGet t n.val).quality = qSUBSTITUTED) (refreshQuality n) t) s

/-- A filter restart (R141, R142): the settle in progress is cut short, the restart waits for its restart point, and SETTLING is
written with the last good value (R156). While it waits, REMAIN shows 0 (DESIGN CHOICE, log entry 118). -/
def restartChan (n : Fin 64) (s : State) : State :=
  if converting s n then
    let s := whenS ((chan s n).remain ≠ 0) (latch (aAFE n 0xC4) 6) s
    let s := chanMod n (fun c => { c with pending := true, remain := 0, measHi := false, measLo := false, limHi := false, limLo := false }) s
    publishQuality n s
  else refreshQuality n s

/-- AWAIT_SPRITZ on a served channel (R158), then the restart it goes with. -/
def restartAwait (n : Fin 64) (s : State) : State :=
  restartChan n (chanMod n (fun c => { c with await := served s n }) s)

/-- The BAD_EXC and BAD_BREAK causes of a channel, OPEN and SHORT last (Table 6.8, ranks 4 and 5). -/
def faultCauses (s : State) (n : Fin 64) : List Bool :=
  let c := chan s n
  [c.excLimit, c.shed, c.excUnreg, (blk s (blkOf n)).foldback && excOn s n, miscoded s (blkOf n), (blk s (blkOf n)).plug.isNone,
   c.excLost, c.loopOpen, c.open_ && c.mode = 1, c.short && c.mode = 1]

/-- After a change from `before`: the end of one of those causes restarts the filter (R142, R157). -/
def afterCauses (n : Fin 64) (before s : State) : State :=
  let ended := List.zipWith (fun was now => was && !now) (faultCauses before n) (faultCauses s n)
  if (ended.drop 5).take 3 |>.any id then restartAwait n s
  else if ended.any id then restartChan n s
  else refreshQuality n s

/-- A channel that stops converting: its modulator stops, no settle, no wait. -/
def stopChan (n : Fin 64) (s : State) : State :=
  refreshQuality n (chanMod n (fun c => { c with pending := false, remain := 0, await := false, draw := 0, filt := {} }) s)

/-- Every channel's quality after a cause common to all changed. -/
def refreshAll (s : State) : State := eachS (List.finRange 64) refreshQuality s

/-! Mains frequency of tracking channels (R145, R146). -/

def rateCode (s : State) (n : Fin 64) : Nat := fld (regGet s (aAFE n 0x08)) 0 3
def isTracking (s : State) (n : Fin 64) : Bool := rateCode s n = 5 || rateCode s n = 6

/-- The frequency, in mHz, that the next output period takes. -/
def nextFreq (s : State) (n : Fin 64) : Nat :=
  match s.afe.freqSeen with
  | some f => f
  | none => if rateCode s n = 6 then 60000 else 50000

/-- TRACK_FROZEN follows SUP_MAINS_FREQ.VALID; its rising edge is latched. -/
def refreshTrack (n : Fin 64) (s : State) : State :=
  let z := converting s n && isTracking s n && !s.sup.freqValid
  let s := whenS (z && !(chan s n).trackFrozen) (latch (aAFE n 0xC4) 7) s
  chanMod n (fun c => { c with trackFrozen := z }) s

def refreshTracks (s : State) : State := eachS (List.finRange 64) refreshTrack s

/-- AFE_RATE_NOW (Table 6.13), in units of 0.001 S/s. -/
def rateNow (s : State) (n : Fin 64) : Nat :=
  if !converting s n then 0
  else match rateCode s n with
    | 0 => 10000 | 1 => 50000 | 2 => 60000 | 3 => 500000 | 4 => 4000000
    | 5 => (chan s n).freq / 5 | 6 => (chan s n).freq / 6 | _ => 0

/-! Registers formed from the state (Tables 5.17, 5.19 and 6.16). -/

def afeStatus (s : State) (n : Fin 64) : Word :=
  let c := chan s n
  bit (cjSubst s n) 8 ||| bit (cjDegraded s n) 7 ||| bit (miscoded s (blkOf n)) 6 ||| bit (blk s (blkOf n)).plug.isNone 5 |||
    bit (isolatedBit s) 4 ||| bit c.excUnreg 3 ||| bit c.loopLimit 2 ||| bit c.shed 1 ||| bit c.excLimit 0

def afeHstatus (s : State) (n : Fin 64) : Word :=
  let c := chan s n
  bit c.trackFrozen 15 ||| bit (awaiting s n) 14 ||| bit (heldEntry s n.val) 13 ||| bit (c.limHi || c.measHi) 12 |||
    bit (c.limLo || c.measLo) 11 ||| bit c.termRange 10 ||| bit c.modRange 9 ||| bit c.loopOpen 8 ||| bit c.excLost 7 |||
    bit c.short 6 ||| bit c.open_ 5 ||| bit (!served s n) 4 ||| wd c.remain

def blkStatus (s : State) (b : Fin 8) : Word :=
  let k := blk s b
  wd ((k.plug.getD 0).toNat * 2 ^ 9) ||| bit k.plug.isSome 8 ||| bit (miscoded s b) 7 ||| bit k.foldback 6 |||
    bit k.excLimit 5 ||| bit k.cjSpread 4 ||| bit k.cj2Fail 3 ||| bit k.cj1Fail 2

def blkShed (s : State) (b : Fin 8) : Word :=
  (List.finRange 8).foldl (fun w k => w ||| bit (chan s (chOf b k)).shed k.val) 0

/-- A record of severity sev about a channel (Table 16.2). -/
def chanRec (sev : BitVec 2) (n : Fin 64) (s : State) : State := blockRec sev (aAFE n 0) (aAFE n 0x9C) [] s

/-- The undefined case 1 of a channel (R57). -/
def chanUndef (n : Fin 64) (s : State) : State := undef (aAFE n 0) s

end Sys2Proof.Machine
end

