-- ==== Sys2Proof/Machine/IoOps.lean ====
section
/-! DEFINITION. Machine/IoOps.lean: repeat-output codes, effective commands, switches and fixatives (R164 to R184). -/
namespace Sys2Proof.Machine

def ar (s : State) (k : Fin 8) : ArSt := s.io.ars[k]
def arMod (k : Fin 8) (f : ArSt → ArSt) (s : State) : State := { s with io := { s.io with ars := s.io.ars.set k (f s.io.ars[k]) } }
def di (s : State) (k : Fin 32) : DiSt := s.io.dis[k]
def diMod (k : Fin 32) (f : DiSt → DiSt) (s : State) : State := { s with io := { s.io with dis := s.io.dis.set k (f s.io.dis[k]) } }
def dout (s : State) (k : Fin 16) : DoSt := s.io.dos[k]
def doMod (k : Fin 16) (f : DoSt → DoSt) (s : State) : State := { s with io := { s.io with dos := s.io.dos.set k (f s.io.dos[k]) } }

/-! Repeat outputs (R164 to R166). -/

def arForced (s : State) (k : Fin 8) : Bool := (regGet s (aAR k 0x34)).getLsbD 31
def arFaultCode (s : State) (k : Fin 8) : BitVec 16 := (regGet s (aAR k 0x0C)).setWidth 16
def arSource (s : State) (k : Fin 8) : Nat := fld (regGet s (aAR k 0)) 0 6
/-- OUTk is high-impedance: a pair member, known as one from before a reset too, that does not hold OWN. There AR_FORCE[k] is only a
copy of the active's register (R334, R343). -/
def arHighz (s : State) : Bool := (isPair s || s.sup.pairUnit) && !s.pair.ownHeld

/-- The conversion of R164: the code and CLAMP. The product f × 65535 is rounded once, to nearest with ties to even (DESIGN CHOICE, log
entry 125). -/
def arConvert (s : State) (k : Fin 8) (v : F32) : BitVec 16 × Bool :=
  let f := fAdd (fMul (regGet s (aAR k 4)) v) (regGet s (aAR k 8))
  if isNaN f then (arFaultCode s k, true)
  else if fLt f 0 then (0, true)
  else if fLt fOne f then (0xFFFF, true)
  else (BitVec.ofNat 16 (divRne ((fFix f).toNat * 65535) (2 ^ 149)), false)

/-- One row of Table 7.1 as driven: code, CLAMP, HOLDING, FAULT, and whether the output counts as driven. -/
structure ArDrive where
  code : BitVec 16
  clamp : Bool := false
  holding : Bool := false
  fault : Bool := false
  driven : Bool
  deriving DecidableEq, Repr

/-- Table 7.1, first row that applies; the row of AR_FORCE is the active's or a single unit's (R343). -/
def arDrive (s : State) (k : Fin 8) : ArDrive :=
  let a := ar s k
  let e := valGet s (arSource s k)
  let conv := fun (v : F32) (hold : Bool) =>
    let (c, cl) := arConvert s k v
    { code := c, clamp := cl, holding := hold, fault := isNaN (fAdd (fMul (regGet s (aAR k 4)) v) (regGet s (aAR k 8))), driven := true : ArDrive }
  if arHighz s then { code := 0, driven := a.driven }
  else if arForced s k then { code := (regGet s (aAR k 0x34)).setWidth 16, driven := a.driven }
  else if !(isRunning s || s.sys.phase = .drydown) || !(regGet s (aAR k 0)).getLsbD 8 then { code := 0, driven := a.driven }
  else if s.sys.phase = .drydown then { code := arFaultCode s k, fault := true, driven := a.driven }
  else if poisoned s (aAR k 0) then { code := (free s).setWidth 16, driven := a.driven }
  else if e.quality = qGOOD then conv e.value false
  else if (e.quality = qSETTLING || e.quality = qHELD) && a.driven then conv (a.held.getD e.value) true
  else { code := arFaultCode s k, fault := true, driven := a.driven }

/-- Drive the code of Table 7.1 (R165); entering the fault code is counted. -/
def arUpdate (k : Fin 8) (s : State) : State :=
  let a := ar s k
  let d := arDrive s k
  let s := whenS (poisoned s (aAR k 0)) (drawn 1) s
  let s := whenS (d.clamp && !a.clamp) (latch (aAR k 0x30) 2) s
  let s := whenS (d.fault && !a.fault) (fun t => bump (aAR k 0x38) (latch (aAR k 0x30) 0 t)) s
  let good := (valGet s (arSource s k)).quality = qGOOD
  arMod k (fun a => { a with code := d.code, clamp := d.clamp, holding := d.holding, fault := d.fault, driven := d.driven,
                             held := if good then none else a.held }) s

def arUpdateAll (s : State) : State := eachS (List.finRange 8) arUpdate s

def arStatus (s : State) (k : Fin 8) : Word :=
  let a := ar s k
  bit (arForced s k) 7 ||| bit (arHighz s) 6 ||| bit a.dev 5 ||| bit a.refHigh 4 ||| bit a.refLow 3 ||| bit a.clamp 2 |||
    bit a.holding 1 ||| bit a.fault 0

/-! Digital outputs (R173 to R176). -/

def doCfg (s : State) (k : Fin 16) : Word := regGet s (aDO k 0)
def doSource (s : State) (k : Fin 16) : Nat := fld (doCfg s k) 0 2
def doForce (s : State) (k : Fin 16) : Word := regGet s (aDO k 0x14)
def doForced (s : State) (k : Fin 16) : Bool := (doForce s k).getLsbD 1
def doHold (s : State) (k : Fin 16) : Nat := fld (regGet s (aDO k 4)) 0 7
def doFail (s : State) (k : Fin 16) : Nat := fld (voted s (aDO k 0x10)) 0 2

/-- FS-A feeds DO00 to DO07, FS-B the others (R173). -/
def supplyOf (s : State) (k : Fin 16) : FieldSupply := if k.val < 8 then s.sup.a else s.sup.b
def supplyMod (x : Supply) (f : FieldSupply → FieldSupply) (s : State) : State :=
  match x with
  | .fsA => { s with sup := { s.sup with a := f s.sup.a } }
  | .fsB => { s with sup := { s.sup with b := f s.sup.b } }
def outputsOf (x : Supply) : List (Fin 16) := (List.finRange 16).filter (fun k => (x = .fsA) = (k.val < 8))

/-- The effective command (R175); unspecified after an undefined case of the output (R57). -/
def doCmd (s : State) (k : Fin 16) : Bool :=
  let d := dout s k
  if d.fix = .hold && !doForced s k && doSource s k ≠ 0 then d.fixState
  else if poisoned s (aDO k 0) then (free s).getLsbD k.val
  else if doSource s k = 0 then false
  else if doForced s k then (doForce s k).getLsbD 0
  else if d.stale then (if doFail s k = 0 then false else if doFail s k = 1 then true else d.cmd)
  else d.cmd

/-- The switch conducts (R174, R180). -/
def doOn (s : State) (k : Fin 16) : Bool :=
  let d := dout s k
  !d.tsd && !d.tsdLatched && !(supplyOf s k).absent && !(supplyOf s k).below12 &&
    (match d.fix with | .released => false | .hold => d.fixState | .track => doCmd s k)

/-- Diagnostics that end when the switch is OFF or ON (Table 7.5); a fail state in use is voted (R50). -/
def doRefresh (k : Fin 16) (s : State) : State :=
  let s := whenS (dout s k).stale (useFail k) s
  if doOn s k then doMod k (fun d => { d with openOff := false, extDrive := false }) s
  else doMod k (fun d => { d with openOn := false, limit := false }) s

def doRefreshAll (s : State) : State := eachS (List.finRange 16) doRefresh s

/-! Fixatives (R180, R181). -/

/-- TRACK to HOLD: the state at the last keep-alive, which was `ago` ns before; the timer starts there (R181). -/
def fixFreeze (ago : Nat) (k : Fin 16) (s : State) : State :=
  if (dout s k).fix = .track then
    let s := whenS (dout s k).stale (useFail k) s
    let c := doCmd s k
    doMod k (fun d => { d with fix := .hold, fixState := c, holdFrom := s.clock - ago, holdLen := doHold s k,
                               latchTsd := (doCfg s k).getLsbD 2 }) s
  else s

/-- The freeze line reaches all sixteen fixatives. -/
def freezeAll (s : State) : State := eachS (List.finRange 16) (fixFreeze 0) s

def fixRelease (k : Fin 16) (s : State) : State := doRefresh k (doMod k (fun d => { d with fix := .released }) s)

/-- RELEASED to TRACK, where no cause of release remains (Table 7.7). -/
def fixTrack (k : Fin 16) (s : State) : State :=
  if isRunning s && isActiveUnit s && doSource s k ≠ 0 && (dout s k).fix = .released && !(supplyOf s k).absent &&
      !(supplyOf s k).below12 then
    doRefresh k (doMod k (fun d => { d with fix := .track }) s)
  else s

/-- HOLD to TRACK: the logic takes the output up at a state given (R100, R180). -/
def fixTakeUp (k : Fin 16) (s : State) : State :=
  if (dout s k).fix = .hold then doRefresh k (doMod k (fun d => { d with fix := .track }) s) else s

/-- The restart rule of R174 that a shutdown goes by: RESTART, or while the node's logic has no configuration, the rule the fixative kept. -/
def tsdLatches (s : State) (k : Fin 16) : Bool := if s.cfg.live then (doCfg s k).getLsbD 2 else (dout s k).latchTsd

/-- Hold remaining, in ms (Table 7.10). -/
def fixLeft (s : State) (k : Fin 16) : Nat :=
  let d := dout s k
  if d.fix = .hold then d.holdLen * 100 - (s.clock - d.holdFrom) / 1000000 else 0

def fixCode (f : Fix) : Nat := match f with | .released => 0 | .track => 1 | .hold => 2

def doState (s : State) (k : Fin 16) : Word :=
  let d := dout s k
  wd (fixCode d.fix * 2 ^ 14) ||| bit d.stale 13 ||| bit (doForced s k) 12 ||| bit (supplyOf s k).absent 11 |||
    bit d.extDrive 10 ||| bit d.openOff 9 ||| bit d.openOn 8 ||| bit d.tsdLatched 7 ||| bit d.tsd 6 ||| bit d.limit 5 |||
    bit (doCmd s k) 1 ||| bit (doOn s k) 0

def diState (s : State) (k : Fin 32) : Word :=
  let d := di s k
  wd (min (d.ua / 100) 63 * 2 ^ 26 + d.count.toNat * 2 ^ 16) ||| bit d.brk 4 ||| bit (d.ua < 350) 3 ||| bit d.raw 2 ||| bit d.pub 0

/-- Reserved encodings (Tables 7.8, 7.11 and 7.13, R176). -/
def diCfgBad (w : Word) : Bool := fld w 6 10 = 0
def doCfgBad (w : Word) : Bool := fld w 0 2 ≥ 2
def doFixBad (w : Word) : Bool := fld w 0 7 < 5 || fld w 0 7 > 100
def doFailBad (w : Word) : Bool := fld w 0 2 = 3

end Sys2Proof.Machine
end

