-- ==== Sys2Proof/Machine/FieldIo.lean ====
section
/-! DEFINITION. Machine/FieldIo.lean: repeat outputs, digital inputs, digital outputs and fixatives (chapter 7). -/
namespace Sys2Proof.Machine

/-! Repeat outputs (R165, R167). -/

/-- REF and OUTk measured at the tick, in mV, against the code driven up to it (R167). While OUTk is high-impedance no code is driven,
and no deviation counts (DESIGN CHOICE, log entry 126). -/
def arMeasure (k : Fin 8) (ref out : Nat) (s : State) : State :=
  let a := ar s k
  let off := !arHighz s && 200 * (65535 * (out : Int) - (ref : Int) * a.code.toNat).natAbs > 65535 * (ref + 2000)
  let cnt := if off = a.dev then 0 else a.devCnt + 1
  let dev := if cnt ≥ 3 then off else a.dev
  let lo := ref < 900
  let hi := ref > 12500
  let s := whenS (dev && !a.dev) (latch (aAR k 0x30) 4) s
  let s := whenS ((lo && !a.refLow) || (hi && !a.refHigh)) (latch (aAR k 0x30) 3) s
  arMod k (fun a => { a with ref := BitVec.ofNat 16 (min ref 65535), out := BitVec.ofNat 16 (min out 65535), refLow := lo,
                             refHigh := hi, dev := dev, devCnt := if cnt ≥ 3 then 0 else cnt }) s

/-- REPEAT_OUTPUT_TICK (R165 to R167). -/
def effRepeatOutputTick (meas : List (Nat × Nat)) (s : State) : State :=
  eachS (List.finRange 8) (fun k t => let m := meas.getD k.val (0, 0); arUpdate k (arMeasure k m.1 m.2 t)) s

def execRepeatOutputTick (meas : List (Nat × Nat)) (s : State) : Out := done (effRepeatOutputTick meas s)

/-! Digital inputs (R168 to R172). -/

/-- A changed DI_CFG word takes effect at this sample (R172). -/
def diApply (w : Word) (d : DiSt) : DiSt :=
  let n := fld w 6 10
  let d1 := if d.count.toNat > n then { d with count := BitVec.ofNat 10 n } else d
  let d2 := if w.getLsbD 0 && !d.cfg.getLsbD 0 then { d1 with count := 0, out := false, taken := 0 } else d1
  { d2 with cfg := w }

/-- The counter filter and the break counter of one sample (R168 to R170): `mv` at the terminal, `ua` the input current. -/
def diFilter (mv ua : Nat) (d : DiSt) : DiSt :=
  let n := fld d.cfg 6 10
  let x := if mv ≥ 9000 then true else if mv ≤ 8000 then false else d.raw
  let c := if x && d.count.toNat < n then d.count + 1 else if !x && d.count ≠ 0 then d.count - 1 else d.count
  let o := if c = 0 then false else if c.toNat = n then true else d.out
  let low := ua < 350
  let bc := if low = d.brk then 0 else d.brkCnt + 1
  { d with raw := x, count := c, out := o, ua := ua, taken := min (d.taken + 1) 1024, brk := if bc ≥ 20 then low else d.brk,
           brkCnt := if bc ≥ 20 then 0 else bc }

/-- The quality of an input's entry (Table 7.2). -/
def diQuality (s : State) (k : Fin 32) : BitVec 8 :=
  let d := di s k
  if !d.cfg.getLsbD 0 || !frontClosed s then qOUT_OF_SERVICE
  else if heldEntry s (64 + k.val) then qHELD
  else if d.brk && d.cfg.getLsbD 2 then qBAD_BREAK
  else if d.taken < fld d.cfg 6 10 then qSETTLING
  else qGOOD

/-- One input's sample. After an undefined case of the input, what its filter gives is unspecified (R57). -/
def diOne (k : Fin 32) (mv ua : Nat) (s : State) : State :=
  let old := di s k
  let new := diFilter mv ua (diApply (regGet s (aDI k 0)) old)
  let new := if poisoned s (aDI k 0) then { new with count := (free s).setWidth 10, out := (free s).getLsbD 31 } else new
  let s := whenS (poisoned s (aDI k 0)) (drawn 1) s
  let s := diMod k (fun _ => new) s
  let s := whenS (new.brk && !old.brk) (fun t => bump (aDI k 0x1C) (latch (aDI k 0x14) 1 t)) s
  let s := whenS (new.out != old.out) (bump (aDI k 0x18)) s
  let s := endGap (64 + k.val) s
  let q := diQuality s k
  let p := if q = qOUT_OF_SERVICE then false else if q = qHELD then old.pub else new.out != new.cfg.getLsbD 1
  let s := whenS (p != old.pub) (latch (aDI k 0x14) 0) s
  let s := diMod k (fun d => { d with pub := p }) s
  writeSample (64 + k.val) q (if p then fOne else 0) (fabUs s) s

/-- The read-back of one output: its voltage in mV and current in mA (R171, R173). -/
def doReadBack (k : Fin 16) (mv ma : Nat) (s : State) : State :=
  let s := doMod k (fun d => { d with mv := BitVec.ofNat 16 (min mv 65535), ma := BitVec.ofNat 16 (min ma 65535) }) s
  let s := endGap (96 + k.val) s
  let e := 96 + k.val
  let q := if !frontClosed s then qOUT_OF_SERVICE else if heldEntry s e then qHELD
    else if (supplyOf s k).absent then qBAD_EXC else qGOOD
  let v := if q = qOUT_OF_SERVICE then 0 else if q = qHELD then (valGet s e).value else fOfRat mv 1000
  writeSample e q v (fabUs s) s

/-- The partner's latest heartbeat or checkpoint shows an output commanded ON (R179). -/
def partnerOn (s : State) (k : Fin 16) : Bool := s.pair.partnerCmd.getLsbD k.val

/-- A standby compares each read-back with the partner's commands (R334). -/
def doCompare (k : Fin 16) (mv : Nat) (s : State) : State :=
  let bad := s.pair.state = .standby && (if partnerOn s k then mv < 4000 && !(supplyOf s k).absent else mv > 10000)
  { s with pair := { s.pair with diagCnt := s.pair.diagCnt.set k (if bad then s.pair.diagCnt[k] + 1 else 0) } }

/-- DI_SAMPLE (R168 to R172): the 1 ms sample of the I/O island: `ins` lists mV and µA of each input, `outs` mV and mA of each
output. Drydown stops it from its step 2; in safe idle it goes on, the entries being OUT_OF_SERVICE (Table 7.2). -/
def effDiSample (ins outs : List (Nat × Nat)) (s : State) : State :=
  if !(isRunning s || s.sys.phase = .safeIdle) then s
  else
    let s := eachS (List.finRange 32) (fun k t => let m := ins.getD k.val (0, 0); diOne k m.1 m.2 t) s
    refreshRemotes (eachS (List.finRange 16) (fun k t => let m := outs.getD k.val (0, 0); doCompare k m.1 (doReadBack k m.1 m.2 t)) s)

def execDiSample (ins : List (Nat × Nat)) (outs : List (Nat × Nat)) (s : State) : Out := done (effDiSample ins outs s)

/-- DI_CFG_WRITE (R172): the next sample applies it. -/
def effDiCfgWrite (k : Fin 32) (value : Word) (s : State) : State :=
  ownedWrite (aDI k 0) (fun s =>
    let v := value &&& 0xFFC7
    whenS (diCfgBad v) (undef (aDI k 0)) (regSet (aDI k 0) v s)) s

def execDiCfgWrite (k : Fin 32) (value : Word) (s : State) : Out := done (effDiCfgWrite k value s)

/-! Digital outputs (R174 to R179). -/

/-- DO_CURRENT_LIMIT (R174): the limit of a switch that conducts. -/
def effDoCurrentLimit (k : Fin 16) (on : Bool) (s : State) : State :=
  if on = (dout s k).limit then s
  else if on then
    if doOn s k then s |> doMod k (fun d => { d with limit := true }) |> bump (aDO k 0x28) |> latch (aDO k 0x1C) 1 else s
  else doMod k (fun d => { d with limit := false }) s

def execDoCurrentLimit (k : Fin 16) (on : Bool) (s : State) : Out := done (effDoCurrentLimit k on s)

/-- DO_TSD (R174): a switch that conducts is shut down; with RESTART 1 it latches off. -/
def effDoTsd (k : Fin 16) (s : State) : State :=
  if doOn s k then
    let l := tsdLatches s k
    s |> doMod k (fun d => { d with tsd := true, tsdLatched := l }) |> bump (aDO k 0x2C) |> latch (aDO k 0x1C) 2 |> doRefresh k
  else s

def execDoTsd (k : Fin 16) (s : State) : Out := done (effDoTsd k s)

/-- DO_TSD_COOLED (R174). -/
def effDoTsdCooled (k : Fin 16) (s : State) : State := doRefresh k (doMod k (fun d => { d with tsd := false }) s)

def execDoTsdCooled (k : Fin 16) (s : State) : Out := done (effDoTsdCooled k s)

/-- DO_TSD_LATCH_RELEASE (R174): the effective command has been OFF for 10 ms. -/
def effDoTsdLatchRelease (k : Fin 16) (s : State) : State :=
  if doCmd s k then s else doRefresh k (doMod k (fun d => { d with tsdLatched := false }) s)

def execDoTsdLatchRelease (k : Fin 16) (s : State) : Out := done (effDoTsdLatchRelease k s)

/-- STALE counts while the node is active, and not in HANDOVER (R175, R333). -/
def staleCounts (s : State) : Bool := isRunning s && !s.afe.pause && (!isPair s || s.pair.state = .active)

/-- DO_STALE (R175): the fail state comes into use, voted from its copies (R50). -/
def effDoStale (k : Fin 16) (s : State) : State :=
  if staleCounts s && doSource s k = 1 && !(dout s k).stale then
    s |> useFail k |> doMod k (fun d => { d with stale := true }) |> latch (aDO k 0x1C) 6 |> doRefresh k
  else s

def execDoStale (k : Fin 16) (s : State) : Out := done (effDoStale k s)

/-- The latest control-plane command of an output; it clears STALE (R175). -/
def commandOutput (k : Fin 16) (on : Bool) (s : State) : State :=
  doRefresh k (doMod k (fun d => { d with cmd := on, cmdAt := s.clock, stale := false }) s)

/-- OUTPUT_COMMAND (R175). -/
def effOutputCommand (rx : Rx) (item : Word) (c : OutCommand) (s : State) : State :=
  let (ok, s) := receive rx (.outputCommand item c) s
  if ok && isRunning s && isActiveUnit s && !s.afe.pause && doSource s c.output = 1 then commandOutput c.output c.on s else s

def execOutputCommand (rx : Rx) (item : Word) (c : OutCommand) (s : State) : Out := done (effOutputCommand rx item c s)

/-- DO_DIAGNOSTIC_FILTER (R177, R179): the condition has held, or been absent, for its filter time. -/
def effDoDiagnosticFilter (k : Fin 16) (diag : DoDiag) (on : Bool) (s : State) : State :=
  let d := dout s k
  match diag with
  | .openOn =>
    if on && !d.openOn && doOn s k && (doCfg s k).getLsbD 3 then
      latch (aDO k 0x1C) 3 (doMod k (fun d => { d with openOn := true }) s)
    else if !on then doMod k (fun d => { d with openOn := false }) s else s
  | .openOff =>
    if on && !d.openOff && !doOn s k && (doCfg s k).getLsbD 4 then
      latch (aDO k 0x1C) 4 (doMod k (fun d => { d with openOff := true }) s)
    else if !on then doMod k (fun d => { d with openOff := false }) s else s
  | .extDrive =>
    if on && !d.extDrive && !doOn s k && !(isPair s && partnerOn s k) then
      latch (aDO k 0x1C) 5 (doMod k (fun d => { d with extDrive := true }) s)
    else if !on then doMod k (fun d => { d with extDrive := false }) s else s

def execDoDiagnosticFilter (k : Fin 16) (diag : DoDiag) (on : Bool) (s : State) : Out := done (effDoDiagnosticFilter k diag on s)

/-! Fixatives (R180, R181). -/

/-- FIX_KEEPALIVE_LOST (R180, R181): none for 2 ms, and the hold counts from the last. -/
def effFixKeepaliveLost (k : Fin 16) (s : State) : State := fixFreeze 2000000 k s

def execFixKeepaliveLost (k : Fin 16) (s : State) : Out := done (effFixKeepaliveLost k s)

/-- FREEZE_LINE (R180). -/
def effFreezeLine (s : State) : State := freezeAll s

def execFreezeLine (s : State) : Out := done (effFreezeLine s)

/-- FIX_HOLD_END (R181): the output is released OFF, and HOLD_END is kept for the next start. -/
def effFixHoldEnd (k : Fin 16) (s : State) : State :=
  if (dout s k).fix = .hold then fixRelease k (doMod k (fun d => { d with holdEnd := true }) s) else s

def execFixHoldEnd (k : Fin 16) (s : State) : Out := done (effFixHoldEnd k s)

/-- FIX_SUPPLY_RELEASE (R180): the field supply falls below 12.0 V, or recovers. -/
def effFixSupplyRelease (sup : Supply) (low : Bool) (s : State) : State :=
  let s := supplyMod sup (fun f => { f with below12 := low }) s
  if low then eachS (outputsOf sup) fixRelease s else eachS (outputsOf sup) (fun k t => fixTrack k (doRefresh k t)) s

def execFixSupplyRelease (sup : Supply) (low : Bool) (s : State) : Out := done (effFixSupplyRelease sup low s)

/-! Register writes (R176, R182 to R184). -/

/-- Write of AR_CFG, AR_SCALE_A, AR_SCALE_B or AR_FAULT. -/
def arWordWrite (k : Fin 8) (off : Nat) (value : Word) (s : State) : State :=
  ownedWrite (aAR k off)
    (regSet (aAR k off) (if off = 0 then value &&& 0x13F else if off = 0x0C then value &&& 0xFFFF else value)) s

/-- Write of AR_FORCE (RWL): FORCED is latched as it sets. -/
def arForceWrite (k : Fin 8) (value : Word) (s : State) : State :=
  lockGuard (ownedWrite (aAR k 0x34) (fun s =>
    let was := arForced s k
    let s := regSet (aAR k 0x34) (value &&& 0x8000FFFF) s
    whenS (arForced s k && !was) (latch (aAR k 0x30) 1) s)) s

/-- Write of DO_CFG: SOURCE 0b00 releases the fixative, another lets it track again. -/
def doCfgWrite (k : Fin 16) (value : Word) (s : State) : State :=
  ownedWrite (aDO k 0) (fun s =>
    let v := value &&& 0x1F
    let s := whenS (doCfgBad v) (undef (aDO k 0)) (regSet (aDO k 0) v s)
    if doSource s k = 0 then fixRelease k (doMod k (fun d => { d with stale := false }) s) else fixTrack k (doRefresh k s)) s

/-- Write of DO_FIX: it applies from the next entry into HOLD. -/
def doFixWrite (k : Fin 16) (value : Word) (s : State) : State :=
  ownedWrite (aDO k 4) (fun s =>
    let v := value &&& 0x7F
    whenS (doFixBad v) (undef (aDO k 0)) (regSet (aDO k 4) v s)) s

/-- Write of DO_FAILSTATE (RWL and RWT). -/
def doFailWrite (k : Fin 16) (value : Word) (s : State) : State :=
  lockGuard (ownedWrite (aDO k 0x10) (fun s =>
    let v := value &&& 3
    doRefresh k (whenS (doFailBad v) (undef (aDO k 0)) (triSet (aDO k 0x10) v (useFail k s))))) s

/-- Write of DO_FORCE (RWL). -/
def doForceWrite (k : Fin 16) (value : Word) (s : State) : State :=
  lockGuard (ownedWrite (aDO k 0x14) (fun s => doRefresh k (regSet (aDO k 0x14) (value &&& 3) s))) s

end Sys2Proof.Machine
end

