-- ==== Sys2Proof/Machine/PanelOps.lean ====
section
/-! DEFINITION. Machine/PanelOps.lean: frames for panels: records, queues, reports, and what a panel is sent (R237 to R255). -/
namespace Sys2Proof.Machine

def pbPort (s : State) (p : Fin 2) : PbPort := if p = 0 then s.pb.c1 else s.pb.c2

def pbMod (p : Fin 2) (f : PbPort → PbPort) (s : State) : State :=
  if p = 0 then { s with pb := { s.pb with c1 := f s.pb.c1 } } else { s with pb := { s.pb with c2 := f s.pb.c2 } }

/-- Base address of a port's registers. -/
def pbBase (p : Fin 2) : Nat := aPB p 0

/-- Key of a panel in the panel table: port × 64 + panel. -/
def panelKey (p : Fin 2) (q : Fin 64) : Nat := p.val * 64 + q.val

def panelSt (s : State) (p : Fin 2) (q : Fin 64) : PanelSt := tabGet {} s.pb.panels (panelKey p q)

def panelMod (p : Fin 2) (q : Fin 64) (f : PanelSt → PanelSt) (s : State) : State :=
  { s with pb := { s.pb with panels := tabMod {} s.pb.panels (panelKey p q) f } }

/-- A panel's reference (R95); its address is the pair's. -/
def panelRef (s : State) (p : Fin 2) (q : Fin 64) : Word := wd ((pairAddr s).toNat + p.val * 2 ^ 18 + q.val * 2 ^ 19)

/-- Port and panel number of a reference. -/
def refPort (r : Word) : Fin 2 := if r.getLsbD 18 then 1 else 0
def refPanel (r : Word) : Fin 64 := Fin.ofNat 64 (fld r 19 6)

/-- The panel record of a panel on this node (Table 4.10). -/
def panelRec (s : State) (p : Fin 2) (q : Fin 64) : Option PanelRec := s.cfg.panels.find? (fun r => r.port = p && r.panel = q)

/-- The panels of one port, and those that are present (R242). -/
def portPanels (s : State) (p : Fin 2) : List (Fin 64) := (s.cfg.panels.filter (fun r => r.port = p)).map (fun r => r.panel)
def isPresent (s : State) (p : Fin 2) (q : Fin 64) : Bool := (pbPort s p).present.getLsbD q.val

/-- CODE of a message (Table 10.3). -/
def msgCode (m : PanelMsg) : BitVec 16 :=
  match m with
  | .call _ => 0x0001 | .dutyLamp _ _ _ => 0x0002 | .patrol _ _ _ => 0x0003 | .sound _ _ => 0x0004
  | .pageLine _ => 0x0010 | .pageEnd _ _ _ _ => 0x0011 | .nodeBeat _ _ => 0x0020

/-- Class CALL (Table 10.3). -/
def isCallClass (c : BitVec 16) : Bool := c.toNat ≤ 4

/-- A duty frame (R246). -/
def isDutyFrame (m : PanelMsg) : Bool := match m with | .call c => c.duty | _ => false

/-- The record of the panel map for a code and a panel on a port (R238). -/
def sendRec (s : State) (p : Fin 2) (q : Option (Fin 64)) (c : BitVec 16) : Option MsgRec :=
  s.cfg.msgs.find? (fun r => r.port = p && r.code = c && (q.isNone || r.panel = q || r.panel.isNone))

def canSend (s : State) (p : Fin 2) (q : Option (Fin 64)) (c : BitVec 16) : Bool := (sendRec s p q c).isSome

/-- The identifier of a record. -/
def recId (r : MsgRec) : CanId := ⟨r.port, r.ext, r.ident⟩

/-- The record whose identifier and format match a received frame (R237, R238). Of clashing records it is unspecified which one the
port takes (undefined case 6). -/
def matchRec (s : State) (id : CanId) : Option MsgRec :=
  let l := s.cfg.msgs.filter (fun r => recId r = id)
  if poisoned s (aPB id.port 0) then l[(free s).toNat % l.length]? else l.head?

/-- The call number and the stage a report on a frame carries. -/
def frameCall (s : State) (p : Fin 2) (q : Fin 64) (roster : Word) (m : PanelMsg) : BitVec 16 × BitVec 8 :=
  match m with
  | .call c => (c.callNum, c.stage)
  | _ => match tabLook (panelSt s p q).calls roster.toNat with | some c => (c.callNum, c.stage) | none => (0, 0)

/-- Report a frame to the call managers of its roster (R227, R245, R313). -/
def reportFrame (p : Fin 2) (q : Option (Fin 64)) (roster : Word) (m : PanelMsg) (ok : Bool) (sof : BitVec 64) (s : State) : State :=
  match q with
  | none => s
  | some q =>
    let (n, st) := frameCall s p q roster m
    let d : Delivery := ⟨roster, panelRef s p q, n, st, ok, sof⟩
    let recent := (s.pb.callFrom.filter (fun x => x.1 = roster && s.clock - x.2.2 ≤ 10000000000)).map (fun x => x.2.1)
    eachS (distinct (itemTargets s (rosterItem roster) ++ recent)) (fun a t => sendUni a 7 (.deliveryReport d) t) s

/-- Put a duty frame behind the duty frames at the head, any other frame at the end (R246). -/
def insertDuty (f : CanFrame) (l : List CanFrame) : List CanFrame :=
  match l with
  | [] => [f]
  | g :: r => if isDutyFrame g.msg then g :: insertDuty f r else f :: g :: r

/-- Offer a frame to a port (R238, R242, R243, R246, R252, R255). A refresh is never reported (R239). -/
def pbOffer (p : Fin 2) (q : Option (Fin 64)) (roster : Word) (m : PanelMsg) (refresh : Bool) (s : State) : State :=
  let c := msgCode m
  let call := isCallClass c
  let port := pbPort s p
  let lost := fun (t : State) => whenS (call && !refresh) (reportFrame p q roster m false 0) t
  let absent := match q with | some q => c = 1 && !isPresent s p q | none => false
  if port.monitor || s.sys.phase = .drydown then s
  else if !port.up then lost s
  else if !canSend s p q c then lost (bump (aPB p 0x3C) s)
  else if absent then lost s
  else if port.busOff then (if call then lost s else bump (aPB p 0x3C) s)
  else if (if call then port.callq.length ≥ 64 else port.otherq.length ≥ 256) then
    lost (s |> bump (aPB p 0x3C) |> latch (aPB p 8) 5)
  else
    let id := match sendRec s p q c with | some r => recId r | none => ⟨p, false, 0⟩
    let f : CanFrame := { num := s.pb.frameNum, roster := roster, panel := q, code := c, msg := m, queuedAt := s.clock,
                          refresh := refresh, id := id }
    let s := { s with pb := { s.pb with frameNum := s.pb.frameNum + 1 } }
    pbMod p (fun t =>
      if !call then { t with otherq := t.otherq ++ [f] }
      else if isDutyFrame m then { t with callq := insertDuty f t.callq }
      else { t with callq := t.callq ++ [f] }) s

/-! What a panel shows. -/

/-- The sound of a panel: of the rosters' commands the one of the highest priority, silent while the panel is silenced (R221). -/
def panelSound (x : PanelSt) : BitVec 8 × BitVec 8 :=
  let best := x.sounds.foldl (fun (b : BitVec 8 × BitVec 8) y =>
    if y.2.1 ≠ 0 && (b.1 = 0 || y.2.2.toNat > b.2.toNat || (y.2.2 = b.2 && y.2.1.toNat > b.1.toNat)) then y.2 else b) (0, 0)
  if x.silenced then (0, best.2) else best

/-- The roster a sound is sent for: that of its command. -/
def soundRoster (x : PanelSt) : Word :=
  match x.sounds.find? (fun y => y.2 = panelSound { x with silenced := false }) with | some y => wd y.1 | none => 0

/-- SOUND on each change of the panel's sounder command (Table 10.3). -/
def refreshSound (p : Fin 2) (q : Fin 64) (s : State) : State :=
  let x := panelSt s p q
  let v := panelSound x
  if v = x.sound then s
  else s |> panelMod p q (fun x => { x with sound := v }) |> pbOffer p (some q) (soundRoster x) (.sound v.1 v.2) false

/-- Seconds of a patrol as a panel is told them now. -/
def patrolSecs (s : State) (x : BitVec 8 × BitVec 16 × Nat) : BitVec 16 :=
  BitVec.ofNat 16 (min 65535 (x.2.1.toNat + (s.clock - x.2.2) / 1000000000))

def sendCalls (p : Fin 2) (q : Fin 64) (refresh : Bool) (s : State) : State :=
  eachS (panelSt s p q).calls (fun x t => pbOffer p (some q) (wd x.1) (.call x.2) refresh t) s

def sendLamps (p : Fin 2) (q : Fin 64) (s : State) : State :=
  eachS (panelSt s p q).lamps (fun x t => pbOffer p (some q) (wd x.1) (.dutyLamp (wd x.1) x.2.lit x.2.eng) true t) s

def sendPatrols (p : Fin 2) (q : Fin 64) (s : State) : State :=
  eachS (panelSt s p q).patrols (fun x t => pbOffer p (some q) (wd x.1) (.patrol (wd x.1) x.2.1 (patrolSecs t x.2)) true t) s

def sendSound (p : Fin 2) (q : Fin 64) (s : State) : State :=
  let x := panelSt s p q
  pbOffer p (some q) (soundRoster x) (.sound x.sound.1 x.sound.2) true s

/-! Pages (R239, R376). -/

/-- Key of a stored line: page set, page, line. -/
def lineKey (set : BitVec 16) (page : BitVec 8) (line : Nat) : Nat := set.toNat * 4096 + page.toNat * 16 + line

/-- Lines of a page, up to the last stored one. -/
def pageCountOf (s : State) (set : BitVec 16) (page : BitVec 8) : Nat :=
  (List.range 16).foldl (fun n i => if (tabLook s.pb.lines (lineKey set page i)).isSome then i + 1 else n) 0

/-- The lines 0 to count - 1 of a page; one that no renderer has sent yet is blank (log 130). -/
def pageLines (s : State) (set : BitVec 16) (page : BitVec 8) : List PageLine :=
  (List.range (pageCountOf s set page)).map (fun i =>
    match tabLook s.pb.lines (lineKey set page i) with
    | some l => l
    | none => { set := set, page := page, line := BitVec.ofNat 8 i, attr := 0, text := [] })

/-- The 32 bytes of a PAGE_LINE payload (Table 10.6). -/
def pageLineBytes (l : PageLine) : List Byte :=
  leBytes 2 l.set.toNat ++ [l.page, l.line, l.attr, 0, 0, 0] ++ (l.text ++ List.replicate 24 0x20).take 24

/-- PAGE_END of a page, with its CRC over lines 0 to count - 1 (Table 10.6). -/
def pageEndOf (s : State) (set : BitVec 16) (page : BitVec 8) : PanelMsg :=
  let l := pageLines s set page
  .pageEnd set page (BitVec.ofNat 8 l.length) (crc32 (l.flatMap pageLineBytes))

/-- Lines of a page to one panel, then its PAGE_END. -/
def sendPageTo (p : Fin 2) (q : Fin 64) (set : BitVec 16) (page : BitVec 8) (l : List PageLine) (s : State) : State :=
  if l.isEmpty then s
  else eachS l (fun x t => pbOffer p (some q) 0 (.pageLine x) false t) s |> pbOffer p (some q) 0 (pageEndOf s set page) false

/-- Page set of a panel, by its record. -/
def panelSet (s : State) (p : Fin 2) (q : Fin 64) : BitVec 16 := match panelRec s p q with | some r => r.set | none => 0

/-- The page a panel shows: that of its latest beat. -/
def currentPage (s : State) (p : Fin 2) (q : Fin 64) : BitVec 8 := match (panelSt s p q).beat with | some b => b.2.2 | none => 0

/-! Node beats and the state of a port. -/

def nodeBeat (p : Fin 2) (state : BitVec 8) (s : State) : State := pbOffer p none 0 (.nodeBeat (ownSource s) state) true s

/-- One frame into the FIFO, the call queue first (R247). With clashing records or a reserved DEPTH the admission is unspecified
(R57): whether a frame moves, and from which queue. -/
def admitOne (p : Fin 2) (s : State) : State :=
  let t := pbPort s p
  let w := free s
  let odd := poisoned s (aPB p 0)
  let full := if odd then w.getLsbD 0 else t.fifo.length ≥ t.depth.toNat
  let s := whenS odd (drawn 1) s
  if full || t.fifo.length ≥ 32 then s
  else match t.callq, t.otherq, odd && w.getLsbD 1 with
    | f :: r, _, false => pbMod p (fun t => { t with callq := r, fifo := t.fifo ++ [f] }) s
    | _, f :: r, _ => pbMod p (fun t => { t with otherq := r, fifo := t.fifo ++ [f] }) s
    | _, _, _ => s

/-- What the node sends after a recovery, after a take of OWN and after the first beat (R253, R255). The beat passes into the FIFO
before the frames of class CALL are queued, so that it goes first. -/
def sendPortState (p : Fin 2) (s : State) : State :=
  let s := s |> pbMod p (fun t => { t with fresh := false }) |> nodeBeat p 1 |> admitOne p
  let l := (portPanels s p).filter (fun q => isPresent s p q)
  let s := eachS l (fun q t => t |> sendCalls p q false |> sendLamps p q |> sendPatrols p q |> sendSound p q) s
  eachS l (fun q t =>
    let set := panelSet t p q
    let page := currentPage t p q
    sendPageTo p q set page (pageLines t set page) t) s

/-! Reports on frames, withdrawal, flushing. -/

/-- A report on a frame carries its latest start of frame, 0 where it never began (log 129). -/
def frameUndelivered (p : Fin 2) (f : CanFrame) (s : State) : State :=
  whenS (isCallClass f.code && !f.refresh) (reportFrame p f.panel f.roster f.msg false f.ftSof) s

/-- A start of frame in fabric time, by the mark that was in force at it (R245). -/
def sofFabric (s : State) (sof : Word) : BitVec 64 :=
  if (sof - s.pb.tsMark).msb then s.pb.tsPrevFt + (sof - s.pb.tsPrev).setWidth 64
  else s.pb.tsMarkFt + (sof - s.pb.tsMark).setWidth 64

/-- The stamp of a start of frame goes into the record of the frame at the head of the FIFO (R244). -/
def stampHead (p : Fin 2) (sof : Word) (s : State) : State :=
  pbMod p (fun t => { t with fifo := match t.fifo with
    | f :: r => { f with stamp := some sof, ftSof := sofFabric s sof } :: r
    | [] => [] }) s

/-- Withdraw a frame from queue or FIFO (R247). -/
def withdraw (p : Fin 2) (f : CanFrame) (s : State) : State :=
  s |> pbMod p (fun t => { t with callq := t.callq.filter (fun g => g.num ≠ f.num), fifo := t.fifo.filter (fun g => g.num ≠ f.num) })
    |> bump (aPB p 0x3C) |> frameUndelivered p f

/-- The frame at the head of the FIFO, withdrawn where its second has passed (R247). -/
def withdrawLate (p : Fin 2) (s : State) : State :=
  match (pbPort s p).fifo with
  | f :: _ => if f.late then withdraw p f s else s
  | [] => s

/-- Flush FIFO and queues at bus-off (R252). -/
def flushPort (p : Fin 2) (s : State) : State :=
  let t := pbPort s p
  let l := t.fifo ++ t.callq ++ t.otherq
  let s := pbMod p (fun t => { t with fifo := [], callq := [], otherq := [] }) s
  eachS l (fun f t => frameUndelivered p f t) (bumpBy (aPB p 0x3C) l.length s)

/-- PASSIVE (Table 10.13). -/
def pbPassive (t : PbPort) : Bool := t.tec ≥ 128 || t.rec_ ≥ 128
def pbWarning (t : PbPort) : Bool := t.tec ≥ 96 || t.rec_ ≥ 96

/-- Change the error counts; the rising edge of PASSIVE is latched (R251). -/
def pbCounts (p : Fin 2) (f : PbPort → PbPort) (s : State) : State :=
  let was := pbPassive (pbPort s p)
  let s := pbMod p f s
  whenS (!was && pbPassive (pbPort s p)) (latch (aPB p 8) 1) s

/-- A frame received without error, whether or not a record matches it: its stamp is kept, and REC falls by one, or from above 127 to a value from 119 to 127 that ISO 11898-1 leaves open. -/
def pbReceived (p : Fin 2) (sof : Word) (s : State) : State :=
  let s := whenS (poisoned s (aPB p 0)) (drawn 1) (pbMod p (fun t => { t with rxSof := some sof }) s)
  let r := (pbPort s p).rec_
  if r > 127 then drawn 1 (pbMod p (fun t => { t with rec_ := 119 + (free s).toNat % 9 }) s)
  else pbMod p (fun t => { t with rec_ := t.rec_ - 1 }) s

/-- A port takes part on its bus: enabled, transceiver on, not bus-off (Table 10.13). -/
def pbUp (s : State) (p : Fin 2) : Bool := (pbPort s p).up && !(pbPort s p).busOff

/-- Drydown step 4 on a port (R255): every frame that has not begun is discarded, and one NODE_BEAT with state 2 is next, where the
panel map has a record for it (R238). `begun`: the frame at the head of the FIFO is being transmitted. A port with nothing left to
send switches off. -/
def pbClose (p : Fin 2) (begun : Bool) (s : State) : State :=
  let t := pbPort s p
  if !t.up || t.monitor then pbMod p (fun t => { t with up := false, callq := [], otherq := [], fifo := [] }) s
  else if t.busOff then pbMod p (fun t => { t with up := false }) s
  else
    let s := pbMod p (fun t => { t with callq := [], otherq := [], fifo := if begun then t.fifo.take 1 else [] }) s
    let s := match sendRec s p none 0x0020 with
      | none => bump (aPB p 0x3C) s
      | some r =>
        let f : CanFrame := { num := s.pb.frameNum, roster := 0, panel := none, code := 0x0020, msg := .nodeBeat (ownSource s) 2,
                              queuedAt := s.clock, refresh := true, id := recId r }
        pbMod p (fun t => { t with fifo := t.fifo ++ [f] }) { s with pb := { s.pb with frameNum := s.pb.frameNum + 1 } }
    pbMod p (fun t => { t with up := !t.fifo.isEmpty }) s

/-- Every port of a unit that releases OWN listens only (R243). -/
def pbMonitorAll (s : State) : State := s |> pbMod 0 (fun t => { t with monitor := true }) |> pbMod 1 (fun t => { t with monitor := true })

/-- An enabled port joins its bus at end of start (R255). -/
def pbJoin (p : Fin 2) (monitor : Bool) (s : State) : State :=
  let en := s.cfg.portEnable.getLsbD (7 + p.val)
  pbMod p (fun _ => { up := en, monitor := monitor, fresh := en && !monitor }) s

end Sys2Proof.Machine
end

