-- ==== Sys2Proof/Machine/PanelBus.lean ====
section
/-! DEFINITION. Machine/PanelBus.lean: the meanings of the panel-bus commands (R227, R235 to R255, R376). -/
namespace Sys2Proof.Machine

/-! Duty reports (R229). -/

/-- The rosters that a panel of this node concerns: that of its page set (R375) and those whose record names it. -/
def rostersOf (s : State) (p : Fin 2) (q : Fin 64) : List Word :=
  let bySet := match panelRec s p q with | some r => [wd r.set.toNat] | none => []
  distinct (bySet ++ (s.cfg.rosters.filter (fun r => (rosterRefs r).contains (panelRef s p q))).map (fun r => r.id))

/-- The rosters of all panels of this node. -/
def dutyRosters (s : State) : List Word := distinct (s.cfg.panels.flatMap (fun r => rostersOf s r.port r.panel))

/-- What this node reports of one roster. -/
def dutyReportOf (s : State) (roster : Word) : DutyReport :=
  { lamps := s.cfg.panels.filterMap (fun r =>
      match tabLook (panelSt s r.port r.panel).lamps roster.toNat with
      | some l => if l.lit then some ⟨panelRef s r.port r.panel, l.press⟩ else none
      | none => none),
    patrol := tabLook s.pb.patrolNote roster.toNat,
    topCall := tabLook s.pb.topCall roster.toNat }

/-- Send the duty report of one roster to its call manager, primary and shadow. -/
def sendDuty (roster : Word) (s : State) : State :=
  eachS (itemTargets s (rosterItem roster)) (fun a t => sendUni a 8 (.itemState (.duty roster (ownAddr t) (dutyReportOf t roster))) t) s

/-- DUTY_REPORT_SEND (R229): by every node that carries a panel of a roster; a unit without OWN carries none (R243). -/
def effDutyReportSend (s : State) : State := if isStandbyNumber' s then s else eachS (dutyRosters s) sendDuty s
where
  isStandbyNumber' (s : State) : Bool := s.cfg.guarded.rolePref ≠ 0 && !s.pair.ownHeld

def execDutyReportSend (s : State) : Out := done (effDutyReportSend s)

/-! Keys (R219, R240). -/

/-- Relay a key to the call managers of the panel's rosters, to the evaluator of an Accord that an ACK names (R220), and to every
node that has lately commanded a call there (R313). -/
def relayKey (p : Fin 2) (q : Fin 64) (k : KeyMsg) (s : State) : State :=
  let l := rostersOf s p q
  let acc := if k.key = 1 && k.item.getLsbD 31 && k.item ≠ 0xFFFFFFFF then itemTargets s (accordItem (k.item.setWidth 16)) else []
  let recent := (s.pb.callFrom.filter (fun x => l.contains x.1 && s.clock - x.2.2 ≤ 10000000000)).map (fun x => x.2.1)
  let dsts := distinct (l.flatMap (fun r => itemTargets s (rosterItem r)) ++ acc ++ recent)
  eachS dsts (fun a t => sendUni a 6 (.keyRelay (panelRef t p q) k) t) s

/-- The ACK of a control-room panel on the point selected there (R219). -/
def ackItem (item : Word) (occ : BitVec 16) (s : State) : State :=
  if item.getLsbD 31 then s else sendUni (tagAddr item) 5 (.alarmCommand 0 item (.ack occ)) s

/-- A panel is in the public-room list of a roster, so far as this node knows the roster (R231). -/
def isPublic (s : State) (roster ref : Word) : Bool :=
  match rosterRec s roster with | some r => r.pubs.contains ref | none => true

def setNote (roster : Word) (n : Option PatrolNote) (s : State) : State :=
  { s with pb := { s.pb with patrolNote := match n with
      | some n => tabPut s.pb.patrolNote roster.toNat n
      | none => tabDel s.pb.patrolNote roster.toNat } }

/-- The patrol's start and latest reset, which the node that carries the panel keeps (R232). -/
def notePatrol (p : Fin 2) (q : Fin 64) (k : KeyMsg) (s : State) : State :=
  eachS (rostersOf s p q) (fun r t =>
    let old := tabLook t.pb.patrolNote r.toNat
    let on := old.isSome || (tabLook (panelSt t p q).patrols r.toNat).isSome
    let ref := panelRef t p q
    if !isPublic t r ref then t
    else if k.key = 4 && k.action = 2 then sendDuty r (setNote r none t)
    else if (k.key = 4 || on) && k.action = 1 then
      let start := match old with | some n => n.start | none => fabUs t
      sendDuty r (setNote r (some ⟨start, fabUs t, ref⟩) t)
    else t) s

/-- SILENCE stops the sounder of this panel and of no other (R221). -/
def silencePanel (p : Fin 2) (q : Fin 64) (s : State) : State :=
  s |> panelMod p q (fun x => { x with silenced := true }) |> refreshSound p q

/-- ACK on a bridge panel (Table 9.4): the stage-3 notices it shows are acknowledged there, and no call is answered. -/
def ackNotice (p : Fin 2) (q : Fin 64) (s : State) : State :=
  panelMod p q (fun x => { x with
    acked := x.calls.foldl (fun t c => if c.2.notResponding then tabPut t c.1 c.2.callNum else t) x.acked }) s

/-- What an accepted key does, by the panel's kind (Table 9.4). A bridge ACK acts on that panel alone; only ENGINEER IN SPACE acts on a hold. -/
def onKey (p : Fin 2) (q : Fin 64) (k : KeyMsg) (s : State) : State :=
  match panelRec s p q with
  | none => s
  | some r =>
    let room := r.kind = 5
    if k.key = 4 then (if room then relayKey p q k (notePatrol p q k s) else s)
    else if k.action ≠ 1 then s
    else if k.key = 1 then
      if r.kind = 4 then ackNotice p q s
      else
        let s := whenS room (notePatrol p q k) s
        let s := relayKey p q k s
        whenS room (ackItem k.item k.occ) s
    else if k.key = 2 then
      let s := silencePanel p q s
      relayKey p q k (whenS room (notePatrol p q k) s)
    else if r.kind = 1 then
      relayKey p q k (panelMod p q (fun x => { x with pressAt := fabUs s }) s)
    else s

/-- KEY (R240). A unit that only listens passes nothing on (R243). -/
def effKey (id : CanId) (k : KeyMsg) (sof : Word) (s : State) : State :=
  let p := id.port
  if !pbUp s p then s
  else match matchRec s id with
    | none => pbReceived p sof s
    | some r =>
      let s := pbReceived p sof (bump (aPB p 0x2C) s)
      match r.panel with
      | none => s
      | some q =>
        if r.code ≠ 0x0101 then s
        else if (panelSt s p q).keySeq = some k.seq || k.key = 0 || k.key.toNat > 4 || k.action = 0 || k.action.toNat > 2 then
          bump (aPB p 0x40) s
        else
          let s := panelMod p q (fun x => { x with keySeq := some k.seq }) s
          if (pbPort s p).monitor then s else onKey p q k s

def execKey (id : CanId) (k : KeyMsg) (sof : Word) (s : State) : Out := done (effKey id k sof s)

/-- PANEL_BEAT (R242). -/
def effPanelBeat (id : CanId) (m : PanelBeatMsg) (sof : Word) (s : State) : State :=
  let p := id.port
  if !pbUp s p then s
  else match matchRec s id with
    | none => pbReceived p sof s
    | some r =>
      let s := pbReceived p sof (bump (aPB p 0x2C) s)
      match r.panel with
      | none => s
      | some q =>
        if r.code ≠ 0x0102 then s
        else s |> pbMod p (fun t => { t with present := t.present ||| BitVec.ofNat 64 (2 ^ q.val) })
               |> panelMod p q (fun x => { x with beat := some (m.kind, m.set, m.page) })

def execPanelBeat (id : CanId) (m : PanelBeatMsg) (sof : Word) (s : State) : Out := done (effPanelBeat id m sof s)

/-- PAGE_REQ (R376): the page again, from the stored lines. -/
def effPageReq (id : CanId) (set : BitVec 16) (page : BitVec 8) (sof : Word) (s : State) : State :=
  let p := id.port
  if !pbUp s p then s
  else match matchRec s id with
    | none => pbReceived p sof s
    | some r =>
      let s := pbReceived p sof (bump (aPB p 0x2C) s)
      match r.panel with
      | none => s
      | some q => if r.code ≠ 0x0103 then s else sendPageTo p q set page (pageLines s set page) s

def execPageReq (id : CanId) (set : BitVec 16) (page : BitVec 8) (sof : Word) (s : State) : Out := done (effPageReq id set page sof s)

/-- PANEL_LOST (R242). -/
def effPanelLost (p : Fin 2) (q : Fin 64) (s : State) : State :=
  if isPresent s p q then
    s |> pbMod p (fun t => { t with present := t.present &&& ~~~(BitVec.ofNat 64 (2 ^ q.val)) })
      |> latch (aPB p 8) 0 |> (fun t => blockRec 1 (pbBase p) (aPB p 8) [] t)
  else s

def execPanelLost (port : Fin 2) (panel : Fin 64) (s : State) : Out := done (effPanelLost port panel s)

/-- CAN_CLASH (R254): a 29-bit frame with DIR 0 and this node's station that the node did not send. It is received like any other. -/
def effCanClash (id : CanId) (sof : Word) (s : State) : State :=
  let p := id.port
  if !pbUp s p then s
  else
    let s := pbReceived p sof (whenS (matchRec s id).isSome (bump (aPB p 0x2C)) s)
    if !(pbPort s p).monitor && id.ext && !id.ident.getLsbD 13 && id.ident.extractLsb' 20 6 = s.cfg.station then
      let first := !(pbPort s p).clash
      let s := s |> bump (aPB p 0x38) |> latch (aPB p 8) 4 |> pbMod p (fun t => { t with clash := true })
      whenS first (fun t => blockRec 2 (pbBase p) (aPB p 8) [] t) s
    else s

def execCanClash (id : CanId) (sof : Word) (s : State) : Out := done (effCanClash id sof s)

/-- CLASH_CLEAR (R254). -/
def execClashClear (port : Fin 2) (s : State) : Out := done (pbMod port (fun t => { t with clash := false }) s)

/-! Sending. -/

/-- The beat of one port, with the state of R253 behind the first one after start (R255). -/
def beatPort (p : Fin 2) (s : State) : State := if (pbPort s p).fresh && pbUp s p then sendPortState p s else nodeBeat p 1 s

/-- NODE_BEAT_SEND (R239): broadcast on each port. -/
def effNodeBeatSend (s : State) : State := s |> beatPort 0 |> beatPort 1

def execNodeBeatSend (s : State) : Out := done (effNodeBeatSend s)

/-- PANEL_REFRESH (R239): what Table 10.3 refreshes, by message code. -/
def effPanelRefresh (p : Fin 2) (q : Fin 64) (code : BitVec 16) (s : State) : State :=
  if (panelRec s p q).isNone then s
  else if code = 0x0001 then sendCalls p q true s
  else if code = 0x0002 then sendLamps p q s
  else if code = 0x0003 then sendPatrols p q s
  else if code = 0x0004 then sendSound p q s
  else if code = 0x0010 then
    let set := panelSet s p q
    eachS (List.range (tabGet 0 s.pb.pageCount set.toNat)) (fun n t =>
      sendPageTo p q set (BitVec.ofNat 8 n) (pageLines t set (BitVec.ofNat 8 n)) t) s
  else s

def execPanelRefresh (port : Fin 2) (panel : Fin 64) (code : BitVec 16) (s : State) : Out :=
  done (effPanelRefresh port panel code s)

/-- FIFO_ADMIT (R247). -/
def effFifoAdmit (p : Fin 2) (s : State) : State := if !pbUp s p || (pbPort s p).monitor then s else admitOne p s

def execFifoAdmit (port : Fin 2) (s : State) : Out := done (effFifoAdmit port s)

/-- CALL_FRAME_WITHDRAW (R247): a frame that has begun, with the stamp of its start, is not withdrawn; its outcome decides. -/
def effCallFrameWithdraw (p : Fin 2) (n : Nat) (begun : Option Word) (s : State) : State :=
  let t := pbPort s p
  match (t.callq ++ t.fifo).find? (fun f => f.num = n && isCallClass f.code) with
  | none => s
  | some f =>
    match begun with
    | some sof => pbMod p (fun t => { t with fifo := t.fifo.map (fun g =>
        if g.num = n then { g with late := true, stamp := some sof, ftSof := sofFabric s sof } else g) }) s
    | none => withdraw p f s

def execCallFrameWithdraw (port : Fin 2) (frame : Nat) (begun : Option Word) (s : State) : Out :=
  done (effCallFrameWithdraw port frame begun s)

/-- The highest call number of the CALL frames sent for a roster, in the modular order (R229). -/
def noteTopCall (m : PanelMsg) (s : State) : State :=
  match m with
  | .call c =>
    let top := match tabLook s.pb.topCall c.roster.toNat with | some n => modMax c.callNum n | none => c.callNum
    if tabLook s.pb.topCall c.roster.toNat = some top then s
    else sendDuty c.roster { s with pb := { s.pb with topCall := tabPut s.pb.topCall c.roster.toNat top } }
  | _ => s

/-- CAN_TX_COMPLETE (R244, R247): the frame at the head of the FIFO ended with an acknowledge. -/
def effCanTxComplete (p : Fin 2) (sof : Word) (s : State) : State :=
  if !pbUp s p then s
  else match (pbPort s p).fifo with
    | [] => s
    | f :: r =>
      let s := pbMod p (fun t => { t with fifo := r, lastSof := sof, tec := t.tec - 1 }) s |> bump (aPB p 0x28)
      let s := whenS (isCallClass f.code && !f.refresh) (reportFrame p f.panel f.roster f.msg true (sofFabric s sof)) s
      let s := noteTopCall f.msg s
      whenS (s.sys.phase = .drydown && r.isEmpty) (pbMod p (fun t => { t with up := false })) s

def execCanTxComplete (port : Fin 2) (sof : Word) (s : State) : Out := done (effCanTxComplete port sof s)

/-- ARBITRATION_LOST (R247): a frame whose second has passed is withdrawn now. -/
def effArbitrationLost (p : Fin 2) (sof : Word) (s : State) : State := if pbUp s p then withdrawLate p (stampHead p sof s) else s

def execArbitrationLost (port : Fin 2) (sof : Word) (s : State) : Out := done (effArbitrationLost port sof s)

/-! Errors and bus-off. -/

/-- The count rules of ISO 11898-1 on an error frame (R251): 1 or 8 for the error itself, and 8 for each of the further dominant bits
that the standard counts within the same error frame. -/
def errCounts (e : CanErr) (eights : Nat) (t : PbPort) : PbPort :=
  match e with
  | .transmit => { t with tec := t.tec + 8 + 8 * eights }
  | .exempt => { t with tec := t.tec + 8 * eights }
  | .receive => { t with rec_ := min 255 (t.rec_ + 1 + 8 * eights) }

/-- CAN_ERROR_FRAME (R251, R247): one error frame, counted once; the frame it destroys keeps the stamp of its start (R244). -/
def effCanErrorFrame (p : Fin 2) (e : CanErr) (eights : Nat) (sof : Word) (s : State) : State :=
  if !pbUp s p then s
  else
    let s := s |> bump (aPB p 0x30) |> pbCounts p (errCounts e eights)
    if e = .receive then pbMod p (fun t => { t with rxSof := some sof }) s else withdrawLate p (stampHead p sof s)

def execCanErrorFrame (port : Fin 2) (err : CanErr) (eights : Nat) (sof : Word) (s : State) : Out :=
  done (effCanErrorFrame port err eights sof s)

/-- BUS_OFF (R252): with TEC above 255 the port stops, and everything it held is flushed. -/
def effBusOff (p : Fin 2) (s : State) : State :=
  if pbUp s p && (pbPort s p).tec > 255 then
    s |> flushPort p |> pbMod p (fun t => { t with busOff := true, busOffAt := s.clock, recovering := false })
      |> latch (aPB p 8) 2 |> bump (aPB p 0x34) |> (fun t => blockRec 2 (pbBase p) (aPB p 8) [] t)
      |> (fun t => whenS (t.sys.phase = .drydown) (pbMod p (fun x => { x with up := false })) t)
  else s

def execBusOff (port : Fin 2) (s : State) : Out := done (effBusOff port s)

/-- BUSOFF_WAIT of a port, in seconds. -/
def busoffWait (s : State) (p : Fin 2) : Nat := if p = 0 then s.cfg.c1Wait.toNat else s.cfg.c2Wait.toNat

/-- BUSOFF_WAIT_EXPIRY (R252): the firmware requests recovery. -/
def execBusoffWaitExpiry (port : Fin 2) (s : State) : Out :=
  done (if (pbPort s port).up && (pbPort s port).busOff then pbMod port (fun t => { t with recovering := true }) s else s)

/-- BUSOFF_RECOVERED (R252, R253). -/
def effBusoffRecovered (p : Fin 2) (s : State) : State :=
  if (pbPort s p).up && (pbPort s p).busOff && (pbPort s p).recovering then
    s |> pbMod p (fun t => { t with busOff := false, recovering := false, tec := 0, rec_ := 0 })
      |> latch (aPB p 8) 3 |> sendPortState p
  else s

def execBusoffRecovered (port : Fin 2) (s : State) : Out := done (effBusoffRecovered port s)

/-- BUS_MONITORING_EXIT (R243): the controllers of the unit that took OWN take part again, and every panel is sent its state. -/
def effBusMonitoringExit (s : State) : State :=
  if s.pair.ownHeld then
    eachS [(0 : Fin 2), 1] (fun p t =>
      if (pbPort t p).up && (pbPort t p).monitor then
        sendPortState p (pbMod p (fun x => { x with monitor := false, tec := 0, rec_ := 0 }) t)
      else t) s
  else s

def execBusMonitoringExit (s : State) : Out := done (effBusMonitoringExit s)

/-! What the call managers and the renderers send. -/

/-- Remember which node commands a roster's calls here (R313). -/
def noteCaller (roster : Word) (a : Addr) (s : State) : State :=
  { s with pb := { s.pb with callFrom := (roster, a, s.clock) :: s.pb.callFrom.filter (fun x =>
      !(x.1 = roster && x.2.1 = a) && s.clock - x.2.2 ≤ 10000000000) } }

/-- What a CALL does to a silenced panel: a new call number or a new stage ends the silence (R221). -/
def endsSilence (x : PanelSt) (c : CallMsg) : Bool :=
  c.state ≠ 0 && match tabLook x.calls c.roster.toNat with
    | none => true
    | some o => o.callNum ≠ c.callNum || (o.stage ≠ c.stage && c.stage ≠ 0)

/-- The panel stands in a control room (Table 4.10). -/
def isRoom (s : State) (p : Fin 2) (q : Fin 64) : Bool := match panelRec s p q with | some r => r.kind = 5 | none => false

/-- A patrol warning that begins ends the silence of the panel (Table 9.7, steps 2 and 3; log 128). -/
def warnsNew (x : PanelSt) (roster : Word) (pat : BitVec 8) : Bool :=
  pat = 2 && (tabGet (0, 0) x.sounds roster.toNat).1 ≠ 2

/-- Content for one panel (R239). The patrol and its warning are for control-room panels (R231): another is commanded silent by the
warning. The end of a patrol ends what this node keeps of it (R232). -/
def showOn (p : Fin 2) (q : Fin 64) (roster : Word) (m : PanelMsg) (s : State) : State :=
  match m with
  | .call c =>
    let s := panelMod p q (fun x => { x with
      silenced := x.silenced && !endsSilence x c,
      acked := if tabLook x.acked c.roster.toNat = some c.callNum && c.state ≠ 0 then x.acked else tabDel x.acked c.roster.toNat,
      calls := if c.state = 0 then tabDel x.calls c.roster.toNat else tabPut x.calls c.roster.toNat c }) s
    s |> pbOffer p (some q) roster m false |> refreshSound p q
  | .dutyLamp r lit eng =>
    let old := tabLook (panelSt s p q).lamps r.toNat
    let was := match old with | some l => l.lit | none => false
    let press := match old with | some l => if l.lit then l.press else (panelSt s p q).pressAt | none => (panelSt s p q).pressAt
    let s := s |> panelMod p q (fun x => { x with lamps := tabPut x.lamps r.toNat ⟨lit, eng, press⟩ }) |> pbOffer p (some q) roster m false
    whenS (was ≠ lit) (sendDuty r) s
  | .patrol r st secs =>
    let s := whenS (st = 0) (setNote r none) s
    if !isRoom s p q then s
    else s |> panelMod p q (fun x => { x with
            patrols := if st = 0 then tabDel x.patrols r.toNat else tabPut x.patrols r.toNat (st, secs, s.clock) })
      |> pbOffer p (some q) roster m false
  | .sound pat pr =>
    let v : BitVec 8 × BitVec 8 := if pat = 2 && !isRoom s p q then (0, 0) else (pat, pr)
    s |> panelMod p q (fun x => { x with silenced := x.silenced && !warnsNew x roster v.1, sounds := tabPut x.sounds roster.toNat v })
      |> refreshSound p q
  | _ => s

/-- CALL_COMMAND (R246, R313). -/
def effCallCommand (rx : Rx) (item : Word) (c : CallCommand) (s : State) : State :=
  let (ok, s) := receive rx (.callCommand item c) s
  if !ok || s.sys.phase ≠ .running || refAddr c.panel ≠ pairAddr s then s
  else
    let s := noteCaller c.roster rx.hdr.src s
    let p := refPort c.panel
    let q := refPanel c.panel
    if (panelRec s p q).isSome then showOn p q c.roster c.msg s else s

def execCallCommand (rx : Rx) (item : Word) (c : CallCommand) (s : State) : Out := done (effCallCommand rx item c s)

/-- Store the lines of a frame; those that changed. -/
def storeLines (m : PageContent) (s : State) : List PageLine × State :=
  m.lines.foldl (fun (acc : List PageLine × State) l =>
    let k := lineKey m.set m.page (l.line.toNat % 16)
    let t := acc.2
    if tabLook t.pb.lines k = some l then acc
    else (acc.1 ++ [l], { t with pb := { t.pb with lines := tabPut t.pb.lines k l } })) ([], s)

/-- PAGE_CONTENT (R376): the latest lines of every page are kept, and changed lines go out on the bus (R239). -/
def effPageContent (rx : Rx) (m : PageContent) (s : State) : State :=
  let (ok, s) := receive rx (.pageContent m) s
  if !ok || s.sys.phase ≠ .running || !(s.cfg.panels.any (fun r => r.set = m.set)) then s
  else
    let n := m.pages.toNat + 1
    let s := { s with pb := { s.pb with
      pageCount := tabPut s.pb.pageCount m.set.toNat n,
      lines := s.pb.lines.filter (fun x => x.1 / 4096 ≠ m.set.toNat || x.1 / 16 % 256 < n) } }
    if m.page.toNat ≥ n then s
    else
      let (l, s) := storeLines m s
      eachS (s.cfg.panels.filter (fun r => r.set = m.set)) (fun r t => sendPageTo r.port r.panel m.set m.page l t) s

def execPageContent (rx : Rx) (m : PageContent) (s : State) : Out := done (effPageContent rx m s)

/-! Registers (Tables 10.11 to 10.14). -/

def pbCfg (s : State) (p : Fin 2) : Word :=
  let r := if p = 0 then s.cfg.c1Rate else s.cfg.c2Rate
  wd (busoffWait s p * 2 ^ 10 + s.cfg.station.toNat * 2 ^ 4) ||| bit (r.getLsbD 2) 3 ||| wd (r.toNat % 4 * 2) |||
    bit (s.cfg.portEnable.getLsbD (7 + p.val)) 0

def pbStatus (s : State) (p : Fin 2) : Word :=
  let t := pbPort s p
  bit t.clash 6 ||| bit t.monitor 5 ||| bit t.busOff 4 ||| bit (pbPassive t) 3 ||| bit (pbWarning t) 2 |||
    bit (t.callq.length ≥ 64) 1 ||| bit (pbUp s p) 0

def pbErr (s : State) (p : Fin 2) : Word := wd ((pbPort s p).tec % 512 * 2 ^ 16 + (pbPort s p).rec_ % 256)

def pbFill (s : State) (p : Fin 2) : Word :=
  let t := pbPort s p
  wd (t.fifo.length * 2 ^ 24 + t.callq.length * 2 ^ 16 + t.otherq.length)

/-- PB_BUSOFF_LEFT: bus-off wait remaining, in ms. -/
def pbBusoffLeft (s : State) (p : Fin 2) : Word :=
  let t := pbPort s p
  if t.busOff && !t.recovering then wd ((busoffWait s p * 1000 - (s.clock - t.busOffAt) / 1000000) % 65536) else 0

end Sys2Proof.Machine
end

