-- ==== Sys2Proof/Machine/Calls.lean ====
section
/-! DEFINITION. Machine/Calls.lean: call managers, duty, patrol and their commands (R222 to R232, R310, R311). -/
namespace Sys2Proof.Machine

def rosGet (s : State) (r : Word) : Option CallItem := tabLook s.call.rosters r.toNat

def rosSet (r : Word) (c : CallItem) (s : State) : State := { s with call := { s.call with rosters := tabPut s.call.rosters r.toNat c } }

def rosDel (r : Word) (s : State) : State := { s with call := { s.call with rosters := tabDel s.call.rosters r.toNat } }

/-- The source of a call that is the patrol. -/
def patrolKey : Word := 0xFFFFFFFF

/-- The source of a call that is an Accord (Table 9.6). -/
def accKey (id : BitVec 16) : Word := wd (2 ^ 31 + id.toNat)

def roomZone (s : State) : BitVec 16 := BitVec.ofNat 16 (ownCount s)

/-! The duty engineer (R223). -/

def mayDuty (e : Engineer) : Bool := e.flags.getLsbD 0

/-- Index of the first entry in record order that satisfies a test. -/
def engIdx (r : RosterRec) (f : Engineer → Bool) : Option (BitVec 5) := (r.engineers.findIdx? f).map (fun i => BitVec.ofNat 5 i)

/-- The duty engineer before any press: the first entry with flag 0 set. -/
def defaultDuty (r : RosterRec) : Option (BitVec 5 × BitVec 64) := (engIdx r mayDuty).map (fun i => (i, 0))

/-- The cabin panel of the duty engineer. -/
def dutyCabin (r : RosterRec) (st : CallState) : Option Word :=
  match st.duty with | some (i, _) => r.engineers[i.toNat]?.map (fun e => e.cabin) | none => none

/-- The state a call manager begins with. -/
def callBlank (r : RosterRec) : CallState :=
  { callNum := 0, state := 0, stage := 0, stageAt := 0, startAt := 0, stage2At := 0, answer := 0xFFFFFFFF, panels := [], sources := [],
    duty := defaultDuty r, patrol := 0, patrolAt := 0, patrolPanel := 0, patrolEnd := 0, silenced := [], rebuilt := false, view := 0, changedAt := 0 }

/-! Sources (R222). -/

def srcUnacked (st : CallState) : List (Word × Bool × BitVec 2) := st.sources.filter (fun x => x.2.1)

/-- The call's priority: the highest among its unacknowledged sources. -/
def callPrio (st : CallState) : BitVec 2 :=
  (srcUnacked st).foldl (fun p x => if p.toNat < x.2.2.toNat then x.2.2 else p) 0

/-- The source to display: of the unacknowledged ones the first of highest priority. -/
def firstSource (st : CallState) : Word :=
  match (srcUnacked st).find? (fun x => x.2.2 = callPrio st) with | some x => x.1 | none => 0xFFFFFFFF

/-! What panels are told. -/

/-- The CALL a panel shows, less its time; none while it shows no call of this roster. -/
def callShown (r : RosterRec) (st : CallState) (ref : Word) : Option CallMsg :=
  if st.state ≠ 0 && st.panels.contains ref then
    some { roster := r.id, callNum := st.callNum, state := st.state.setWidth 8, stage := st.stage.setWidth 8,
           prio := (callPrio st).setWidth 8, duty := dutyCabin r st = some ref,
           notResponding := st.state = 1 && st.stage = 3 && r.bridges.contains ref,
           patrol := (srcUnacked st).any (fun x => x.1 = patrolKey), sources := BitVec.ofNat 16 (srcUnacked st).length,
           first := firstSource st, answer := st.answer, time := 0 }
  else none

/-- The sound a panel is commanded: the call's while it is CALLING, else the patrol warning on control-room panels. -/
def soundShown (r : RosterRec) (st : CallState) (ref : Word) : BitVec 8 × BitVec 8 :=
  if st.state = 1 && st.panels.contains ref then (1, (callPrio st).setWidth 8)
  else if st.patrol = 2 && r.pubs.contains ref then (2, 2)
  else (0, 0)

/-- Content for one panel, from the item of a roster. -/
def cmdPanel (roster ref : Word) (m : PanelMsg) (s : State) : State :=
  sendItem (rosterItem roster) [refAddr ref] (.callCommand (rosterItem roster) ⟨roster, ref, m⟩) s

/-- Seconds since the patrol's start or latest reset. -/
def patrolAge (s : State) (st : CallState) : BitVec 16 :=
  BitVec.ofNat 16 (min 65535 (((fabUs s).toNat - st.patrolAt.toNat) / 1000000))

/-- Send every panel what changed for it between two states (R239). -/
def pushPanels (r : RosterRec) (a b : CallState) (s : State) : State :=
  let refs := distinct (a.panels ++ b.panels ++ r.pubs)
  let s := eachS refs (fun ref t =>
    let x := callShown r a ref
    let y := callShown r b ref
    let t := if x = y then t else
      match y, x with
      | some m, _ => cmdPanel r.id ref (.call { m with time := fabUs t }) t
      | none, some m => cmdPanel r.id ref (.call { m with state := 0, stage := 0, prio := 0, time := fabUs t }) t
      | none, none => t
    let v := soundShown r b ref
    if soundShown r a ref = v then t else cmdPanel r.id ref (.sound v.1 v.2) t) s
  let s := if a.patrol = b.patrol && a.patrolAt = b.patrolAt then s
    else eachS r.pubs (fun ref t => cmdPanel r.id ref (.patrol r.id (b.patrol.setWidth 8) (patrolAge t b)) t) s
  if dutyCabin r a = dutyCabin r b then s
  else eachS (distinct (r.engineers.map (fun e => e.cabin))) (fun ref t =>
    let lit := dutyCabin r b = some ref
    let eng : BitVec 8 := match b.duty with | some (i, _) => if lit then i.setWidth 8 else 0xFF | none => 0xFF
    cmdPanel r.id ref (.dutyLamp r.id lit eng) t) s

/-- A call state in parts of at most 20 panels and sources, as many as its frames hold (R258). -/
def stateParts (st : CallState) : List CallState :=
  let els : List (Word ⊕ (Word × Bool × BitVec 2)) := st.panels.map Sum.inl ++ st.sources.map Sum.inr
  if els.isEmpty then [st]
  else (chunks 20 els).map (fun l =>
    let ps := l.filterMap (fun x => match x with | .inl p => some p | .inr _ => none)
    { st with panels := ps, silenced := st.silenced.filter ps.contains,
              sources := l.filterMap (fun x => match x with | .inl _ => none | .inr y => some y) })

/-- The parts of a state put together. -/
def joinParts (l : List CallState) (st : CallState) : CallState :=
  { st with panels := l.flatMap (fun x => x.panels), silenced := l.flatMap (fun x => x.silenced), sources := l.flatMap (fun x => x.sources) }

/-- The whole state to the shadow (R229). -/
def sendState (roster : Word) (down : Bool) (s : State) : State :=
  match rosGet s roster with
  | none => s
  | some c =>
    let it := itemGet s (rosterItem roster)
    let dst := if down then it.primary else it.shadow
    match dst with
    | some a =>
      if s.fab.addressed && a = ownAddr s then s
      else
        let l := stateParts c.st
        eachS ((List.range l.length).zip l) (fun x t =>
          sendItem (rosterItem roster) [a] (.itemState (.state (rosterItem roster) true down x.1 l.length x.2)) t) s
    | none => s

/-- Put a new call state: panels are told what changed, the shadow gets the whole state, and the change is dated (R229, R310). -/
def callPut (r : RosterRec) (st : CallState) (s : State) : State :=
  match rosGet s r.id with
  | none => s
  | some c =>
    if c.st = st then s
    else
      let st' := { st with view := roomZone s, changedAt := fabUs s }
      s |> rosSet r.id { c with st := st', held := true } |> pushPanels r c.st st' |> sendState r.id false

/-! Call events (R230, Table 9.6). -/

def callWords (roster : Word) (st : CallState) (cause : BitVec 8) (panel src : Word) (t : BitVec 64) : List Word :=
  let duty := match st.duty with | some (i, _) => i.toNat | none => 255
  [wd (3 + cause.toNat * 2 ^ 8 + st.stage.toNat * 2 ^ 16 + st.patrol.toNat * 2 ^ 24), roster,
   wd (st.callNum.toNat + (if st.state = 0 then 0 else (callPrio st).toNat) * 2 ^ 16 + duty * 2 ^ 24), panel, src, t.setWidth 32,
   (t >>> 32).setWidth 32, 0]

/-- An event of a call manager, with the state as it stands. -/
def callEvent (roster : Word) (st : CallState) (cause : BitVec 8) (sev : BitVec 2) (panel src : Word) (s : State) : State :=
  emit 3 cause sev roster (callWords roster st cause panel src (fabUs s)) s

/-! Calls (R224, R225). -/

/-- The panels of the stages up to n (Table 9.5). -/
def stagePanels (r : RosterRec) (st : CallState) (n : BitVec 2) : List Word :=
  let cabin := match dutyCabin r st with | some c => [c] | none => []
  distinct (cabin ++ r.pubs ++ (if n.toNat ≥ 2 then r.engineers.map (fun e => e.cabin) else []) ++ (if n = 3 then r.bridges else []))

/-- Enter a stage: panels join those already called. -/
def atStage (r : RosterRec) (n : BitVec 2) (now : BitVec 64) (st : CallState) : CallState :=
  { st with stage := n, stageAt := now, stage2At := if n = 2 then now else st.stage2At, silenced := [],
            panels := distinct (st.panels ++ stagePanels r st n) }

/-- Entries into stages 2 and 3 are counted and latched. -/
def noteStage (n : BitVec 2) (s : State) : State :=
  if n = 2 then s |> bump aCALL_STAGE2 |> latch aCALL_EVENT 2
  else if n = 3 then s |> bump aCALL_STAGE3 |> latch aCALL_EVENT 3
  else s

/-- Add a source to a call of at most 1,024 (R222). -/
def addSource (x : Word × Bool × BitVec 2) (acc : CallState × State) : CallState × State :=
  let st := acc.1
  if st.sources.any (fun y => y.1 = x.1) then ({ st with sources := st.sources.map (fun y => if y.1 = x.1 then x else y) }, acc.2)
  else if st.sources.length ≥ 1024 then (st, acc.2 |> bump aCALL_SRC_LOST |> latch aCALL_EVENT 5)
  else ({ st with sources := st.sources ++ [x] }, acc.2)

/-- Start a call with sources, at stage 2 without a duty engineer or where it is told so (R224, R225, R231). -/
def callStart (r : RosterRec) (l : List (Word × Bool × BitVec 2)) (two : Bool) (cause : BitVec 8) (src : Word) (s : State) : State :=
  match rosGet s r.id with
  | none => s
  | some c =>
    let now := fabUs s
    let n : BitVec 2 := if two || c.st.duty.isNone then 2 else 1
    let st := { c.st with callNum := c.st.callNum + 1, state := 1, startAt := now, answer := 0xFFFFFFFF, panels := [], sources := [],
                          rebuilt := cause = 0x0C }
    let (st, s) := l.foldl (fun acc x => addSource x acc) (st, s)
    let st := atStage r n now st
    let s := rosSet r.id { c with due := false } s
    let s := { s with call := { s.call with lastNums := tabPut s.call.lastNums r.id.toNat st.callNum } }
    s |> bump aCALL_STARTED |> noteStage n |> callPut r st |> callEvent r.id st cause (callPrio st) 0xFFFFFFFF src

/-- The call returns to IDLE, and every panel of it clears it. -/
def callEnd (r : RosterRec) (prio : BitVec 2) (s : State) : State :=
  match rosGet s r.id with
  | none => s
  | some c =>
    let st := { c.st with state := 0, stage := 0, answer := 0xFFFFFFFF, panels := [], sources := [], silenced := [] }
    s |> callPut r st |> callEvent r.id st 3 prio 0xFFFFFFFF 0xFFFFFFFF

/-- The unacknowledged sources that a manager knows of, LOW apart: Accords in RAISED_UNACK, its own points, and a CALLED patrol. -/
def knownSources (c : CallItem) : List (Word × Bool × BitVec 2) :=
  (c.accs.filter (fun x => x.2.newState = 2 && x.2.prio ≠ 0)).map (fun x => (accKey x.2.accord, true, x.2.prio.setWidth 2)) ++
  (c.points.filter (fun x => (x.2.state = 1 || x.2.state = 3) && x.2.prio ≠ 0)).map (fun x => (x.2.tag, true, x.2.prio)) ++
  (if c.st.patrol = 3 then [(patrolKey, true, 3)] else [])

/-- A call none of whose sources is unacknowledged returns to IDLE (R225); `prio` is what it held before. -/
def callCheck (r : RosterRec) (prio : BitVec 2) (s : State) : State :=
  match rosGet s r.id with
  | some c => if c.st.state ≠ 0 && (srcUnacked c.st).isEmpty then callEnd r prio s else s
  | none => s

/-- A source changes; where it enters with priority NORMAL or above it starts a call or joins it (R222, R225). -/
def onSource (r : RosterRec) (x : Word × Bool × BitVec 2) (entering : Bool) (two : Bool) (s : State) : State :=
  match rosGet s r.id with
  | none => s
  | some c =>
    if c.rebuilding || !isPrimary s (rosterItem r.id) then s
    else
      let prio := callPrio c.st
      if entering && x.2.2 ≠ 0 then
        if c.st.state = 0 then callStart r [x] two 0 x.1 s
        else if c.st.state = 1 then
          let (st, s) := addSource x (c.st, s)
          callPut r st s
        else
          let rest := (knownSources c).filter (fun y => y.1 ≠ x.1)
          s |> callEnd r prio |> callStart r (rest ++ [x]) two 0 x.1
      else if c.st.sources.any (fun y => y.1 = x.1) then
        s |> callPut r { c.st with sources := c.st.sources.map (fun y => if y.1 = x.1 then x else y) } |> callCheck r prio
      else s

/-! Point sources (R222). -/

/-- What an event or a report says of a point source. -/
def onPoint (r : RosterRec) (p : PointSource) (s : State) : State :=
  match rosGet s r.id with
  | none => s
  | some c =>
    let was : BitVec 3 := match tabLook c.points p.tag.toNat with | some q => q.state | none => 0
    let gone := p.state = 0 || p.state.toNat ≥ 4
    let s := rosSet r.id { c with points := if gone then tabDel c.points p.tag.toNat else tabPut c.points p.tag.toNat p } s
    onSource r (p.tag, p.state = 1 || p.state = 3, p.prio) (p.state = 1 && was ≠ 1) false s

/-- ALARM_EVENT (R206, R212, R214, R222): at the item the frame names. -/
def effAlarmEvent (rx : Rx) (item : Word) (l : List AlmEvent) (s : State) : State :=
  let (ok, s) := receive rx (.alarmEvent item l) s
  if !ok then s
  else if itemKind item = 1 then accOnEvents rx (item.setWidth 16) l s
  else if itemKind item = 2 then
    match rosterRec s (wd (fld item 0 28)) with
    | some r => eachS l (fun a t => onPoint r ⟨a.tag, a.newState.setWidth 3, a.prio.setWidth 2, a.onset⟩ t) s
    | none => s
  else s

def execAlarmEvent (rx : Rx) (item : Word) (recs : List AlmEvent) (s : State) : Out := done (effAlarmEvent rx item recs s)

/-- MEMBER_REPORT (R211, R212). -/
def effMemberReport (rx : Rx) (m : MemberReport) (s : State) : State :=
  let (ok, s) := receive rx (.memberReport m) s
  if !ok then s
  else if m.key.getLsbD 31 then
    match rosterRec s (m.key &&& 0x7FFFFFFF) with
    | some r => eachS m.entries (fun x t =>
        onPoint r ⟨wd (rx.hdr.src.toNat * 4096 + x.index.toNat), x.state, x.prio, fullOnset (fabUs t) x.onset⟩ t) s
    | none => s
  else accOnReport rx (m.key.setWidth 16) m s

def execMemberReport (rx : Rx) (m : MemberReport) (s : State) : Out := done (effMemberReport rx m s)

/-! Accords as sources, and the summary outputs (R217, R228). -/

/-- The summary output of an Accord is commanded ON. -/
def summaryOn (a : AccEvent) : Bool := a.newState = 2 || a.newState = 3

/-- The command of one Accord's summary output (R228). -/
def sendSummary (roster : Word) (a : AccEvent) (s : State) : State :=
  match accordRec s a.accord with
  | none => s
  | some r =>
    if r.roster = roster && r.flags.getLsbD 1 && r.summary ≠ 0xFFFFFFFF then
      sendItem (rosterItem roster) [r.summary.extractLsb' 0 18]
        (.outputCommand (rosterItem roster) ⟨Fin.ofNat 16 (fld r.summary 18 4), summaryOn a⟩) s
    else s

/-- SUMMARY_OUTPUT_PERIOD (R228). -/
def effSummaryOutputPeriod (s : State) : State :=
  eachS s.call.rosters (fun x t =>
    if isPrimary t (rosterItem (wd x.1)) then eachS x.2.accs (fun a t => sendSummary (wd x.1) a.2 t) t else t) s

def execSummaryOutputPeriod (s : State) : Out := done (effSummaryOutputPeriod s)

/-- A report older than the latest record applied is ignored (R217). -/
def applies (old : Option AccEvent) (a : AccEvent) : Bool :=
  match old with
  | some o => a.cause ≠ 7 || notEarlier a.changeT o.changeT
  | none => true

/-- The rosters here that an Accord's record goes to: that of its own definition; without one, the only call manager here. -/
def accRosters (s : State) (id : BitVec 16) : List Word :=
  match accordRec s id with
  | some r => if (rosGet s r.roster).isSome then [r.roster] else []
  | none => match s.call.rosters with | [x] => [wd x.1] | _ => []

/-- One Accord record at one call manager. -/
def onAccord (roster : Word) (a : AccEvent) (s : State) : State :=
  match rosterRec s roster, rosGet s roster with
  | some r, some c =>
    let old := tabLook c.accs a.accord.toNat
    if !applies old a then s
    else
      let s := rosSet roster { c with accs := tabPut c.accs a.accord.toNat a } s
      let changed := match old with | some o => summaryOn o ≠ summaryOn a | none => true
      let s := whenS (changed && isPrimary s (rosterItem roster)) (sendSummary roster a) s
      let was : BitVec 8 := match old with | some o => o.newState | none => 0
      onSource r (accKey a.accord, a.newState = 2, a.prio.setWidth 2) (a.newState = 2 && was ≠ 2) false s
  | _, _ => s

/-- One Accord record for the page renderers here (R375). -/
def renderAccord (a : AccEvent) (s : State) : State :=
  if applies (tabLook s.plc.renderAccs a.accord.toNat) a then
    { s with plc := { s.plc with renderAccs := tabPut s.plc.renderAccs a.accord.toNat a } }
  else s

/-- ACCORD_EVENT (R217). -/
def effAccordEvent (rx : Rx) (item : Word) (l : List AccEvent) (s : State) : State :=
  let (ok, s) := receive rx (.accordEvent item l) s
  if !ok then s
  else eachS l (fun a t => eachS (accRosters t a.accord) (fun r t => onAccord r a t) (renderAccord a t)) s

def execAccordEvent (rx : Rx) (item : Word) (recs : List AccEvent) (s : State) : Out := done (effAccordEvent rx item recs s)

/-! Duty and patrol (R223, R231, R232). -/

/-- A new duty engineer: his cabin joins a call that runs (R223). -/
def setDuty (r : RosterRec) (i : BitVec 5) (t : BitVec 64) (s : State) : State :=
  match rosGet s r.id with
  | none => s
  | some c =>
    let st := { c.st with duty := some (i, t) }
    let cabin := match dutyCabin r st with | some x => [x] | none => []
    callPut r { st with panels := if st.state = 0 then st.panels else distinct (st.panels ++ cabin) } s

/-- ON DUTY at a cabin (R223). -/
def onDuty (r : RosterRec) (ref : Word) (t : BitVec 64) (s : State) : State :=
  match rosGet s r.id with
  | none => s
  | some c =>
    if !r.engineers.any (fun e => e.cabin = ref) || dutyCabin r c.st = some ref then s
    else match engIdx r (fun e => e.cabin = ref && mayDuty e) with
      | none => callEvent r.id c.st 6 0 ref 0xFFFFFFFF s
      | some i =>
        let s := setDuty r i t s
        match rosGet s r.id with | some c => callEvent r.id c.st 5 0 ref 0xFFFFFFFF s | none => s

/-- Start or reset the patrol (R231, R232): an acknowledged patrol may end its call. -/
def patrolReset (r : RosterRec) (ref : Word) (t : BitVec 64) (s : State) : State :=
  match rosGet s r.id with
  | none => s
  | some c =>
    let start := c.st.patrol = 0
    let prio := callPrio c.st
    let st := { c.st with patrol := 1, patrolAt := t, patrolPanel := ref,
                          sources := c.st.sources.map (fun x => if x.1 = patrolKey then (x.1, false, x.2.2) else x) }
    s |> callPut r st |> callEvent r.id st (if start then 7 else 8) 0 ref 0xFFFFFFFF |> callCheck r prio

/-- ENGINEER IN SPACE held for 3 s ends the patrol, and its call with it (R232). -/
def patrolEnd (r : RosterRec) (ref : Word) (t : BitVec 64) (s : State) : State :=
  match rosGet s r.id with
  | none => s
  | some c =>
    if c.st.patrol = 0 then s
    else
      let prio := callPrio c.st
      let st := { c.st with patrol := 0, patrolEnd := t, sources := c.st.sources.map (fun x => if x.1 = patrolKey then (x.1, false, x.2.2) else x) }
      s |> callPut r st |> callEvent r.id st 0x0B 0 ref 0xFFFFFFFF |> callCheck r prio

/-- ACK on a panel that shows the call answers it (R225, Table 9.4); a panel of kind 4 sends no ACK here. -/
def callAnswer (r : RosterRec) (ref : Word) (s : State) : State :=
  match rosGet s r.id with
  | none => s
  | some c =>
    if c.st.state = 1 && c.st.panels.contains ref then
      let st := { c.st with state := 2, answer := ref }
      s |> callPut r st |> callEvent r.id st 2 (callPrio st) ref 0xFFFFFFFF
    else s

/-- SILENCE on a panel of the call: it is part of the state sent to the shadow (R229). -/
def noteSilence (r : RosterRec) (ref : Word) (s : State) : State :=
  match rosGet s r.id with
  | none => s
  | some c =>
    if c.st.panels.contains ref && !c.st.silenced.contains ref then callPut r { c.st with silenced := c.st.silenced ++ [ref] } s else s

/-- What a key does at one call manager (Table 9.4). Only control-room panels send ENGINEER IN SPACE here; the reset of the patrol
by an ACK or a SILENCE comes with the duty report of its node. -/
def rosterKey (r : RosterRec) (ref : Word) (k : KeyMsg) (t : BitVec 64) (s : State) : State :=
  match rosGet s r.id with
  | none => s
  | some c =>
    if !isPrimary s (rosterItem r.id) || !(rosterRefs r).contains ref then s
    else if k.key = 1 then callAnswer r ref s
    else if k.key = 3 then onDuty r ref t s
    else if k.key = 2 then noteSilence r ref s
    else if k.key ≠ 4 || !r.pubs.contains ref then s
    else if k.action = 2 then patrolEnd r ref t s
    else if c.st.patrol ≠ 0 && t.toNat ≤ c.st.patrolAt.toNat then s
    else patrolReset r ref t s

/-- The full fabric time of a frame's TIME. -/
def frameTime (s : State) (rx : Rx) : BitVec 64 := nearTime (fabUs s) rx.hdr.time

/-- KEY_RELAY (R219, R220): every call manager here, and the evaluator an ACK names. -/
def effKeyRelay (rx : Rx) (panel : Word) (k : KeyMsg) (s : State) : State :=
  let (ok, s) := receive rx (.keyRelay panel k) s
  if !ok then s
  else
    let t := frameTime s rx
    let s := whenS (k.key = 1 && k.action = 1 && k.item.getLsbD 31 && k.item ≠ 0xFFFFFFFF) (groupAck (k.item.setWidth 16)) s
    eachS s.call.rosters (fun x u => match rosterRec u (wd x.1) with | some r => rosterKey r panel k t u | none => u) s

def execKeyRelay (rx : Rx) (panel : Word) (k : KeyMsg) (s : State) : Out := done (effKeyRelay rx panel k s)

/-- PATROL_WARN (R231). -/
def effPatrolWarn (roster : Word) (s : State) : State :=
  match rosterRec s roster, rosGet s roster with
  | some r, some c =>
    if isPrimary s (rosterItem roster) && c.st.patrol = 1 then
      let st := { c.st with patrol := 2 }
      s |> callPut r st |> callEvent roster st 9 2 0xFFFFFFFF 0xFFFFFFFF
    else s
  | _, _ => s

def execPatrolWarn (roster : Word) (s : State) : Out := done (effPatrolWarn roster s)

/-- PATROL_CALL (R231, R232): CALLED, and a CRITICAL call at stage 2 whose source is the patrol. -/
def effPatrolCall (roster : Word) (s : State) : State :=
  match rosterRec s roster, rosGet s roster with
  | some r, some c =>
    if isPrimary s (rosterItem roster) && (c.st.patrol = 1 || c.st.patrol = 2) then
      let st := { c.st with patrol := 3 }
      s |> latch aCALL_EVENT 7 |> callPut r st |> callEvent roster st 0x0A 3 0xFFFFFFFF 0xFFFFFFFF
        |> onSource r (patrolKey, true, 3) true true
    else s
  | _, _ => s

def execPatrolCall (roster : Word) (s : State) : Out := done (effPatrolCall roster s)

/-! Stages, delivery. -/

/-- The next stage of a call is due (R224, R227): its time has run out, or the duty engineer's cabin was not reached. -/
def stageDue (r : RosterRec) (c : CallItem) (now : BitVec 64) : Bool :=
  (c.due && c.st.stage = 1) || c.st.stageAt.toNat + (if c.st.stage = 1 then r.t1 else r.t2) * 1000000 ≤ now.toNat

/-- Enter the next stage of a call that is still CALLING. -/
def nextStage (r : RosterRec) (s : State) : State :=
  match rosGet s r.id with
  | none => s
  | some c =>
    if isPrimary s (rosterItem r.id) && c.st.state = 1 && (c.st.stage = 1 || c.st.stage = 2) && stageDue r c (fabUs s) then
      let n := c.st.stage + 1
      let st := atStage r n (fabUs s) c.st
      s |> rosSet r.id { c with due := false } |> noteStage n |> callPut r st |> callEvent r.id st 1 (if n = 3 then 3 else callPrio st) 0xFFFFFFFF 0xFFFFFFFF
    else s

/-- STAGE_TIMEOUT (R224, R226, R227): a 10 ms tick at which the next stage is due. -/
def effStageTimeout (roster : Word) (s : State) : State :=
  match rosterRec s roster with | some r => nextStage r s | none => s

def execStageTimeout (roster : Word) (s : State) : Out := done (effStageTimeout roster s)

/-- DELIVERY_REPORT (R227): undelivered is counted and logged; at the duty cabin in stage 1 it brings stage 2 at the next tick, so
that an answer received before it still prevents that stage (R226). -/
def effDeliveryReport (rx : Rx) (d : Delivery) (s : State) : State :=
  let (ok, s) := receive rx (.deliveryReport d) s
  if !ok then s
  else match rosterRec s d.roster, rosGet s d.roster with
    | some r, some c =>
      if d.delivered || !isPrimary s (rosterItem d.roster) then s
      else
        let s := s |> bump aCALL_UNDELIVERED |> latch aCALL_EVENT 4 |> callEvent r.id c.st 4 (callPrio c.st) d.panel 0xFFFFFFFF
        whenS (c.st.state = 1 && c.st.stage = 1 && dutyCabin r c.st = some d.panel && d.callNum = c.st.callNum)
          (rosSet r.id { c with due := true }) s
    | _, _ => s

def execDeliveryReport (rx : Rx) (d : Delivery) (s : State) : Out := done (effDeliveryReport rx d s)

/-! Item states (R229, R311). -/

/-- Take up the patrol of a duty report (R229, R231): a later reset, or a start after the latest end. -/
def takePatrol (r : RosterRec) (n : PatrolNote) (s : State) : State :=
  match rosGet s r.id with
  | none => s
  | some c =>
    if !r.pubs.contains n.panel then s
    else if c.st.patrol ≠ 0 then (if n.last.toNat > c.st.patrolAt.toNat then patrolReset r n.panel n.last s else s)
    else if n.start.toNat > c.st.patrolEnd.toNat then patrolReset r n.panel n.last s
    else s

/-- Take up a duty report after the decision, as it comes (R226, R229). -/
def onDutyReport (r : RosterRec) (d : DutyReport) (s : State) : State :=
  match rosGet s r.id with
  | none => s
  | some c =>
    if c.rebuilding || !isPrimary s (rosterItem r.id) then s
    else
      let at_ := match c.st.duty with | some (_, t) => t.toNat | none => 0
      let later := d.lamps.filter (fun l => l.time.toNat > at_ && dutyCabin r c.st ≠ some l.panel)
      let s := eachS later (fun l t => match engIdx r (fun e => e.cabin = l.panel && mayDuty e) with
        | some i =>
          let t := setDuty r i l.time t
          (match rosGet t r.id with | some c => callEvent r.id c.st 5 0 l.panel 0xFFFFFFFF t | none => t)
        | none => t) s
      let s := match d.topCall, rosGet s r.id with
        | some n, some c => if c.st.state = 0 && modDiff n c.st.callNum > 0 then callPut r { c.st with callNum := n } s else s
        | _, _ => s
      match d.patrol with
      | some n => takePatrol r n s
      | none => s

/-- Whether the received state was made with the larger view, or between equal views later (R311). -/
def stateWins (a b : CallState) : Bool := a.view.toNat > b.view.toNat || (a.view = b.view && a.changedAt.toNat > b.changedAt.toNat)

/-- A STEP_DOWN state at a primary (R311): it adopts the state of the node whose shadow it was, and compares that of another. -/
def stepDown (r : RosterRec) (c : CallItem) (src : Addr) (st : CallState) (s : State) : State :=
  let s := s |> bump aPLACE_MERGE |> latch aPLACE_EVENT 5
  let c' := { c with promoted := none }
  if c.promoted = some src || stateWins st c.st then
    s |> rosSet r.id { c' with st := st, held := true, rebuilding := false } |> pushPanels r c.st st |> sendState r.id false
  else rosSet r.id c' s

/-- A part of a state comes in; with its last part the state is whole (R258). -/
def wholeState (c : CallItem) (part parts : Nat) (st : CallState) : CallItem × Option CallState :=
  if parts ≤ 1 then ({ c with parts := [] }, some st)
  else
    let l := (part, st) :: c.parts.filter (fun x => x.1 ≠ part && x.2.changedAt = st.changedAt)
    let all := (List.range parts).filterMap (fun i => (l.find? (fun x => x.1 = i)).map (fun x => x.2))
    if all.length = parts then ({ c with parts := [] }, some (joinParts all st)) else ({ c with parts := l }, none)

/-- ITEM_STATE (R229, R311). -/
def effItemState (rx : Rx) (m : ItemStateMsg) (s : State) : State :=
  let (ok, s) := receive rx (.itemState m) s
  if !ok then s
  else match m with
    | .duty roster a d =>
      match rosterRec s roster, rosGet s roster with
      | some r, some c => onDutyReport r d (rosSet roster { c with duties := (a, d) :: c.duties.filter (fun x => x.1 ≠ a) } s)
      | _, _ => s
    | .state item _ down part parts st =>
      let roster := wd (fld item 0 28)
      match rosterRec s roster, rosGet s roster with
      | some r, some c =>
        match wholeState c part parts st with
        | (c, none) => rosSet roster c s
        | (c, some st) =>
          if isPrimary s item then (if down then stepDown r c rx.hdr.src st s else rosSet roster c s)
          else rosSet roster { c with st := st, held := true, rebuilding := false } s
      | _, _ => s
    | .render _ _ _ _ _ _ => s

def execItemState (rx : Rx) (m : ItemStateMsg) (s : State) : Out := done (effItemState rx m s)

/-- ITEM_STATE_SEND (R229). -/
def effItemStateSend (s : State) : State :=
  eachS s.call.rosters (fun x t =>
    if isPrimary t (rosterItem (wd x.1)) && !x.2.rebuilding then sendState (wd x.1) false t else t) s

def execItemStateSend (s : State) : Out := done (effItemStateSend s)

/-! Rebuild (R229). -/

/-- The duty engineer of the reports: the later press wins. -/
def dutyOf (r : RosterRec) (l : List DutyReport) : Option (BitVec 5 × BitVec 64) :=
  let lamps := l.flatMap (fun d => d.lamps.filterMap (fun x =>
    (engIdx r (fun e => e.cabin = x.panel && mayDuty e)).map (fun i => (i, x.time))))
  match lamps.foldl (fun (b : Option (BitVec 5 × BitVec 64)) x => match b with
    | none => some x
    | some y => if y.2.toNat < x.2.toNat then some x else some y) none with
  | some x => some x
  | none => defaultDuty r

/-- The patrol of the reports: its latest start or reset. -/
def patrolOf (r : RosterRec) (l : List DutyReport) : Option PatrolNote :=
  ((l.filterMap (fun d => d.patrol)).filter (fun n => r.pubs.contains n.panel)).foldl (fun b x => match b with
    | none => some x
    | some y => if y.last.toNat < x.last.toNat then some x else some y) none

/-- The highest of the reported call numbers and of the last one used here, in the modular order. -/
def topNum (l : List DutyReport) (own : Option (BitVec 16)) : BitVec 16 :=
  ((l.filterMap (fun d => d.topCall)) ++ own.toList).foldl (fun (b : Option (BitVec 16)) n => match b with
    | none => some n
    | some m => some (modMax n m)) none |>.getD 0

/-- CALL_MANAGER_REBUILD (R229): the decision, 150 ms after the start. -/
def effCallManagerRebuild (roster : Word) (s : State) : State :=
  match rosterRec s roster, rosGet s roster with
  | some r, some c =>
    if !c.rebuilding || !isPrimary s (rosterItem roster) then s
    else
      let l := c.duties.map (fun x => x.2)
      let pat := patrolOf r l
      let st := { c.st with duty := dutyOf r l, callNum := topNum l (tabLook s.call.lastNums roster.toNat),
                            patrol := if pat.isSome then 1 else 0, patrolAt := (pat.getD ⟨0, 0, 0⟩).last,
                            patrolPanel := (pat.getD ⟨0, 0, 0⟩).panel, view := roomZone s, changedAt := fabUs s }
      let s := s |> latch aCALL_EVENT 0 |> rosSet roster { c with st := st, rebuilding := false, held := true }
        |> pushPanels r { st with duty := none, patrol := 0 } st
      let src := knownSources { c with st := st }
      let s := if src.isEmpty then s else callStart r src false 0x0C 0xFFFFFFFF s
      let s := eachS c.accs (fun a t => sendSummary roster a.2 t) s
      sendState roster false s
  | _, _ => s

def execCallManagerRebuild (roster : Word) (s : State) : Out := done (effCallManagerRebuild roster s)

/-! Roles (Table 12.4). -/

/-- A call manager taken up: a shadow waits for ITEM_STATE, a primary rebuilds. -/
def rosStart (roster : Word) (s : State) : State :=
  match rosterRec s roster with
  | some r => rosSet roster { st := callBlank r } s
  | none => s

/-- A shadow that becomes primary continues from the state it holds; one that holds none yet rebuilds. -/
def rosPromote (roster : Word) (from_ : Option Addr) (s : State) : State :=
  match rosGet s roster with
  | some c => rosSet roster { c with promoted := if c.held then from_ else none, rebuilding := !c.held } s
  | none => rosStart roster s

/-- A primary that gives up its role sends its whole state to the new primary, marked STEP_DOWN. -/
def rosStepDown (roster : Word) (s : State) : State := sendState roster true s

/-! Views (Tables 9.9 and 9.13). -/

def rosView (s : State) (j : Nat) : Word :=
  let roster := s.call.rosSel
  match rosGet s roster with
  | none => 0
  | some c =>
    let st := c.st
    match j with
    | 0 =>
      bit (isPrimary s (rosterItem roster)) 31 ||| bit (roleOf s (rosterItem roster) = .shadow) 30 |||
        wd (st.state.toNat * 2 ^ 28 + st.stage.toNat * 2 ^ 26 + st.patrol.toNat * 2 ^ 24 + (callPrio st).toNat * 2 ^ 21) |||
        bit (st.rebuilt && st.state ≠ 0) 23 ||| bit st.duty.isSome 5 ||| (match st.duty with | some (i, _) => i.setWidth 32 | none => 0)
    | 1 => wd (st.callNum.toNat * 2 ^ 16 + st.sources.length)
    | 2 => wd (st.startAt.toNat / 1000)
    | 3 => wd (st.stageAt.toNat / 1000)
    | 4 => st.answer
    | 5 => wd (st.patrolAt.toNat / 1000)
    | 6 => st.patrolPanel
    | _ => 0

/-- CALL_STATUS (Table 9.10). -/
def callStatus (s : State) : Word :=
  let l := s.call.rosters
  bit (l.any (fun x => x.2.st.patrol ≠ 0)) 3 ||| bit (l.any (fun x => x.2.st.sources.length ≥ 1024)) 2 |||
    bit (l.any (fun x => x.2.st.state = 1)) 1 ||| bit (s.call.accords.any (fun x => x.2.winOpen)) 0

end Sys2Proof.Machine
end

