-- ==== Sys2Proof/Machine/Placement.lean ====
section
/-! DEFINITION. Machine/Placement.lean: catalogues, placement, roles and trend collectors (R295 to R318). -/
namespace Sys2Proof.Machine

def itemMod (i : Word) (f : ItemSt → ItemSt) (s : State) : State :=
  { s with plc := { s.plc with items := tabPut s.plc.items i.toNat (f (itemGet s i)) } }

/-! The own catalogue (R298, R299). -/

/-- A new version of the own catalogue: the larger of SUP_OP_SECONDS and the previous version plus 1. -/
def newVersion (s : State) : State :=
  let v := if s.store.opSeconds.toNat > s.plc.version.toNat then s.store.opSeconds else s.plc.version + 1
  { s with plc := { s.plc with version := v } }

/-- The frames of a catalogue: 17 entries each, at most 61 frames, and one where it is empty (R299). What 61 frames do not hold, which
only refusals of kind 0x4 beside some 1,024 carried items can bring about, is not published (log 134). -/
def catFrames (c : CatSt) : List Catalogue :=
  let parts := if c.entries.isEmpty then [[]] else (chunks 17 c.entries).take 61
  ((List.range parts.length).zip parts).map (fun x =>
    { origin := c.origin, version := c.version, slots := c.slots, eligible := c.eligible, crossings := c.crossings,
      index := BitVec.ofNat 8 x.1, count := BitVec.ofNat 8 parts.length, entries := x.2 })

def ownCat (s : State) : CatSt :=
  { origin := ownAddr s, version := s.plc.version, slots := BitVec.ofNat 16 s.cfg.slots, eligible := eligible s, crossings := 0,
    from_ := none, entries := ownEntries s }

/-- Send a catalogue to each border neighbour but the one it came from, with CROSSINGS raised by 1 (R300). -/
def relayCat (c : CatSt) (s : State) : State :=
  if !s.cfg.border || c.crossings.toNat ≥ 63 then s
  else eachS (fLinks.filter (fun k => isBorder s k)) (fun k t =>
    match (linkGet t k).neigh with
    | some n =>
      if c.from_ = some n.addr then t
      else eachS (catFrames { c with crossings := c.crossings + 1 }) (fun f t =>
        enqueue k ⟨mkHdr t (.catalogueRelay f) false n.addr 0 0, .catalogueRelay f⟩ false t) t
    | none => t) s

/-- Flood a catalogue zone-wide. -/
def floodCat (c : CatSt) (s : State) : State := eachS (catFrames c) (fun f t => sendFlood (.catalogue f) 0 t) s

/-! Candidate lists (R302). -/

/-- A catalogue makes its origin a candidate for a carried item (R297). -/
def catCandidate (s : State) (i : Word) (c : CatSt) : Bool :=
  !c.expired && catOffers s c i && (itemZones s i).contains (zoneOf c.origin) && c.slots.toNat ≥ 1

/-- The candidate list of one carried item anew: the 64 best of the accepted catalogues that list it (R302). Entries whose origin's
catalogue is no longer remembered (R300) stay, but for the origin given. -/
def candUpdate (gone : Addr) (i : Word) (s : State) : State :=
  let named := (s.plc.cats.filter (catCandidate s i)).map (fun c => (⟨c.origin, c.slots⟩ : Candidate))
  let kept := (tabGet [] s.plc.cands i.toNat).filter (fun x => x.addr ≠ gone && !s.plc.cats.any (fun c => c.origin = x.addr))
  { s with plc := { s.plc with cands := tabPut s.plc.cands i.toNat ((rankSort s.cfg.k0 s.cfg.k1 i (named ++ kept)).take 64) } }

/-- The items of kinds 1 and 2 that the node carries. -/
def listedItems (s : State) : List Word := (carriedItems s).filter (fun i => itemKind i = 1 || itemKind i = 2)

/-- A catalogue lists a carried item with another DEF_CRC. -/
def catMismatch (s : State) (c : CatSt) : Bool :=
  c.entries.any (fun e => (listedItems s).contains e.item && e.defCrc ≠ itemCrc s e.item)

def defMismatch (s : State) : Bool := s.plc.cats.any (catMismatch s)

/-- Remote catalogues kept: the 4,096 heard from most recently, which stand first (R300). -/
def keepCats (s : State) (l : List CatSt) : List CatSt :=
  (l.filter (fun c => zoneOf c.origin = ownZone s)) ++ ((l.filter (fun c => zoneOf c.origin ≠ ownZone s)).take 4096)

/-- Accept a version (R299, R302): it replaces the one held, and the candidate lists follow. -/
def acceptCat (c : CatSt) (s : State) : State :=
  let s := { s with plc := { s.plc with cats := keepCats s (c :: s.plc.cats.filter (fun x => x.origin ≠ c.origin)) } }
  let s := if catMismatch s c then s |> bump aPLACE_DEF_MISMATCH |> latch aPLACE_EVENT 3 else s
  eachS (listedItems s) (candUpdate c.origin) s

/-- The own catalogue stands among the accepted ones. -/
def acceptOwn (s : State) : State := if s.fab.addressed && s.plc.up then acceptCat (ownCat s) s else s

/-- Publish the own catalogue (R299, R300). -/
def publishCat (s : State) : State :=
  if s.fab.addressed && s.plc.up then s |> acceptOwn |> floodCat (ownCat s) |> relayCat (ownCat s) else s

/-- CATALOGUE_SEND (R299). -/
def execCatalogueSend (s : State) : Out := done (publishCat s)

/-- An origin heard again is the one heard from most recently (R300). -/
def hearAgain (a : Addr) (s : State) : State :=
  { s with plc := { s.plc with cats := s.plc.cats.filter (fun c => c.origin = a) ++ s.plc.cats.filter (fun c => c.origin ≠ a) } }

/-- A frame of a catalogue comes in: what is complete and newer than the version held is accepted (R299). -/
def takeCatFrame (from_ : Option Addr) (f : Catalogue) (s : State) : Option CatSt × State :=
  let held := match catOf s f.origin with | some c => decide (f.version.toNat ≤ c.version.toNat) | none => false
  if s.fab.addressed && f.origin = ownAddr s then (none, s)
  else if held then (none, hearAgain f.origin s)
  else
    let blank : CatSt := { origin := f.origin, version := f.version, slots := f.slots, eligible := f.eligible, crossings := f.crossings,
                           from_ := from_, entries := [], count := f.count }
    let p := match s.plc.partialCats.find? (fun c => c.origin = f.origin && c.version = f.version) with | some c => c | none => blank
    let p := if p.frames.contains f.index then p else { p with frames := f.index :: p.frames, entries := p.entries ++ f.entries }
    let rest := s.plc.partialCats.filter (fun c => c.origin ≠ f.origin)
    if p.frames.length ≥ f.count.toNat then
      let c := { p with frames := [], count := 0 }
      (some c, acceptCat c { s with plc := { s.plc with partialCats := rest } })
    else (none, { s with plc := { s.plc with partialCats := p :: rest } })

/-- CATALOGUE (R299, R300). -/
def effCatalogue (rx : Rx) (f : Catalogue) (s : State) : State :=
  let (ok, s) := receive rx (.catalogue f) s
  if !ok || !s.plc.up then s
  else match takeCatFrame none f s with
    | (some c, s) => relayCat c s
    | (none, s) => s

def execCatalogue (rx : Rx) (c : Catalogue) (s : State) : Out := done (effCatalogue rx c s)

/-- CATALOGUE_RELAY (R300): a border node floods what it accepts and relays it onward. -/
def effCatalogueRelay (rx : Rx) (f : Catalogue) (s : State) : State :=
  let (ok, s) := receive rx (.catalogueRelay f) s
  if !ok || !s.plc.up then s
  else match takeCatFrame (some rx.hdr.src) f s with
    | (some c, s) => if s.cfg.border then s |> floodCat c |> relayCat c else s
    | (none, s) => s

def execCatalogueRelay (rx : Rx) (c : Catalogue) (s : State) : Out := done (effCatalogueRelay rx c s)

/-- CATALOGUE_REQUEST (R299): the whole catalogue, unicast. -/
def effCatalogueRequest (rx : Rx) (held : Word) (s : State) : State :=
  let (ok, s) := receive rx (.catalogueRequest held) s
  if !ok || !s.plc.up then s
  else eachS (catFrames (ownCat s)) (fun f t => sendUni rx.hdr.src 0 (.catalogue f) t) s

def execCatalogueRequest (rx : Rx) (held : Word) (s : State) : Out := done (effCatalogueRequest rx held s)

/-! Facts (R301, R305). -/

/-- NODE_STATE_SEND (R301). -/
def execNodeStateSend (s : State) : Out := done (sendNodeState s)

/-- NODE_STATE (R299, R301): the latest facts of a node, and a request where its catalogue is newer than the one held. -/
def effNodeState (rx : Rx) (m : NodeState) (s : State) : State :=
  let (ok, s) := receive rx (.nodeState m) s
  if !ok || !s.plc.up then s
  else
    let f : NodeFact := ⟨m.addr, m.slots, m.eligible, m.trend, m.catVersion, m.configId⟩
    let s := { s with plc := { s.plc with facts := f :: s.plc.facts.filter (fun x => x.addr ≠ m.addr) } }
    let have_ : Word := match catOf s m.addr with | some c => c.version | none => 0
    if m.catVersion.toNat > have_.toNat then sendUni m.addr 0 (.catalogueRequest have_) s else s

def execNodeState (rx : Rx) (m : NodeState) (s : State) : Out := done (effNodeState rx m s)

/-- CANDIDATE_HEALTHY (R305): ten seconds in the view, or ten seconds of quorum for an item, have passed. -/
def effCandidateHealthy (b : HealthyBy) (s : State) : State :=
  match b with
  | .view a => if inView s a then { s with plc := { s.plc with healthyNodes := a :: s.plc.healthyNodes.filter (fun x => x ≠ a) } } else s
  | .quorum i => if quorumOf s i then itemMod i (fun t => { t with quorumOk := true }) s else s

def execCandidateHealthy (by_ : HealthyBy) (s : State) : Out := done (effCandidateHealthy by_ s)

/-- Whether the catalogue of an origin is marked expired. -/
def setExpired (f : CatSt → Bool) (s : State) : State :=
  { s with plc := { s.plc with cats := s.plc.cats.map (fun c => { c with expired := f c }) } }

/-- CANDIDATE_EXPIRY (R302): absent from the view for 600 s, an origin leaves every list; its latest version stays remembered (R300). -/
def effCandidateExpiry (a : Addr) (s : State) : State :=
  if inView s a then s
  else eachS (listedItems s) (candUpdate a) (setExpired (fun c => c.expired || c.origin = a) s)

def execCandidateExpiry (origin : Addr) (s : State) : Out := done (effCandidateExpiry origin s)

/-! Refusals (R308). -/

/-- Order of kinds within one role. -/
def kindRank (i : Word) : Nat := match itemKind i with | 2 => 0 | 1 => 1 | 3 => 2 | _ => 3

/-- An item comes before another: by role, then kind, then ID. -/
def acceptsBefore (a b : Bool × Word) : Bool :=
  let x := (if a.1 then 0 else 1) * 2 ^ 40 + kindRank a.2 * 2 ^ 36 + a.2.toNat
  let y := (if b.1 then 0 else 1) * 2 ^ 40 + kindRank b.2 * 2 ^ 36 + b.2.toNat
  x < y

def acceptInsert (x : Bool × Word) (l : List (Bool × Word)) : List (Bool × Word) :=
  match l with
  | [] => [x]
  | y :: r => if acceptsBefore x y then x :: y :: r else y :: acceptInsert x r

/-- The items accepted in order until the next would not fit; the rest. -/
def fitSlots (s : State) (room : Nat) (l : List (Bool × Word)) : List (Bool × Word) × List (Bool × Word) :=
  match l with
  | [] => ([], [])
  | x :: r =>
    let w := itemWeight s x.2
    if w ≤ room then let (a, b) := fitSlots s (room - w) r; (x :: a, b) else ([], x :: r)

/-- What an item's ranking gives: primary, shadow and the number of healthy candidates. -/
def rankOf (s : State) (i : Word) : Option Addr × Option Addr × Nat :=
  let l := ranking s i
  ((l[0]?).map (fun c => c.addr), (l[1]?).map (fun c => c.addr), l.length)

/-- The items that rank this node primary (true) or shadow, in the order of R308. -/
def ownRoles (s : State) : List (Bool × Word) :=
  (knownItems s).foldl (fun acc i =>
    let (p, h, _) := rankOf s i
    if !s.fab.addressed || !quorumOf s i then acc
    else if p = some (ownAddr s) then acceptInsert (true, i) acc
    else if h = some (ownAddr s) then acceptInsert (false, i) acc
    else acc) []

/-- Refuse what does not fit: each refusal is counted and goes into a new catalogue version. -/
def refuseRest (s : State) : State :=
  let (_, rest) := fitSlots s s.cfg.slots (ownRoles s)
  if rest.isEmpty then s
  else
    let s := eachS rest (fun x t => t |> itemMod x.2 (fun y => { y with refused := true }) |> bump aPLACE_REFUSALS) s
    s |> latch aPLACE_EVENT 2 |> newVersion |> publishCat

/-! Roles (R306, R310). -/

/-- An item starts here in a role (Table 12.4). -/
def itemStart (i : Word) (s : State) : State :=
  match itemKind i with
  | 1 => accStart (i.setWidth 16) s
  | 2 => rosStart (wd (fld i 0 28)) s
  | 4 => { s with plc := { s.plc with rings := tabPut s.plc.rings i.toNat [] } }
  | _ => s

/-- An item stops here and its state is discarded. -/
def itemStop (i : Word) (s : State) : State :=
  match itemKind i with
  | 1 => accDel (i.setWidth 16) s
  | 2 => rosDel (wd (fld i 0 28)) s
  | 3 => { s with plc := { s.plc with pages := tabDel s.plc.pages i.toNat, renders := tabDel s.plc.renders i.toNat } }
  | 4 => { s with plc := { s.plc with rings := tabDel s.plc.rings i.toNat } }
  | _ => s

/-- The actions of Table 12.4 for one change of role, `from_` the primary until now; the new role and holders already stand in the item's record. -/
def roleChange (i : Word) (old new : Role) (from_ : Option Addr) (s : State) : State :=
  match old, new with
  | .none, .none => s
  | .none, _ => itemStart i s
  | .shadow, .primary => if itemKind i = 2 then rosPromote (wd (fld i 0 28)) from_ s else s
  | .shadow, .none => itemStop i s
  | .primary, .shadow => if itemKind i = 2 then rosStepDown (wd (fld i 0 28)) s else s
  | .primary, .none => itemStop i (if itemKind i = 2 then rosStepDown (wd (fld i 0 28)) s else s)
  | _, _ => s

/-- An item of kind 4 can be starved only while another node of the view offers a slot (R309). -/
def canStarve (s : State) (i : Word) : Bool := itemKind i ≠ 4 || s.fab.view.any (fun a => a ≠ i.setWidth 18 && (slotsOf s a).toNat ≥ 1)

/-- Install the computation's result for one item. An instance that starts numbers its frames from the current tick (R314). -/
def placeItem (i : Word) (s : State) : State :=
  let old := itemGet s i
  let q := quorumOf s i
  let (p, h, n) := rankOf s i
  let mine := fun (a : Option Addr) => s.fab.addressed && a = some (ownAddr s) && q && !old.refused
  let role : Role := if mine p then .primary else if mine h then .shadow else .none
  let moved := p ≠ old.primary && (old.role ≠ .none || role ≠ .none)
  let s := whenS (old.quorum && !q) (latch aPLACE_EVENT 4) s
  let s := itemMod i (fun t => { t with
    role := role, primary := p, shadow := h, healthy := n, quorum := q,
    starved := t.starved && p.isNone && canStarve s i, seq := if old.role = .none then [] else t.seq, movedAt := if p ≠ t.primary then fabMs s else t.movedAt }) s
  let s := roleChange i old.role role old.primary s
  if moved then s |> bump aPLACE_MOVES |> latch aPLACE_EVENT 0 else s

/-- An item that is no longer known stops, and nothing is kept of it but a refusal, which only REFUSAL_WITHDRAW ends (R308). -/
def forgetItem (i : Word) (s : State) : State :=
  let s := if roleOf s i = .none then s else itemStop i s
  if (itemGet s i).refused then itemMod i (fun _ => { refused := true }) s
  else { s with plc := { s.plc with items := tabDel s.plc.items i.toNat } }

/-- PLACEMENT_RECOMPUTE (R306 to R308, R310). Where quorum is lost, the node's own ten seconds of it begin anew (R305). -/
def effPlacementRecompute (s : State) : State :=
  if !s.plc.up then s
  else
    let s := s |> bump aPLACE_RECOMPUTE |> setExpired (fun c => c.expired && !inView s c.origin) |> acceptOwn
    let known := knownItems s
    let s := eachS ((s.plc.items.map (fun x => wd x.1)).filter (fun i => !known.contains i)) forgetItem s
    let s := eachS known (fun i t => itemMod i (fun x => { x with quorumOk := x.quorumOk && quorumOf t i }) t) s
    let s := refuseRest s
    eachS known placeItem s

def execPlacementRecompute (s : State) : Out := done (effPlacementRecompute s)

/-- REFUSAL_WITHDRAW (R308): the refused item of lowest order whose weight fits; at most one in 10 s. -/
def effRefusalWithdraw (s : State) : State :=
  let soon := match s.plc.lastWithdraw with | some t => decide (s.clock - t < 10000000000) | none => false
  let l := (ownRefused s).foldl (fun acc i => acceptInsert (true, i) acc) []
  match l.find? (fun x => itemWeight s x.2 + slotsUsed s ≤ s.cfg.slots) with
  | some x =>
    if soon || !s.plc.up then s
    else { s with plc := { s.plc with lastWithdraw := some s.clock } }
      |> itemMod x.2 (fun t => { t with refused := false }) |> newVersion |> publishCat
  | none => s

def execRefusalWithdraw (s : State) : Out := done (effRefusalWithdraw s)

/-- ITEM_STARVED (R309): an item known here has had no primary for 15 s. -/
def effItemStarved (i : Word) (s : State) : State :=
  let it := itemGet s i
  if (knownItems s).contains i && it.primary.isNone && !it.starved && canStarve s i then
    let rise := !anyStarved s
    let s := itemMod i (fun t => { t with starved := true }) s
    if rise then s |> bump aPLACE_STARVED_COUNT |> latch aPLACE_EVENT 1 |> (fun t => blockRec 3 0x0B0000 aPLACE_EVENT [] t) else s
  else s

def execItemStarved (item : Word) (s : State) : Out := done (effItemStarved item s)

/-! Trend collectors (R316). -/

/-- TREND_SEND: the means of the period that has just ended. A node without a number, and a unit without OWN (R8, R336), sends none,
and the next period begins all the same. -/
def effTrendSend (s : State) : State :=
  if !s.fab.addressed || !hasAnalogue s || isStandbyNumber s then { s with plc := { s.plc with acc := [] } }
  else
    let n := (fabUs s).toNat / 10000000 - 1
    let acc := fun (e : Nat) => tabGet ({} : TrendAcc) s.plc.acc e
    let item := trendItem (pairAddr s)
    let m : TrendMsg := {
      item := item, period := wd n, start := BitVec.ofNat 64 (n * 10000000),
      means := (List.range 64).map (fun e => if (acc e).vals.isEmpty then fNaN else fMean (acc e).vals),
      quals := (List.range 64).map (fun e => (acc e).bad.getD 0) }
    { s with plc := { s.plc with acc := [] } } |> sendItem item (itemTargets s item) (.trend m)

def execTrendSend (s : State) : Out := done (effTrendSend s)

/-- TREND: the collector keeps the latest 180 periods. -/
def effTrend (rx : Rx) (m : TrendMsg) (s : State) : State :=
  let (ok, s) := receive rx (.trend m) s
  if !ok || roleOf s m.item = .none then s
  else
    let ring := tabGet [] s.plc.rings m.item.toNat
    let p : TrendPeriod := ⟨m.period, m.start, m.means, m.quals⟩
    let ring' := (ring.filter (fun x => x.period ≠ m.period) ++ [p])
    { s with plc := { s.plc with rings := tabPut s.plc.rings m.item.toNat (ring'.drop (ring'.length - 180)) } }

def execTrend (rx : Rx) (m : TrendMsg) (s : State) : Out := done (effTrend rx m s)

/-! Registers (Tables 12.9 to 12.12). -/

/-- PLACE_CALC_ITEM and PLACE_CALC_ADDR: h follows the later of the two writes (R318); in safe idle the block
does nothing (R317). -/
def effPlaceCalcWrite (addr : Bool) (v : Word) (s : State) : State :=
  if s.sys.phase = .safeIdle then s else
  let s := { s with plc := { s.plc with calcItem := if addr then s.plc.calcItem else v,
                                        calcAddr := if addr then v.setWidth 18 else s.plc.calcAddr } }
  { s with plc := { s.plc with calcH := scoreH s.cfg.k0 s.cfg.k1 s.plc.calcItem s.plc.calcAddr } }

def execPlaceCalcWrite (addr : Bool) (value : Word) (s : State) : Out := done (effPlaceCalcWrite addr value s)

def placeStatus (s : State) : Word :=
  let l := (knownItems s).map (fun i => (i, itemGet s i))
  bit (l.any (fun x => !x.2.quorum)) 5 ||| bit (defMismatch s) 4 ||| bit (!(ownRefused s).isEmpty) 3 |||
    bit (l.any (fun x => x.2.shadow.isNone)) 2 ||| bit (anyStarved s) 1 ||| bit (eligible s) 0

def optAddr (a : Option Addr) : Word := match a with | some a => wd (2 ^ 31 + a.toNat) | none => 0

def placeView (s : State) (j : Nat) : Word :=
  let i := s.plc.sel
  if !(knownItems s).contains i then 0
  else
    let t := itemGet s i
    match j with
    | 0 => bit (t.role = .primary) 31 ||| bit (t.role = .shadow) 30 ||| bit t.starved 29 ||| bit t.shadow.isNone 28 |||
        bit t.quorum 27 ||| bit t.refused 26 ||| wd (itemKind i * 2 ^ 20 + itemWeight s i)
    | 1 => optAddr t.primary
    | 2 => optAddr t.shadow
    | 3 => wd ((candidates s i).length * 2 ^ 16 + t.healthy)
    | 4 => itemCrc s i
    | 5 => t.movedAt
    | _ => 0

/-- PLACE_SLOTS, PLACE_ITEMS, PLACE_HOSTED and PLACE_STARVED_ITEMS (Table 12.9). -/
def placeSlotsReg (s : State) : Word := wd (slotsUsed s * 2 ^ 16 + s.cfg.slots)
def placeItemsReg (s : State) : Word := wd ((knownItems s).length * 2 ^ 16 + (ownEntries s).length)
def placeHostedReg (s : State) : Word := wd ((hostedAs s .shadow).length * 2 ^ 16 + (hostedAs s .primary).length)
def placeStarvedReg (s : State) : Word := wd (s.plc.items.filter (fun x => x.2.starved)).length

/-- At end of start the block begins and publishes its catalogue (R317). -/
def placeBegin (s : State) : State := { s with plc := { s.plc with up := true } } |> newVersion |> publishCat

/-- At Drydown step 6 every item on the node stops (R317). -/
def placeEnd (s : State) : State :=
  let s := eachS (s.plc.items.map (fun x => wd x.1)) (fun i t => if roleOf t i = .none then t else itemStop i t) s
  { s with plc := { s.plc with up := false, items := [] } }

end Sys2Proof.Machine
end

