-- ==== Sys2Proof/Machine/Pair.lean ====
section
/-! DEFINITION. Machine/Pair.lean: the redundant pair: health, takeover, release, checkpoints, double-send and handover (R319 to R343). -/
namespace Sys2Proof.Machine

def pairSet (f : PairSt → PairSt) (s : State) : State := { s with pair := f s.pair }

/-! Health (R328, Table 13.4). -/

/-- STATE code (Table 13.11). -/
def unitCode (u : UnitState) : Nat :=
  match u with | .start => 0 | .selftest => 1 | .standby => 2 | .active => 3 | .handoverIn => 4 | .handoverOut => 4 | .faulted => 5

def fabricAlone (s : State) : Bool := fLinks.all (fun k => !(linkGet s k).twoWay && (!(linkGet s k).enabled || (linkGet s k).alone))

def doDiag (s : State) : Bool := s.pair.state = .standby && s.pair.diagCnt.toList.any (fun n => n ≥ 100)

/-- No checkpoint accepted for 300 ms, on a standby. -/
def ckptStale (s : State) : Bool :=
  s.pair.state = .standby && (match s.pair.ckptAt with | some t => decide (s.clock - t ≥ 300000000) | none => true)

def pairPathLostBit (s : State) : Bool := !s.pair.pathP.up || !s.pair.pathF.up

def panelDown (s : State) : Bool :=
  [(0 : Fin 2), 1].any (fun p => s.cfg.portEnable.getLsbD (7 + p.val) && !pbUp s p)

/-- Bits [15:6] of the health word. -/
def healthBits (s : State) : Word :=
  bit (fabricAlone s) 15 ||| bit (s.sup.a.absent && s.sup.b.absent) 14 ||| bit (doDiag s) 13 ||| bit s.pair.calFail 12 |||
    bit s.sys.memUncorr 11 ||| bit (pairPathLostBit s) 10 ||| bit (s.sys.scrubBehind.toList.any id) 9 ||| bit (panelDown s) 8 |||
    bit (!s.flacon.present) 7 ||| bit s.sup.riding 6

/-- The verdict: 0 HEALTHY, 1 DEGRADED, 2 FAILING; a FAULTED unit is FAILING (R324). -/
def verdictOf (s : State) : Nat :=
  let b := healthBits s
  if s.pair.state = .faulted || fld b 11 5 ≠ 0 then 2 else if fld b 6 5 ≠ 0 then 1 else 0

/-- Double-send runs: on the standby, and on the holder that its partner's latest word shows it to (R336). -/
def doubleRunning (s : State) : Bool := s.pair.doubleSend || (s.pair.ownHeld && s.pair.peerHealth.getLsbD 24)

/-- The health word. -/
def healthWord (s : State) : Word :=
  wd (verdictOf s * 2 ^ 30 + unitCode s.pair.state * 2 ^ 27) ||| bit s.pair.ownHeld 26 ||| bit s.pair.loopOpen 25 |||
    bit (doubleRunning s) 24 ||| bit (ckptStale s) 23 ||| healthBits s

/-- Verdict and state that the partner's latest frame shows. -/
def peerVerdict (s : State) : Nat := fld s.pair.peerHealth 30 2
def peerState (s : State) : Nat := fld s.pair.peerHealth 27 3
def ownVerdict (s : State) : Nat := fld s.pair.health 30 2

/-- HEALTH_WORD_UPDATE (R328): a rise to FAILING is recorded at severity 2. -/
def effHealthWordUpdate (s : State) : State :=
  if !isPair s then s
  else
    let w := healthWord s
    let rise := fld w 30 2 = 2 && ownVerdict s ≠ 2
    let s := pairSet (fun p => { p with health := w }) s
    whenS rise (fun t => blockRec 2 0x0C0000 aPAIR_EVENT [] t) s

def execHealthWordUpdate (s : State) : Out := done (effHealthWordUpdate s)

/-! The partner's configuration (R323). -/

def flaconDiff (s : State) : Bool :=
  match s.pair.peer with | some m => m.configId ≠ s.cfg.id || m.configIssue ≠ s.cfg.issue | none => false

/-! Frames of KIND 0x1E (R326, R327). -/

/-- The effective commands of all outputs. -/
def doCmdWord (s : State) : BitVec 16 := (List.finRange 16).foldl (fun w k => if doCmd s k then w ||| BitVec.ofNat 16 (2 ^ k.val) else w) 0

/-- The 32 bytes of Table 13.3 with a number. -/
def pairMsg (s : State) (n : BitVec 16) : PairMsg :=
  { outputsDriven := s.pair.ownHeld, mirroring := s.pair.ownHeld && s.pair.peerHealth.getLsbD 24, forceActive := if poisoned s 0x0C0000 then (free s).getLsbD 0 else s.pair.force = 1,
    beatNum := n, health := s.pair.health, configId := s.cfg.id, configIssue := s.cfg.issue, doCmd := doCmdWord s,
    cycle := s.alm.cycle.setWidth 16, phase := wd ((s.clock - s.alm.tickAt) / 1000), ckptGen := s.pair.ckptGen, addr := ownAddr s }

/-- A frame of class urgent finds room on a link (Table 11.7). -/
def urgentRoom (s : State) (k : Link) : Bool := decide ((linkGet s k).urgent.length < 16)

/-- A frame on P, where it is sent: BEAT_NUM rises with it (Table 13.3). -/
def sendOnP (k : PairKind) (s : State) : State :=
  let n := s.pair.pathP.sent + 1
  let sent := (linkGet s linkP).phyUp && urgentRoom s linkP
  s |> whenS sent (pairSet (fun p => { p with pathP := { p.pathP with sent := n } })) |> sendPairP (.pair k (pairMsg s n))

/-- The link by which a frame reaches the partner, where this unit has an address and knows the partner's. -/
def peerLink (s : State) : Option Link := match peerDst s with | some a => routeTo s a | none => none

/-- A frame on the fabric path, where it is sent. -/
def sendOnF (k : PairKind) (s : State) : State :=
  match peerDst s with
  | some a =>
    let n := s.pair.pathF.sent + 1
    let sent := match peerLink s with | some l => urgentRoom s l | none => false
    s |> whenS sent (pairSet (fun p => { p with pathF := { p.pathF with sent := n } })) |> sendTo a 0 0 (.pair k (pairMsg s n))
  | none => s

def sendBoth (k : PairKind) (s : State) : State := s |> sendOnP k |> sendOnF k

/-- PAIR_BEAT_SEND (R326): from SELFTEST on. -/
def effPairBeatSend (s : State) : State :=
  if isPair s && s.pair.state ≠ .start then whenS (poisoned s 0x0C0000) (drawn 1) (sendBoth .beat (useRole s)) else s

def execPairBeatSend (s : State) : Out := done (effPairBeatSend s)

/-! Points from a copy (R104, R331). -/

/-- A point's configuration words, with the point NORMAL (R104). -/
def freshPoint (ws : List Word) : Point :=
  let w := fun (n : Nat) => ws.getD n 0
  noteWords
    { cfg := w 0, link := w 1, block := w 2, roster := w 3, sp := w 4, hyst := w 5, onDelay := w 6, offDelay := w 7, st := .normal }

/-- The points of the Flacon, each NORMAL. -/
def freshPoints (s : State) : Tab Point := s.cfg.points.map (fun x => (x.1, freshPoint x.2))

/-- The runtime words of a record, 0x20 to 0x3C (Table 8.2). -/
def runtimeOf (p : Point) : List Word := (List.range 8).map (fun n => pointWord p (8 + n))

/-- A record with runtime words put in. -/
def withRuntime (p : Point) (ws : List Word) : Point :=
  let w := fun (n : Nat) => ws.getD n 0
  let z := w 0
  { p with st := stOfCode (z.extractLsb' 29 3), cond := z.getLsbD 28, raw := z.getLsbD 27, frozen := z.getLsbD 26,
           blockNow := z.getLsbD 25, rateValid := z.getLsbD 24, rateCnt := z.extractLsb' 16 8, occ := z.setWidth 16,
           onCount := (w 1).setWidth 19, offCount := (w 2).setWidth 19, blkCount := (w 3).setWidth 19,
           shelveLeft := (w 4).setWidth 22, anchor := w 5, lastValue := w 6, onset := w 7 }

/-- The points with the runtime words of the checkpoint copy. -/
def copyPoints (s : State) : Tab Point :=
  s.pair.copyRuntime.foldl (fun t x => tabPut t x.1 (withRuntime (noteWords (tabGet {} t x.1)) x.2)) s.alm.points

/-! Configuration words in a checkpoint (R335, R343). -/

/-- A configuration register as it stands: the voted word of a triplicated one. -/
def liveWord (s : State) (a : Nat) : Word := if isTri a then voted s a else regGet s a

/-- The address under which a checkpoint carries word w of point i: alarm-point memory above the register space. -/
def pointCell (i w : Nat) : Nat := 0x800000 + i * 0x40 + w * 4

/-- The configuration words that differ from the Flacon: registers, trims, forces, and words of alarm points. -/
def configDiffs (s : State) : List (BitVec 24 × Word) :=
  let regs := (s.cfg.regs.filter (fun x => liveWord s x.1 ≠ x.2)).map (fun x => (BitVec.ofNat 24 x.1, liveWord s x.1))
  let cal := s.store.cal.flatMap (fun x =>
    [(BitVec.ofNat 24 (0x040000 + x.1 * 0x100 + 0x40), x.2.1), (BitVec.ofNat 24 (0x040000 + x.1 * 0x100 + 0x44), x.2.2.1)])
  let ars := ((List.finRange 8).filter (arForced s)).map (fun k => (BitVec.ofNat 24 (aAR k 0x34), regGet s (aAR k 0x34)))
  let dos := ((List.finRange 16).filter (doForced s)).map (fun k => (BitVec.ofNat 24 (aDO k 0x14), doForce s k))
  let pts := s.alm.points.flatMap (fun x =>
    let old := tabGet [] s.cfg.points x.1
    (List.range 8).filterMap (fun w =>
      if pointWord x.2 w = old.getD w 0 then none else some (BitVec.ofNat 24 (pointCell x.1 w), pointWord x.2 w)))
  regs ++ cal ++ ars ++ dos ++ pts

/-- Load one configuration word at a take. -/
def loadWord (x : BitVec 24 × Word) (s : State) : State :=
  let a := x.1.toNat
  if a ≥ 0x800000 then
    let i := (a - 0x800000) / 0x40
    pointSet i (writePointWord (pointGet s i) (a % 0x40 / 4) x.2) s
  else if 0x040000 ≤ a ∧ a < 0x044000 ∧ (a % 0x100 = 0x40 ∨ a % 0x100 = 0x44) then
    let n := (a - 0x040000) / 0x100
    let c : F32 × F32 × Word := tabGet (fOne, 0, 0) s.store.cal n
    let c' := if a % 0x100 = 0x40 then (x.2, c.2) else (c.1, x.2, c.2.2)
    { s with store := { s.store with cal := tabSet (fOne, 0, 0) s.store.cal n c' } }
  else if isTri a then triSet a x.2 s
  else regSet a x.2 s

/-! Taking OWN (R331). -/

/-- The state each output is commanded to: the later of the partner's latest DO_CMD and the checkpoint copy. -/
def takenCmd (s : State) (k : Fin 16) : Bool :=
  let byCopy := match s.pair.copy with | some c => ((c.dos.map (fun d => d.cmd)).getD k.val false) | none => false
  match s.pair.peer, s.pair.ckptAt with
  | some m, some c => if s.pair.peerAt ≥ c || flaconDiff s then m.doCmd.getLsbD k.val else byCopy
  | some m, none => m.doCmd.getLsbD k.val
  | none, _ => byCopy

/-- Step 2: the outputs are commanded and driven. -/
def takeOutputs (s : State) : State :=
  let cmds := (List.finRange 16).map (fun k => (k, takenCmd s k))
  eachS cmds (fun x t =>
    let tsd := match t.pair.copy with | some c => ((c.dos.map (fun d => d.tsdLatched)).getD x.1.val false) | none => false
    t |> doMod x.1 (fun d => { d with cmd := x.2, cmdAt := t.clock, stale := false, tsdLatched := tsd })
      |> fixTrack x.1 |> fixTakeUp x.1 |> doRefresh x.1) s

/-- Step 3: the repeat outputs, with what the checkpoint says was driven. -/
def takeRepeats (s : State) : State :=
  match s.pair.copy with
    | some c => eachS ((List.finRange 8).zip c.ars) (fun x t =>
        arMod x.1 (fun a => { a with code := x.2.code, driven := x.2.driven, held := if x.2.driven then some x.2.source else none }) t) s
    | none => s

/-- Step 4: the front end closes; every entry carries HELD until its first valid result (R332). -/
def takeInputs (s : State) : State :=
  let s := match s.pair.copy with
    | some c => eachS ((List.finRange 64).zip c.lastGood) (fun x t => chanMod x.1 (fun ch => { ch with lastGood := x.2.1 }) t) s
    | none => s
  let s := { s with afe := { s.afe with gap := BitVec.allOnes 112 } }
  let s := refreshTracks (eachS (List.finRange 64) restartChan s)
  let s := eachS (List.finRange 32) (fun k t =>
    if (di t k).cfg.getLsbD 0 then
      let p := (di t k).out != (di t k).cfg.getLsbD 1
      writeQuality (64 + k.val) qHELD (if p then fOne else 0) (diMod k (fun d => { d with pub := p }) t)
    else t) s
  arUpdateAll (eachS (List.finRange 16) (fun k t => writeQuality (96 + k.val) qHELD (fOfRat (dout t k).mv.toNat 1000) t) s)

/-- Step 6: the engine starts from the copy, with cycle and tick phase carried forward from the latest beat. -/
def takeEngine (s : State) : State :=
  if s.alm.running then s
  else
    let points := if flaconDiff s then freshPoints s else if s.pair.copy.isNone then s.alm.points else copyPoints s
    let alm := match s.pair.peer with
      | some m =>
        let t0 := s.pair.peerAt - m.phase.toNat * 1000
        let k := (s.clock - t0) / 10000000
        let base : Word := match s.pair.copy with | some c => c.cycle | none => 0
        let c := base + (m.cycle - base.setWidth 16).setWidth 32 + wd k
        { s.alm with cycle := c, tickAt := t0 + k * 10000000 }
      | none => { s.alm with tickAt := s.clock }
    { s with alm := { alm with points := points, running := true } }

/-- What the checkpoint says of the panels and of the subscribers served. -/
def takeCarried (s : State) : State :=
  match s.pair.copy with
  | none => s
  | some c =>
    let s := { s with fab := { s.fab with subscribers := c.subscribers.map (fun x => ⟨x.1, x.2, s.clock, [], []⟩) } }
    eachS c.panels (fun x t =>
      let p := refPort x.1
      let q := refPanel x.1
      t |> panelMod p q (fun y => { y with silenced := x.2.1, keySeq := some x.2.2.1 })
        |> whenS x.2.2.2 (pbMod p (fun y => { y with present := y.present ||| BitVec.ofNat 64 (2 ^ q.val) }))) s

/-- The configuration words of the copy. -/
def takeConfig (s : State) : State :=
  match s.pair.copy with
  | some c => if flaconDiff s then s else eachS c.config loadWord s
  | none => s

/-- The serial of the unit whose live LSA names the pair address: before a take, the partner's. -/
def pairHolder (s : State) (a : Addr) : Option Word :=
  (s.fab.lsas.find? (fun e => !e.tomb && e.lsa.addr = a && e.lsa.serial ≠ s.serial)).map (fun e => e.lsa.serial)

/-- The pair address, held from the take without a claim (R322); LSA and NODE_STATE follow at once. -/
def takeAddress (s : State) : State :=
  let n := memberOf (pairAddr { s with pair := { s.pair with ownHeld := false } })
  let s := pairSet (fun p => { p with peerSerial := pairHolder s (mkAddr (ownZone s) n) }) s
  let s := { s with fab := { s.fab with addressed := true, member := n, claim := none, lost := [], exhausted := false, wonAt := s.clock },
                    store := { s.store with savedNum := some (ownZone s, n) } }
  s |> originate |> sendNodeState

/-- A standby may take over: not while its verdict is FAILING (R329), nor in its own Drydown (R67). -/
def mayTake (s : State) : Bool := isRunning s && s.pair.state = .standby && ownVerdict s ≠ 2

/-- A standby takes OWN (R329, R331). -/
def takeOwn (cause : BitVec 4) (s : State) : State :=
  if !mayTake s || s.pair.ownHeld then s
  else
    s |> pairSet (fun p => { p with
            state := .handoverIn, ownHeld := true, takenAt := s.clock, trigger := cause, probing := false, listening := false, extended := false,
            seizing := false, requested := false, forHandover := false, loopHeld := false })
      |> latch aPAIR_EVENT 0 |> bump aPAIR_TAKEOVERS
      |> takeAddress |> takeConfig |> takeOutputs |> takeRepeats |> takeInputs |> takeEngine |> takeCarried

/-! Releasing OWN (R321, R322). -/

/-- A last LSA for the pair address, with no neighbour entries. -/
def lastLsa (s : State) : State :=
  if s.fab.addressed then
    let s := { s with fab := { s.fab with ownSeq := s.fab.ownSeq + 1 } }
    let l := { ownLsa s with neighs := [] }
    sendFlood (.lsa [l]) 0 (lsaStore ⟨l, false, s.clock⟩ s).2
  else s

/-- Fixatives freeze, the front end isolates, the ports listen, the engine stops; the address is left (R321, R322). -/
def releaseOwn (s : State) : State :=
  if !s.pair.ownHeld then s
  else
    let s := s |> freezeAll |> lastLsa |> latch aPAIR_EVENT 1
    let s := installView [] { s with fab := { s.fab with addressed := false, fwd := [], lost := [] } }
    let s := { s with alm := { s.alm with running := false },
                      pair := { s.pair with ownHeld := false, loopOpen := false, split := false } }
    s |> pbMonitorAll |> refreshAll

/-- The holder releases and becomes the outgoing unit; it then claims its standby number. Where no GRANT told the partner, a RELEASED
frame does (Table 13.3). -/
def becomeOutgoing (say : Bool) (s : State) : State :=
  if !s.pair.ownHeld then s
  else
    let s := s |> whenS say (sendBoth .released) |> releaseOwn |> pairSet (fun p => { p with state := .handoverOut })
    if mayClaim s then claimNext s else s

/-- STANDBY: the fixatives release, and double-send begins for 60 s, unless what ends it early already holds (R324, R336, R338). -/
def enterStandby (s : State) : State :=
  let s := pairSet (fun p => { p with state := .standby, doubleSend := !flaconDiff s && p.pathP.up && p.pathF.up, forHandover := false,
                                      requested := false, diagCnt := Vector.replicate 16 0 }) s
  eachS (List.finRange 16) fixRelease s

/-! Double-send (R336, R338) and planned handovers (R339). -/

/-- Double-send ends; early, it cancels a handover that waits for it (R338). -/
def endDouble (early : Bool) (s : State) : State :=
  if s.pair.state = .standby then
    let s := pairSet (fun p => { p with doubleSend := false, forHandover := p.forHandover && !early, requested := p.requested && !early }) s
    { s with alm := { s.alm with running := false } }
  else pairSet (fun p => { p with doubleSend := false }) s

/-- DOUBLE_SEND_END (R336, R338). While a planned handover waits, the end of the 60 s does not stop it. -/
def effDoubleSendEnd (early : Bool) (s : State) : State :=
  if !s.pair.doubleSend || (!early && s.pair.forHandover) then s else endDouble early s

def execDoubleSendEnd (early : Bool) (s : State) : Out := done (effDoubleSendEnd early s)

/-- A planned handover may be made (R339). -/
def mayPlan (s : State) : Bool := s.pair.state = .standby && !flaconDiff s && peerState s ≠ 4 && ownVerdict s ≠ 2

/-- Begin a planned handover: two seconds of double-send come first. -/
def startPlanned (cause : BitVec 4) (s : State) : State :=
  if mayPlan s && !s.pair.forHandover then
    pairSet (fun p => { p with doubleSend := true, forHandover := true, wanted := cause, triggerAt := s.clock }) s
  else s

/-- The standby's request waits while both units carry a force (R341). -/
def forceClash (s : State) : Bool :=
  match s.pair.peer with | some m => m.forceActive && m.health.getLsbD 26 | none => false

/-- HANDOVER_REQ_SEND (R339). -/
def effHandoverReqSend (s : State) : State :=
  if mayPlan s && s.pair.forHandover && s.pair.doubleSend && !s.pair.requested && !(s.pair.wanted = 6 && forceClash s) then
    s |> pairSet (fun p => { p with requested := true, triggerAt := s.clock }) |> sendBoth .handoverReq
  else s

def execHandoverReqSend (s : State) : Out := done (effHandoverReqSend s)

/-- PAIR_HOLDOFF_LEFT. -/
def holdoffLeft (s : State) : Word :=
  match s.sys.endOfStart with
  | some t => wd (s.pair.holdoff.toNat - (s.clock - t) / 1000000000)
  | none => 0

/-- REVERT_REQUEST (R340), once the hold-off has run; after an undefined case of the block it is unspecified (R57). -/
def effRevertRequest (s : State) : State :=
  let peerForce := match s.pair.peer with | some m => m.forceActive | none => false
  if poisoned s 0x0C0000 then (if (free s).getLsbD 0 then startPlanned 5 (drawn 1 s) else drawn 1 s)
  else if s.cfg.guarded.rolePref = 1 && s.pair.holdoff ≠ 0 && holdoffLeft s = 0 && s.sys.endOfStart.isSome && ownVerdict s = 0 && s.pair.force = 0 && !peerForce && peerState s ≠ 4 &&
      peerVerdict s ≠ 2 then startPlanned 5 s
  else s

def execRevertRequest (s : State) : Out := done (effRevertRequest s)

/-- What a force does (R341): for this unit to become active, or to become the standby. -/
def forceAct (active standby : Bool) (s : State) : State :=
  if active && s.pair.state = .standby then startPlanned 6 s
  else if standby && s.pair.state = .active then sendBoth .handoverReq s
  else s

/-- PAIR_FORCE (RWL, R341): on a STANDBY 0b01 requests a handover; on an ACTIVE 0b10 asks the partner to request one. What the reserved
0b11 does is unspecified (R57). -/
def effPairForceWrite (v : Word) (s : State) : State :=
  lockGuard (fun s =>
    if !isPair s then s
    else
      let f : BitVec 2 := v.setWidth 2
      let s := pairSet (fun p => { p with force := f }) s
      if f = 3 then forceAct ((free s).getLsbD 0) ((free s).getLsbD 1) (undef 0x0C0000 (drawn 1 s))
      else forceAct (f = 1) (f = 2) s) s

def execPairForceWrite (value : Word) (s : State) : Out := done (effPairForceWrite value s)

/-! The loop (R329). -/

/-- A release announced within the last 20 ms. -/
def announced (s : State) : Bool := match s.pair.announcedAt with | some t => decide (s.clock - t ≤ 20000000) | none => false

/-- What a standby does when it sees the loop released. -/
def onReleased (s : State) : State :=
  let s := pairSet (fun p => { p with loopHeld := false }) s
  if !mayTake s || s.pair.listening then s
  else if s.pair.seizing then takeOwn (if s.pair.requested then s.pair.wanted else 2) s
  else if announced s then
    let s := if s.pair.requested then s else pairSet (fun p => { p with triggerAt := s.clock }) s
    takeOwn (if s.pair.requested then s.pair.wanted else 1) s
  else s |> pairSet (fun p => { p with probing := true, triggerAt := s.clock }) |> sendBoth .probe

/-- Seize the loop (R329, Table 13.1). -/
def seize (s : State) : State :=
  if mayTake s && !s.pair.seizing then
    s |> pairSet (fun p => { p with seizing := true, triggerAt := if p.requested then p.triggerAt else s.clock })
      |> bump aPAIR_SEIZES |> latch aPAIR_EVENT 5
  else s

/-- Both paths lost, with the loop held (Table 13.5). -/
def seizeIfAlone (s : State) : State :=
  whenS (!s.pair.pathP.up && !s.pair.pathF.up && s.pair.loopHeld && !s.pair.listening) seize s

/-- OWN_LOOP_RELEASED (R320, R325, R329): what the unit without OWN senses of the loop after 0.5 ms: released, or held. A unit that finds
it held while it listens takes no part in the decision. -/
def effOwnLoopReleased (held : Bool) (s : State) : State :=
  if !isPair s || s.pair.ownHeld then s
  else if held then seizeIfAlone (pairSet (fun p => { p with loopHeld := true, listening := false, extended := false }) s)
  else onReleased s

def execOwnLoopReleased (held : Bool) (s : State) : Out := done (effOwnLoopReleased held s)

/-- PROBE_TIMEOUT (R329): 3 ms without a reply. -/
def effProbeTimeout (s : State) : State := if s.pair.probing then takeOwn 1 s else s

def execProbeTimeout (s : State) : Out := done (effProbeTimeout s)

/-- OWN_LOOP_OPEN (R320): seen by the holder. -/
def execOwnLoopOpen (loopOpen : Bool) (s : State) : Out :=
  done (if s.pair.ownHeld then pairSet (fun p => { p with loopOpen := loopOpen }) s else s)

/-- The listen ends: with the loop released the unit goes on as at a loop release (R325). -/
def endListen (held : Bool) (s : State) : State :=
  let s := pairSet (fun p => { p with listening := false, extended := false, loopHeld := held }) s
  if held then s else onReleased s

/-- The 220 ms of an ALTERNATE's listen, and the second by which it may be extended, in ns. -/
def listenLen : Nat := 220000000
def listenMore : Nat := 1000000000

/-- LISTEN_END (R325): an ALTERNATE that has heard its partner in START or SELFTEST goes on listening, for at most 1 s more. -/
def effListenEnd (held : Bool) (s : State) : State :=
  if s.pair.state ≠ .standby || !s.pair.listening then s
  else if s.pair.extended && s.clock < s.pair.listenFrom + listenLen + listenMore then s
  else endListen held s

def execListenEnd (loopHeld : Bool) (s : State) : Out := done (effListenEnd loopHeld s)

/-- SEIZE_END (R329): OWN is taken as soon as the loop is seen released. -/
def effSeizeEnd (held : Bool) (s : State) : State :=
  if s.pair.seizing then
    if held then pairSet (fun p => { p with loopHeld := true }) s else onReleased s
  else s

def execSeizeEnd (loopHeld : Bool) (s : State) : Out := done (effSeizeEnd loopHeld s)

/-- OWN_SEIZED (R321, R329): the holder releases at once. -/
def effOwnSeized (s : State) : State :=
  if s.pair.ownHeld then s |> bump aPAIR_SEIZES |> latch aPAIR_EVENT 5 |> becomeOutgoing true else s

def execOwnSeized (s : State) : Out := done (effOwnSeized s)

/-- GRANT_TIMEOUT (R339): treated as both paths lost, so the requester seizes. -/
def effGrantTimeout (s : State) : State := if s.pair.requested && s.pair.loopHeld then seize s else s

def execGrantTimeout (s : State) : Out := done (effGrantTimeout s)

/-! Receiving KIND 0x1E. -/

/-- Beats missed on a path before one that comes now: one for each 10 ms without; the five of a lost path are counted (R326). -/
def missedBeats (p : PathSt) (now : Nat) : Nat :=
  let n := (now - p.since + 5000000) / 10000000 - 1
  if p.up then n else n - 5

/-- A beat regains its path (R326). On P it names the partner's address. -/
def hearBeat (onP : Bool) (m : PairMsg) (s : State) : State :=
  if onP then
    bumpBy aPAIR_MISS_P (missedBeats s.pair.pathP s.clock) s
      |> pairSet (fun p => { p with pathP := { p.pathP with up := true, since := s.clock }, peerAddr := some m.addr })
  else
    bumpBy aPAIR_MISS_F (missedBeats s.pair.pathF s.clock) s
      |> pairSet (fun p => { p with pathF := { p.pathF with up := true, since := s.clock } })

/-- What every frame of the partner says (R327). -/
def hearPeer (m : PairMsg) (s : State) : State :=
  pairSet (fun p => { p with peer := some m, peerAt := s.clock, partnerCmd := m.doCmd, peerHealth := m.health }) s

/-- What a beat says to an ALTERNATE that listens (R325): while its partner is in START or SELFTEST, the listen goes on; once it has left
SELFTEST, a listen past its 220 ms ends. -/
def hearListen (s : State) : State :=
  if !s.pair.listening || s.cfg.guarded.rolePref ≠ 2 then s
  else if peerState s ≤ 1 then pairSet (fun p => { p with extended := true }) s
  else if s.pair.extended && s.clock ≥ s.pair.listenFrom + listenLen then endListen s.pair.loopHeld s
  else pairSet (fun p => { p with extended := false }) s

/-- Both units hold OWN (R330): the one that took it later releases. A unit in HANDOVER took later than an ACTIVE one; where the states
do not tell, it is not stated which. -/
def onSplit (m : PairMsg) (s : State) : State :=
  let both := s.pair.ownHeld && m.health.getLsbD 26
  let rise := both && !s.pair.split
  let s := pairSet (fun p => { p with split := both }) s
  let s := if rise then s |> latch aPAIR_EVENT 7 |> bump aPAIR_SPLITS |> (fun t => blockRec 3 0x0C0000 aPAIR_EVENT [] t) else s
  if !both then s
  else
    let theirs := fld m.health 27 3
    if s.pair.state = .handoverIn && theirs ≠ 4 then becomeOutgoing true s
    else if s.pair.state ≠ .handoverIn && theirs = 4 then s
    else
      let b := (free s).getLsbD 0
      let s := drawn 1 s
      if b then becomeOutgoing true s else s

/-- The outgoing unit sees its partner drive the outputs (R324). -/
def onDriven (m : PairMsg) (s : State) : State := if s.pair.state = .handoverOut && m.outputsDriven then enterStandby s else s

/-- A frame of KIND 0x1E is for this unit; a FAULTED unit takes none (R324). -/
def pairHears (rx : Rx) (b : Body) (s : State) : Bool × State :=
  let (ok, s) := receive rx b s
  (ok && isPair s && s.pair.state ≠ .start && s.pair.state ≠ .faulted, s)

/-- BEAT (R323, R324, R327, R329, R330, R338). -/
def effBeat (rx : Rx) (m : PairMsg) (s : State) : State :=
  let (ok, s) := pairHears rx (.pair .beat m) s
  if !ok then s
  else
    let s := s |> hearBeat (rx.link = some linkP) m |> hearPeer m |> onSplit m |> onDriven m |> hearListen
    let s := whenS (s.pair.doubleSend && flaconDiff s && s.pair.state = .standby) (endDouble true) s
    if peerVerdict s = 2 && ownVerdict s < 2 then startPlanned 3 s else s

def execBeat (rx : Rx) (m : PairMsg) (s : State) : Out := done (effBeat rx m s)

/-- PROBE (R329): the active answers. -/
def effProbe (rx : Rx) (m : PairMsg) (s : State) : State :=
  let (ok, s) := pairHears rx (.pair .probe m) s
  if !ok then s
  else
    let s := hearPeer m s
    if s.pair.ownHeld then (if rx.link = some linkP then sendOnP .probeReply s else sendOnF .probeReply s) else s

def execProbe (rx : Rx) (m : PairMsg) (s : State) : Out := done (effProbe rx m s)

/-- PROBE_REPLY (R329, R342): with OWN_HELD the standby stays; a cut loop is latched and counted. -/
def effProbeReply (rx : Rx) (m : PairMsg) (s : State) : State :=
  let (ok, s) := pairHears rx (.pair .probeReply m) s
  if !ok then s
  else
    let s := hearPeer m s
    if s.pair.ownHeld then onSplit m s
    else if s.pair.probing && m.health.getLsbD 26 then
      let s := pairSet (fun p => { p with probing := false }) s
      if m.health.getLsbD 25 then s |> latch aPAIR_EVENT 6 |> bump aPAIR_LOOP_FAULTS else s
    else s

def execProbeReply (rx : Rx) (m : PairMsg) (s : State) : Out := done (effProbeReply rx m s)

/-- The mirror of the present tick (R336). -/
def sendMirrorWith (cmds : List (BitVec 12 × AlmOp)) (s : State) : State :=
  sendPairP (.tickMirror ⟨(runFmt s).1, s.alm.cycle, s.alm.inVals, s.alm.inInstants, cmds, true⟩) s

def sendMirror (s : State) : State := sendMirrorWith [] s

/-- HANDOVER_REQ (R339, R341): the holder grants it, with a last mirror, unless it is refused; a standby that gets one is asked to
request a handover itself. -/
def effHandoverReq (rx : Rx) (m : PairMsg) (s : State) : State :=
  let (ok, s) := pairHears rx (.pair .handoverReq m) s
  if !ok then s
  else
    let s := hearPeer m s
    if s.pair.state = .active then
      if flaconDiff s || fld m.health 27 3 = 4 || fld m.health 30 2 = 2 then s
      else s |> sendMirror |> sendBoth .grant |> becomeOutgoing false
    else startPlanned 6 s

def execHandoverReq (rx : Rx) (m : PairMsg) (s : State) : Out := done (effHandoverReq rx m s)

/-- GRANT (R329, R342): the release is announced; where it was already seen, no probe counts and OWN is taken. -/
def effGrant (rx : Rx) (m : PairMsg) (s : State) : State :=
  let (ok, s) := pairHears rx (.pair .grant m) s
  if !ok then s
  else
    let s := s |> hearPeer m |> pairSet (fun p => { p with announcedAt := some s.clock })
    if s.pair.probing then takeOwn (if s.pair.requested then s.pair.wanted else 1) s else s

def execGrant (rx : Rx) (m : PairMsg) (s : State) : Out := done (effGrant rx m s)

/-- RELEASED (R329): as a GRANT, the release is announced. -/
def effReleased (rx : Rx) (m : PairMsg) (s : State) : State :=
  let (ok, s) := pairHears rx (.pair .released m) s
  if !ok then s
  else
    let s := s |> hearPeer m |> pairSet (fun p => { p with announcedAt := some s.clock })
    if s.pair.probing then takeOwn 1 s else s

def execReleased (rx : Rx) (m : PairMsg) (s : State) : Out := done (effReleased rx m s)

/-- PAIR_PATH_LOST (R326, R329, R338): no beat for 50 ms, since the last or since the beats began. With both paths lost and the
loop held, the standby seizes it. -/
def effPairPathLost (x : PairPath) (s : State) : State :=
  let was := match x with | .p => s.pair.pathP.up | .fabric => s.pair.pathF.up
  if !was || !isPair s || s.pair.state = .start || s.pair.state = .faulted then s
  else
    let s := match x with
      | .p => bumpBy aPAIR_MISS_P 5 (pairSet (fun p => { p with pathP := { p.pathP with up := false } }) s)
      | .fabric => bumpBy aPAIR_MISS_F 5 (pairSet (fun p => { p with pathF := { p.pathF with up := false } }) s)
    let s := latch aPAIR_EVENT 3 s
    let s := whenS (s.pair.doubleSend && s.pair.state = .standby) (endDouble true) s
    seizeIfAlone s

def execPairPathLost (path : PairPath) (s : State) : Out := done (effPairPathLost path s)

/-! The ends of HANDOVER and STANDBY. -/

/-- A fabric neighbour's LSA lists a link to the pair address, or no fabric link is two-way (R333). -/
def neighbourLists (s : State) : Bool :=
  fLinks.all (fun k => !(linkGet s k).twoWay) ||
    fLinks.any (fun k => (linkGet s k).twoWay && (match (linkGet s k).neigh with
      | some x => s.fab.lsas.any (fun e => !e.tomb && e.lsa.addr = x.addr && e.lsa.neighs.any (fun y => y.1 = ownAddr s))
      | none => false))

/-- The end conditions of an incoming unit's HANDOVER, at the latest 2 s after the take (R333). Every output is driven from the take on. -/
def incomingDone (s : State) : Bool :=
  decide (s.clock ≥ s.pair.takenAt + 2000000000) ||
    ((List.finRange 64).all (fun n => chType s n = 0 || !s.afe.gap.getLsbD n.val) && neighbourLists s)

/-- HANDOVER_COMPLETE (R333): the incoming unit is ACTIVE; only now is it eligible. -/
def effHandoverComplete (s : State) : State :=
  if s.pair.state = .handoverIn && incomingDone s then
    let ms := min 65535 ((s.clock - s.pair.triggerAt) / 1000000)
    s |> pairSet (fun p => { p with state := .active, doubleSend := false, lastSwitch := wd (p.trigger.toNat * 2 ^ 28 + ms) })
      |> newVersion |> publishCat |> sendNodeState
  else s

def execHandoverComplete (s : State) : Out := done (effHandoverComplete s)

/-- HANDOVER_OUT_END (R324). -/
def effHandoverOutEnd (s : State) : State := if s.pair.state = .handoverOut then enterStandby s else s

def execHandoverOutEnd (s : State) : Out := done (effHandoverOutEnd s)

/-- STANDBY_FAULTED (R324). -/
def effStandbyFaulted (s : State) : State :=
  if s.pair.state = .standby && ownVerdict s = 2 then
    let s := s |> endDouble true |> pairSet (fun p => { p with state := .faulted }) |> latch aPAIR_EVENT 2
    eachS (List.finRange 16) fixRelease s
  else s

def execStandbyFaulted (s : State) : Out := done (effStandbyFaulted s)

/-- CAL_TEST (R334): CAL_FAIL sets on two consecutive misses of one block. -/
def effCalTest (b : Fin 8) (missed : Bool) (s : State) : State :=
  if s.pair.state = .standby then
    pairSet (fun p => { p with calFail := p.calFail || (missed && p.calMiss[b]), calMiss := p.calMiss.set b missed }) s
  else s

def execCalTest (block : Fin 8) (missed : Bool) (s : State) : Out := done (effCalTest block missed s)

/-! Checkpoints (R335). -/

def ckptOf (s : State) (gen : Word) : Checkpoint :=
  let half := gen.toNat % 2
  { gen := gen, fmt := (runFmt s).1, configId := s.cfg.id, configIssue := s.cfg.issue, cycle := s.alm.cycle, fabricTime := fabUs s,
    runtime := (s.alm.points.filter (fun x => x.1 / 2048 = half)).map (fun x => (x.1, runtimeOf x.2)),
    dos := (List.finRange 16).map (fun k => ⟨doCmd s k, BitVec.ofNat 2 (fixCode (dout s k).fix), fixLeft s k, (dout s k).tsdLatched⟩),
    ars := (List.finRange 8).map (fun k => ⟨(ar s k).code, (ar s k).driven, (valGet s (arSource s k)).value⟩),
    lastGood := (List.finRange 64).map (fun n => ((chan s n).lastGood, instGet s n.val)),
    config := (configDiffs s).take 256,
    subscribers := (s.fab.subscribers.take 64).map (fun x => (x.node, x.mask)),
    panels := s.cfg.panels.map (fun r =>
      let x := panelSt s r.port r.panel
      (panelRef s r.port r.panel, x.silenced, x.keySeq.getD 0, isPresent s r.port r.panel)) }

/-- CHECKPOINT_SEND (R335). -/
def effCheckpointSend (s : State) : State :=
  if isPair s && s.pair.ownHeld then
    let g := s.pair.ckptGen + 1
    s |> pairSet (fun p => { p with ckptGen := g }) |> sendPairP (.checkpoint (ckptOf s g))
      |> whenS ((configDiffs s).length > 256) (latch aPAIR_EVENT 8)
  else s

def execCheckpointSend (s : State) : Out := done (effCheckpointSend s)

/-- The outputs that a checkpoint shows commanded ON (R179). -/
def cmdBits (c : Checkpoint) : BitVec 16 :=
  (c.dos.zipIdx).foldl (fun w x => if x.1.cmd then w ||| BitVec.ofNat 16 (2 ^ x.2) else w) 0

/-- A checkpoint or a mirror that is not taken (R335, R425). -/
def rejectCkpt (s : State) : State := s |> bump aPAIR_CKPT_BAD |> latch aPAIR_EVENT 4

/-- CHECKPOINT (R335, R425): whole, good, of the same Flacon and of a format that the image reads, or the previous one stays. -/
def effCheckpoint (rx : Rx) (c : Checkpoint) (complete crcOk : Bool) (s : State) : State :=
  let (ok, s) := receiveAs (some (.checkpoint rx c complete crcOk)) rx (.checkpoint c) s
  if !ok || !isPair s || s.pair.ownHeld || s.pair.state = .faulted then s
  else if !complete || !crcOk || c.configId ≠ s.cfg.id || c.configIssue ≠ s.cfg.issue || !fmtKnown s c.fmt then rejectCkpt s
  else
    pairSet (fun p => { p with
      copy := some { c with runtime := [] }, partnerCmd := cmdBits c, ckptGen := c.gen, ckptAt := some s.clock,
      copyRuntime := c.runtime.foldl (fun t x => tabPut t x.1 x.2) p.copyRuntime,
      halves := p.halves ||| (if c.gen.toNat % 2 = 0 then 1 else 2) }) s

def execCheckpoint (rx : Rx) (c : Checkpoint) (complete crcOk : Bool) (s : State) : Out := done (effCheckpoint rx c complete crcOk s)

/-- EVENT_MIRROR (R335, R425): NEW_STATE and OCC go into the copy. -/
def effEventMirror (rx : Rx) (fmt : BitVec 16) (e : AlmEvent) (s : State) : State :=
  let (ok, s) := receive rx (.eventMirror fmt e) s
  if !ok || !isPair s || s.pair.ownHeld || s.pair.state = .faulted then s
  else if !fmtKnown s fmt then rejectCkpt s
  else
    let i := (e.tag.setWidth 12 : BitVec 12).toNat
    match tabLook s.pair.copyRuntime i with
    | some (w :: r) =>
      let w' := (w &&& 0x1FFF0000) ||| wd (e.newState.toNat % 8 * 2 ^ 29 + e.occ.toNat)
      pairSet (fun p => { p with copyRuntime := tabPut p.copyRuntime i (w' :: r) }) s
    | _ => s

def execEventMirror (rx : Rx) (fmt : BitVec 16) (e : AlmEvent) (s : State) : Out := done (effEventMirror rx fmt e s)

/-! System causes (Table 8.9). -/

/-- Any condition of a field supply. -/
def supplyCause (f : FieldSupply) : Bool := f.absent || f.low || f.high || f.overCur

/-- Causes 0x10 to 0x17. -/
def blockCause (s : State) (b : Fin 8) : Bool :=
  let k := blk s b
  miscoded s b || k.foldback || k.excLimit || k.cj1Fail || k.cj2Fail || k.cjSpread ||
    (k.plug.isNone && (blkChans b).any (fun n => chType s n ≠ 0))

/-- Causes 0x18 to 0x27. -/
def outputCause (s : State) (k : Fin 16) : Bool :=
  let d := dout s k
  d.openOn || d.openOff || d.extDrive || d.limit || d.tsd || d.tsdLatched || d.stale

/-- The causes in the order of Table 8.9, live. -/
def causeList (s : State) : List Bool :=
  [s.sup.mainsLost, s.sup.mainsLow, s.sup.freqOut, supplyCause s.sup.a, supplyCause s.sup.b, !s.flacon.present,
   s.sys.scrubBehind.toList.any id, s.tim.osf] ++
  (List.finRange 8).map (fun k => (ar s k).dev || (ar s k).refLow || (ar s k).refHigh) ++
  (List.finRange 8).map (blockCause s) ++
  (List.finRange 16).map (outputCause s) ++
  [anyStarved s, s.fab.exhausted, fLinks.any (fun k => (linkGet s k).enabled && (linkGet s k).alone),
   isPair s && (pairPathLostBit s || peerVerdict s = 2), s.pb.c1.busOff, s.pb.c2.busOff, s.pb.c1.clash || s.pb.c2.clash]

/-- The causes as bits: ALM_SYS[3] to ALM_SYS[0] (R200, R209). -/
def sysCauses (s : State) : BitVec 128 :=
  (causeList s).foldr (fun b w => (w <<< 1) ||| (if b then 1 else 0)) 0

/-! The mirror (R336). -/

/-- TICK_MIRROR (R336, R338): the standby's engine evaluates the active's inputs in a cycle of the same ALM_CYCLE, once the copy of
every point has come, with its own system causes latched (R200); an incomplete mirror ends double-send. -/
def effTickMirror (rx : Rx) (m : TickMirror) (s : State) : State :=
  let (ok, s) := receive rx (.tickMirror m) s
  if !ok || !isPair s || s.pair.state ≠ .standby || !s.pair.doubleSend then s
  else if !fmtKnown s m.fmt then endDouble true (rejectCkpt s)
  else if !m.complete then endDouble true s
  else if s.pair.halves ≠ 3 then s
  else
    let points := if s.alm.running then s.alm.points else copyPoints s
    let cmds := match s.pair.peer with | some p => p.doCmd | none => 0
    runCycle { s with alm := { s.alm with
      points := points, running := true, cycle := m.cycle, tickAt := s.clock, latchAt := s.clock, inTime := fabUs s,
      inVals := m.values, inInstants := m.instants, inMeans := s.alm.means, inDo := cmds, inCauses := sysCauses s, cmds := m.commands.take 128 } }

def execTickMirror (rx : Rx) (m : TickMirror) (s : State) : Out := done (effTickMirror rx m s)

/-! Registers (Tables 13.10 and 13.11). -/

def pairStatus (s : State) : Word :=
  if !isPair s then bit true 13 ||| (if isRunning s || s.sys.phase = .drydown then 3 else 0)
  else
    bit s.pair.split 12 ||| bit (flaconDiff s) 11 ||| bit (ckptStale s) 10 ||| bit (peerVerdict s = 2) 9 ||| bit (doubleRunning s) 8 |||
      bit s.pair.pathF.up 7 ||| bit s.pair.pathP.up 6 ||| bit s.pair.loopOpen 5 ||| bit (s.pair.loopHeld && !s.pair.ownHeld) 4 |||
      bit s.pair.ownHeld 3 ||| wd (unitCode s.pair.state)

end Sys2Proof.Machine
end

