-- ==== Sys2Proof/Machine/Calendar.lean ====
section
/-! DEFINITION. Machine/Calendar.lean: the calendar helper (R357) and the matching of calendar alarms (R358). -/
namespace Sys2Proof.Machine

/-- Year, month and day of a day number counted from 2000-01-01, by the Gregorian rules; the year is reckoned from March. -/
def civil (day : Nat) : Nat × Nat × Nat :=
  let z := day + 730425
  let era := z / 146097
  let doe := z % 146097
  let yoe := (doe - doe / 1460 + doe / 36524 - doe / 146096) / 365
  let doy := doe - (365 * yoe + yoe / 4 - yoe / 100)
  let mp := (5 * doy + 2) / 153
  let d := doy - (153 * mp + 2) / 5 + 1
  let m := if mp < 10 then mp + 3 else mp - 9
  (yoe + era * 400 + (if m ≤ 2 then 1 else 0), m, d)

/-- The day number of a date from 2000 on. -/
def dayNumber (y m d : Nat) : Nat :=
  let y := if m ≤ 2 then y - 1 else y
  let era := y / 400
  let yoe := y % 400
  let doy := (153 * (if m > 2 then m - 3 else m + 9) + 2) / 5 + d - 1
  era * 146097 + (yoe * 365 + yoe / 4 - yoe / 100 + doy) - 730425

/-- WEEKDAY of a day number: day 0 was a Saturday, 6. -/
def weekday (day : Nat) : Nat := (day + 5) % 7 + 1

def leapYear (y : Nat) : Bool := y % 4 = 0 && (y % 100 ≠ 0 || y % 400 = 0)

def monthDays (y m : Nat) : Nat :=
  if m = 2 then (if leapYear y then 29 else 28) else if m = 4 ∨ m = 6 ∨ m = 9 ∨ m = 11 then 30 else 31

/-- TIME_DATE and TIME_TOD of a seconds count (Table 14.7). -/
def dateWord (sec : Word) : Word :=
  let day := sec.toNat / 86400
  let (y, m, d) := civil day
  wd (y * 2 ^ 16 + m * 2 ^ 8 + weekday day * 2 ^ 5 + d)

def todWord (sec : Word) : Word :=
  let t := sec.toNat % 86400
  wd (t / 3600 * 2 ^ 16 + t / 60 % 60 * 2 ^ 8 + t % 60)

/-! Fields of Table 14.7. -/

def dYear (w : Word) : Nat := fld w 16 16
def dMonth (w : Word) : Nat := fld w 8 4
def dWday (w : Word) : Nat := fld w 5 3
def dDay (w : Word) : Nat := fld w 0 5
def tHour (w : Word) : Nat := fld w 16 5
def tMin (w : Word) : Nat := fld w 8 6
def tSec (w : Word) : Nat := fld w 0 6

/-- A reserved encoding of a date or a time for the helper (R357). -/
def dateReserved (w : Word) : Bool := dMonth w = 0 || dMonth w > 12 || dDay w = 0
def todReserved (w : Word) : Bool := tHour w > 23 || tMin w > 59 || tSec w > 59

/-- The seconds count of a date and a time of day; none for an impossible date (R357). -/
def helperSec (date tod : Word) : Option Word :=
  let y := dYear date
  let m := dMonth date
  let d := dDay date
  if y < 2000 ∨ d > monthDays y m then none
  else
    let n := dayNumber y m d * 86400 + tHour tod * 3600 + tMin tod * 60 + tSec tod
    if n > 0xFFFFFFFF then none else some (wd n)

/-! Calendar alarms. -/

def talmEn (a : Talm) : Bool := a.ctrl.getLsbD 31

/-- A mask bit of 1 removes its field from the comparison. -/
def maskEq (a : Talm) (b : Nat) (x y : Nat) : Bool := a.ctrl.getLsbD b || x = y

/-- The alarm's date fields match a day. -/
def dayMatches (a : Talm) (day : Nat) : Bool :=
  let (_, m, d) := civil day
  maskEq a 3 (dDay a.date) d && maskEq a 4 (dMonth a.date) m && maskEq a 5 (dWday a.date) (weekday day)

/-- The alarm matches a second (R358). -/
def talmMatches (a : Talm) (sec : Nat) : Bool :=
  let t := sec % 86400
  dayMatches a (sec / 86400) && maskEq a 2 (tHour a.tod) (t / 3600) && maskEq a 1 (tMin a.tod) (t / 60 % 60) &&
    maskEq a 0 (tSec a.tod) (t % 60)

/-- The alarm matches a time of day from `lo` up to, and not with, `hi`. -/
def todBetween (a : Talm) (lo hi : Nat) : Bool :=
  (List.range 24).any (fun h => maskEq a 2 (tHour a.tod) h &&
    (List.range 60).any (fun m => maskEq a 1 (tMin a.tod) m &&
      (List.range 60).any (fun c => maskEq a 0 (tSec a.tod) c &&
        lo ≤ h * 3600 + m * 60 + c && h * 3600 + m * 60 + c < hi)))

/-- Some second after `lo` and before `hi` matches the alarm. -/
def talmBetween (a : Talm) (lo hi : Nat) : Bool :=
  let first := lo + 1
  (List.range ((hi + 86399) / 86400 - first / 86400)).any (fun k =>
    let day := first / 86400 + k
    dayMatches a day && todBetween a (first - day * 86400) (min 86400 (hi - day * 86400)))

/-- A reserved encoding written to TALM_DATE or TALM_TOD on an unmasked field; YEAR has no mask and must be 0 (R358). -/
def talmDateReserved (a : Talm) (w : Word) : Bool :=
  dYear w ≠ 0 || (!a.ctrl.getLsbD 4 && (dMonth w = 0 || dMonth w > 12)) || (!a.ctrl.getLsbD 3 && dDay w = 0) ||
    (!a.ctrl.getLsbD 5 && dWday w = 0)

def talmTodReserved (a : Talm) (w : Word) : Bool :=
  (!a.ctrl.getLsbD 2 && tHour w > 23) || (!a.ctrl.getLsbD 1 && tMin w > 59) || (!a.ctrl.getLsbD 0 && tSec w > 59)

end Sys2Proof.Machine
end

