-- ==== Sys2Proof/Machine/TimeIsland.lean ====
section
/-! DEFINITION. Machine/TimeIsland.lean: the real-time count, its steps, its shadows and the calendar alarms (R345 to R365). -/
namespace Sys2Proof.Machine

def aTIME_EVENT : Nat := 0x030018
def aTIME_STEP_COUNT : Nat := 0x030044
def aTALM_COUNT (j : Fin 2) : Nat := 0x030048 + j.val * 4

/-- Base address of one calendar alarm. -/
def talmBase (j : Fin 2) : Nat := 0x030060 + j.val * 0x10

def timBase : Nat := 0x030000

def timMod (f : TimeSt → TimeSt) (s : State) : State := { s with tim := f s.tim }

def talm (s : State) (j : Fin 2) : Talm := if j = 0 then s.tim.a0 else s.tim.a1

def talmMod (j : Fin 2) (f : Talm → Talm) (s : State) : State :=
  timMod (fun t => if j = 0 then { t with a0 := f t.a0 } else { t with a1 := f t.a1 }) s

/-- CRYSTAL_BAD (Table 14.8): stopped, or more than 5 % off. -/
def crystalBad (s : State) : Bool := s.tim.stopped || s.tim.offFreq

/-- The prescaler now: 32,768 cycles a second while the crystal runs. -/
def fracNow (s : State) : BitVec 15 :=
  if s.tim.stopped then s.tim.frac
  else BitVec.ofNat 15 (min 32767 (s.tim.frac.toNat + (s.clock - s.tim.fracAt) * 32768 / 1000000000))

/-- TIME_FRAC as it stands: the prescaler, and TRUST in bit 0 (R351). -/
def fracWord (s : State) : Word := wd ((fracNow s).toNat * 2 + (if s.tim.osf then 0 else 1))

/-- A record of the time block, written once the recorder runs (R351, R359). -/
def timeRec (sev : BitVec 2) (vals : List Word) (s : State) : State :=
  if s.rcd.running then blockRec sev timBase aTIME_EVENT vals s
  else timMod (fun t => { t with due := t.due ++ [(sev, vals)] }) s

/-- The recorder runs: the records that waited for it are written. -/
def flushDue (s : State) : State :=
  eachS s.tim.due (fun d t => blockRec d.1 timBase aTIME_EVENT d.2 t) (timMod (fun t => { t with due := [] }) s)

/-- OSF sets; a rising edge is latched and recorded at severity 2 (R351). -/
def setOsf (s : State) : State :=
  if s.tim.osf then s else timMod (fun t => { t with osf := true }) s |> latch aTIME_EVENT 0 |> timeRec 2 []

/-- The count stands at its end (R348): OSF sets for good. -/
def reachEnd (s : State) : State := setOsf (timMod (fun t => { t with endOsf := true }) s)

/-- One fire of a calendar alarm (R359); its mark becomes the second given. -/
def talmFire (j : Fin 2) (skipped : Bool) (mark : Word) (s : State) : State :=
  talmMod j (fun a => { a with skipped := skipped, hwm := mark }) s |> latch aTIME_EVENT (5 + j.val)
    |> whenS skipped (latch aTIME_EVENT (7 + j.val)) |> bump (aTALM_COUNT j) |> timeRec 0 []

/-- The check of one second against one alarm (R359); an alarm in an undefined case fires or not, unspecified (R57). -/
def talmCheck (j : Fin 2) (sec : Word) (s : State) : State :=
  let a := talm s j
  if !talmEn a then s
  else if poisoned s (talmBase j) then
    let go := (free s).getLsbD 0
    whenS go (talmFire j false sec) (drawn 1 s)
  else if talmMatches a sec.toNat && a.hwm.toNat < sec.toNat then talmFire j false sec s
  else s

/-- A step seen by one alarm (R360). -/
def talmStep (j : Fin 2) (old new : Word) (s : State) : State :=
  let a := talm s j
  let lo := max old.toNat a.hwm.toNat
  let s :=
    if talmEn a && !poisoned s (talmBase j) && old.toNat < new.toNat && talmBetween a lo new.toNat then
      talmFire j true (new - 1) s
    else s
  talmCheck j new s

/-- A step of the count (Table 14.3, R356). -/
def timeStep (new : Word) (keepFrac clears : Bool) (src : BitVec 2) (s : State) : State :=
  let old := s.tim.sec
  let s := timMod (fun t => { t with sec := new, src := src }) s
  let s := whenS (!keepFrac) (timMod (fun t => { t with frac := 0, fracAt := s.clock })) s
  let s := whenS (clears && new ≠ 0xFFFFFFFF && !crystalBad s && !s.tim.endOsf) (timMod (fun t => { t with osf := false })) s
  let s := whenS (new = 0xFFFFFFFF) reachEnd s
  let s := s |> latch aTIME_EVENT 2 |> bump aTIME_STEP_COUNT |> timeRec 1 [old, new]
  s |> talmStep 0 old new |> talmStep 1 old new

/-- TRIM as a signed count of cycles (R350). -/
def trimCycles (s : State) : Int := s.tim.trim.toInt

/-- The prescaler at the start of a second: at each whole minute it is advanced or held back by TRIM (R350). -/
def secondStart (s : State) : State :=
  let n := if s.tim.sec.toNat % 60 = 0 then trimCycles s else 0
  let late := if n < 0 then (-n).toNat * 1000000000 / 32768 else 0
  timMod (fun t => { t with frac := BitVec.ofNat 15 n.toNat, fracAt := s.clock + late }) s

/-- The supercapacitor's voltage as measured; a rising edge of VCAP_LOW is latched (R347). -/
def measureVcap (mv : BitVec 16) (s : State) : State :=
  let was := decide (s.tim.vcap.toNat < 2200)
  timMod (fun t => { t with vcap := mv }) s |> whenS (mv.toNat < 2200 && !was) (latch aTIME_EVENT 1)

/-- The count after an undefined case of the block (R57): unspecified from second to second. -/
def freeCount (s : State) : State :=
  if poisoned s timBase then let v := free s; timMod (fun t => { t with sec := v }) (drawn 1 s) else s

/-- TIME_SECOND_TICK (R348, R350, R359): while the crystal stands, no second ends. -/
def effTimeSecondTick (vcap : BitVec 16) (s : State) : State :=
  let s := measureVcap vcap s
  if s.tim.stopped then s
  else if s.tim.sec = 0xFFFFFFFF then timMod (fun t => { t with frac := 0, fracAt := s.clock }) s
  else
    let s := secondStart (freeCount (timMod (fun t => { t with sec := t.sec + 1 }) s))
    let s := whenS (s.tim.sec = 0xFFFFFFFF) reachEnd s
    s |> talmCheck 0 s.tim.sec |> talmCheck 1 s.tim.sec

def execTimeSecondTick (vcap : BitVec 16) (s : State) : Out := done (effTimeSecondTick vcap s)

/-- CRYSTAL_STOP (R351): the crystal stops, or runs more than 5 % off. -/
def effCrystalStop (stopped : Bool) (s : State) : State :=
  let f := fracNow s
  setOsf (if stopped then timMod (fun t => { t with stopped := true, frac := f }) s else timMod (fun t => { t with offFreq := true }) s)

def execCrystalStop (stopped : Bool) (s : State) : Out := done (effCrystalStop stopped s)

/-- CRYSTAL_RESTART (R351): the count resumes from where it stopped. -/
def effCrystalRestart (s : State) : State :=
  let f := fracNow s
  timMod (fun t => { t with stopped := false, offFreq := false, frac := f, fracAt := s.clock }) s

def execCrystalRestart (s : State) : Out := done (effCrystalRestart s)

/-- The time block and its calendar alarms, which an undefined case can touch. -/
def timeAddr (a : Nat) : Bool := a / 0x10000 = 3

/-- TIME_ISLAND_POWER_UP (R346): every register of the block at its reset value, OSF set. -/
def effTimeIslandPowerUp (vcap : BitVec 16) (s : State) : State :=
  { s with tim  := { vcap := vcap, fracAt := s.clock },
           unspec := s.unspec.filter (fun a => !timeAddr a),
           rsq := tabDel s.rsq aTIME_EVENT,
           ctr := tabDel (tabDel (tabDel s.ctr aTIME_STEP_COUNT) (aTALM_COUNT 0)) (aTALM_COUNT 1) }
    |> latch aTIME_EVENT 0 |> timeRec 2 []

def execTimeIslandPowerUp (vcap : BitVec 16) (s : State) : Out := done (effTimeIslandPowerUp vcap s)

/-- VCAP_LOW (R347). -/
def execVcapLow (vcap : BitVec 16) (s : State) : Out := done (measureVcap vcap s)

/-- TIME_FRAC_READ (R353): the count is frozen into the shadows, afresh at a second read. -/
def effTimeFracRead (s : State) : State :=
  timMod (fun t => { t with shadow := some ⟨fracWord s, t.sec, dateWord t.sec, todWord t.sec⟩ }) s

def execTimeFracRead (s : State) : Out := done (effTimeFracRead s)

/-- TIME_SEC_HI_READ (R353): the shadows are released. -/
def effTimeSecHiRead (s : State) : State := timMod (fun t => { t with shadow := none }) s

def execTimeSecHiRead (s : State) : Out := done (effTimeSecHiRead s)

/-- TIME_SET_WRITE (R354, R355). -/
def effTimeSetWrite (value : Word) (s : State) : State := timeStep value false true 1 s

def execTimeSetWrite (value : Word) (s : State) : Out := done (effTimeSetWrite value s)

/-- TIME_ADJ_WRITE (R352, R355): refused below 0 or above 0xFFFE_FFFF. -/
def effTimeAdjWrite (value : Word) (s : State) : State :=
  let n := (s.tim.sec.toNat : Int) + value.toInt
  if n < 0 ∨ n > 0xFFFEFFFF then latch aTIME_EVENT 4 s else timeStep (wd n.toNat) true false 1 s

def execTimeAdjWrite (value : Word) (s : State) : Out := done (effTimeAdjWrite value s)

/-- Bits of Table 14.7 that TIME_SET_DATE and TIME_SET_TOD hold. -/
def dateMask : Word := 0xFFFF0FFF
def todMask : Word := 0x001F3F3F

/-- TIME_SET_TOD_WRITE (R357): the helper's conversion as a step; a reserved or impossible date leaves the count unspecified. -/
def effTimeSetTodWrite (value : Word) (s : State) : State :=
  let s := timMod (fun t => { t with setTod := value &&& todMask }) s
  let bad := dateReserved s.tim.setDate || todReserved value
  match (if bad then none else helperSec s.tim.setDate value) with
  | some n => timeStep n false true 1 s
  | none => let v := free s; undef timBase (timeStep v false true 1 (drawn 1 s))

def execTimeSetTodWrite (value : Word) (s : State) : Out := done (effTimeSetTodWrite value s)

/-- A write of TIME_SET_DATE; a reserved encoding is undefined case 1 (R357). -/
def timeSetDateWrite (value : Word) (s : State) : State :=
  timMod (fun t => { t with setDate := value &&& dateMask }) s |> whenS (dateReserved value) (undef timBase)

/-- TIME_CONV_WRITE (R357): the conversion is read from TIME_CONV_DATE and TIME_CONV_TOD. -/
def execTimeConvWrite (value : Word) (s : State) : Out := done (timMod (fun t => { t with conv := value }) s)

/-- TALM_WRITE (R358, R359): TALM_CTRL, TALM_DATE or TALM_TOD; the mark becomes the current count. -/
def effTalmWrite (j : Fin 2) (reg : Fin 3) (value : Word) (s : State) : State :=
  let a := talm s j
  let bad := (reg = 1 && talmDateReserved a value) || (reg = 2 && talmTodReserved a value)
  let put := fun (x : Talm) =>
    if reg = 0 then { x with ctrl := value &&& 0x8000003F } else if reg = 1 then { x with date := value &&& dateMask }
    else { x with tod := value &&& todMask }
  talmMod j (fun x => { put x with hwm := s.tim.sec }) s |> whenS bad (undef (talmBase j))

def execTalmWrite (j : Fin 2) (reg : Fin 3) (value : Word) (s : State) : Out := done (effTalmWrite j reg value s)

/-- FABRIC_TIME_ADOPT (R363): only with OSF set, fabric time synchronised, and the root's TIME_OK in the latest mark. -/
def effFabricTimeAdopt (s : State) : State :=
  if s.tim.osf && s.fab.synced && s.fab.rootTimeOk then
    timeStep (wd (min 0xFFFFFFFF (fabNs s / 1000000000))) false true 2 s |> latch aTIME_EVENT 3
  else s

def execFabricTimeAdopt (s : State) : Out := done (effFabricTimeAdopt s)

/-- The count in ms. -/
def countMs (s : State) : Nat := s.tim.sec.toNat * 1000 + (fracNow s).toNat * 1000 / 32768

/-- A difference in two's complement, saturating at ±(2^31 − 1). -/
def satDiff (d : Int) : Word := BitVec.ofInt 32 (max (-2147483647) (min 2147483647 d))

/-- FT_DIFF_UPDATE (R362): from the moment the node has a fabric time (R281). -/
def effFtDiffUpdate (s : State) : State :=
  if !s.fab.ftOn then s else
  timMod (fun t => { t with ftDiff := satDiff (((fabNs s / 1000000 : Nat) : Int) - countMs s) }) s

def execFtDiffUpdate (s : State) : Out := done (effFtDiffUpdate s)

/-- TIME_STATUS (Table 14.8). -/
def timeStatus (s : State) : Word :=
  wd (s.tim.src.toNat * 64) ||| bit s.tim.shadow.isSome 5 ||| bit (s.tim.vcap.toNat ≥ 2900) 4 ||| bit (s.tim.vcap.toNat < 2200) 3 |||
    bit (crystalBad s) 2 ||| bit (s.tim.sec = 0xFFFFFFFF) 1 ||| bit s.tim.osf 0

end Sys2Proof.Machine
end

