-- ==== Sys2Proof/Machine/AlarmRows.lean ====
section
/-! DEFINITION. Machine/AlarmRows.lean: the engine's cycle, its commands and the release of held copies (R186 to R208). -/
namespace Sys2Proof.Machine

/-! The cycle (Table 8.1). -/

/-- Effective commands of DO00 to DO15, as step 1 latches them. -/
def latchInputs (s : State) : State :=
  { s with alm := { s.alm with inVals := s.vals, inInstants := s.alm.instants, inMeans := s.alm.means, inDo := doCmdWord s,
                               inCauses := sysCauses s, inTime := fabUs s, latchAt := s.clock, tickAt := s.clock,
                               cycle := s.alm.cycle + 1 } }

/-- The engine serves its watchdog channel when the last slot ends (R27). -/
def engineServed (s : State) : State := { s with sys := { s.sys with wdEngine := { s.sys.wdEngine with servedAt := s.clock } } }

/-- One cycle (R186). A standby does not evaluate of itself (R324); the holder of OWN mirrors the tick while its partner double-sends (R336). -/
def effAlarmCycleTick (s : State) : State :=
  if s.alm.running && isActiveUnit s then
    let s := latchInputs s
    let s := whenS (isPair s && s.pair.peerHealth.getLsbD 24) (sendMirrorWith (s.alm.cmds.take 128)) s
    engineServed (runCycle s)
  else s

def execAlarmCycleTick (s : State) : Out := done (effAlarmCycleTick s)

/-! The ends of delays, blocks and shelves, in the slot that brings them (R201 to R203). -/

/-- A change of an enabled point's record in its slot, then Table 8.10; what an undefined case has touched is unspecified (R57). -/
def slotChange (i : Nat) (f : Point → Option Point) (s : State) : State :=
  let s := useEnable i s
  let p := pointGet s i
  if !s.alm.running || !pEnabled p || p.memFault then s
  else match f p with
    | none => s
    | some p' =>
      let (q, ev) := if pointFree s i then slotFree s p else transition p'
      let s := whenS (pointFree s i) (drawn 2) (pointSet i q s)
      match ev with
      | some c => let (l, t) := emitAlarm i p.st q c ([], s); countPhase (offerAlarms l t)
      | none => countPhase s

def effOnDelayExpiry (i : Nat) (s : State) : State :=
  slotChange i (fun p => if p.raw && !p.cond && !p.frozen then some { p with cond := true, onCount := 0, offCount := 0 } else none) s
def execOnDelayExpiry (point : Fin 4096) (s : State) : Out := done (effOnDelayExpiry point.val s)

def effOffDelayExpiry (i : Nat) (s : State) : State :=
  slotChange i (fun p => if !p.raw && p.cond && !p.frozen then some { p with cond := false, onCount := 0, offCount := 0 } else none) s
def execOffDelayExpiry (point : Fin 4096) (s : State) : Out := done (effOffDelayExpiry point.val s)

def effBlockDelayExpiry (i : Nat) (s : State) : State :=
  slotChange i (fun p => if p.blockNow then some { p with blockNow := false, blkCount := 0 } else none) s
def execBlockDelayExpiry (point : Fin 4096) (s : State) : Out := done (effBlockDelayExpiry point.val s)

def effShelveExpiry (i : Nat) (s : State) : State :=
  slotChange i (fun p => if p.shelveLeft ≠ 0 then some { p with shelveLeft := 0 } else none) s
def execShelveExpiry (point : Fin 4096) (s : State) : Out := done (effShelveExpiry point.val s)

/-! Commands and window writes (R187, R204, R208). -/

def execAlmCmdAck (index : BitVec 12) (occ : BitVec 16) (s : State) : Out := done (queueCmd index (.ack occ) s)
def execAlmCmdShelve (index : BitVec 12) (secs : BitVec 15) (s : State) : Out := done (queueCmd index (.shelve secs) s)
def execAlmCmdUnshelve (index : BitVec 12) (s : State) : Out := done (queueCmd index .unshelve s)
def execAlmRecWrite (w : Fin 16) (value : Word) (s : State) : Out := done (recWrite w.val value s)

/-! Copies held before the win (R206). -/

/-- The destination runs somewhere and every node that runs it is reached. -/
def heldReady (s : State) (h : HeldCopy) : Bool := !(itemTargets s h.item).isEmpty && itemRouted s h.item

/-- The tag with the won address. -/
def wonTag (s : State) (e : AlmEvent) : AlmEvent := { e with tag := wd ((pairAddr s).toNat * 4096 + e.tag.toNat % 4096) }

def effEventCopyRelease (s : State) : State :=
  if !s.fab.addressed then s
  else
    let out := s.alm.held.filter (heldReady s)
    let rest := s.alm.held.filter (fun h => !heldReady s h)
    offerAlarms (out.map (fun h => (h.item, wonTag s h.ev))) { s with alm := { s.alm with held := rest } }
def execEventCopyRelease (s : State) : Out := done (effEventCopyRelease s)

def effEventCopyDiscard (s : State) : State :=
  if !s.fab.addressed then s
  else
    let gone := s.alm.held.filter (fun h => !heldReady s h)
    let rest := s.alm.held.filter (heldReady s)
    bumpBy aFAB_NOROUTE_DROP gone.length { s with alm := { s.alm with held := rest } }
def execEventCopyDiscard (s : State) : Out := done (effEventCopyDiscard s)

end Sys2Proof.Machine
end

