-- ==== Sys2Proof/Machine/Analogue.lean ====
section
/-! DEFINITION. Machine/Analogue.lean: plugs, excitation, the block budget, calibration and channel configuration (chapter 5). -/
namespace Sys2Proof.Machine

/-! Plugs (R111). -/

/-- The supply voltages and draws of a block stop with its excitation. -/
def blkOff (b : Fin 8) (s : State) : State :=
  blkMod b (fun k => { k with foldback := false, excLimit := false, excP := 0 }) s

def latchPlug (b : Fin 8) (s : State) : State := eachS (blkChans b) (fun n t => latch (aAFE n 0x9C) 0 t) s

/-- The types of a block's channels are used (R50). -/
def useTypes (b : Fin 8) (s : State) : State := eachS (blkChans b) useType s

/-- PLUG_ACCEPTED (R111): the plug seen present is accepted, or found miscoded. Either ends the plug's absence (R157). -/
def effPlugAccepted (b : Fin 8) (code : BitVec 3) (s : State) : State :=
  if (blk s b).plug.isSome then s
  else
    let s := useTypes b s
    let s := latchPlug b (blkMod b (fun k => { k with plug := some code }) s)
    let s := bump (aAFE (chOf b 0) 0xBC) s
    let s := chanRec (if plugOk s b then 1 else 2) (chOf b 0) s
    eachS (blkChans b) (fun n t => if chType t n = 0 then t else restartAwait n t) s

def execPlugAccepted (b : Fin 8) (code : BitVec 3) (s : State) : Out := done (effPlugAccepted b code s)

/-- PLUG_REMOVED (R111): excitation off, BAD_BREAK, and a record of the removal; removing a miscoded plug ends its BAD_EXC, which
restarts the filters (R157). -/
def effPlugRemoved (b : Fin 8) (s : State) : State :=
  if (blk s b).plug.isNone then s
  else
    let before := s
    let s := latchPlug b (blkOff b (blkMod b (fun k => { k with plug := none }) s))
    let s := eachS (blkChans b) (fun n t => chanMod n (fun c => { c with await := false }) t) (chanRec 1 (chOf b 0) s)
    if miscoded before b then eachS (blkChans b) restartChan s else eachS (blkChans b) refreshQuality s

def execPlugRemoved (b : Fin 8) (s : State) : Out := done (effPlugRemoved b s)

/-! Causes of BAD_EXC (R118, R119, R125, R127). -/

/-- EXC_UNREG (R118): on a channel whose excitation is regulated at its sense terminals. -/
def effExcUnreg (n : Fin 64) (on : Bool) (s : State) : State :=
  let s := useType n s
  let w := cfgWord s n
  if on = (chan s n).excUnreg then s
  else if on then
    if excOn s n && (typeOf w = 0x20 || (typeOf w = 0x50 && wiresOf w = 5)) then
      refreshQuality n (latch (aAFE n 0x9C) 4 (chanMod n (fun c => { c with excUnreg := true }) s))
    else s
  else restartChan n (chanMod n (fun c => { c with excUnreg := false }) s)

def execExcUnreg (n : Fin 64) (on : Bool) (s : State) : Out := done (effExcUnreg n on s)

/-- LOOP_LIMIT (R119): on a loop-powered channel; the loop supply does not switch off. -/
def effLoopLimit (n : Fin 64) (on : Bool) (s : State) : State :=
  let s := useType n s
  if on = (chan s n).loopLimit then s
  else if on then
    if excOn s n && chType s n = 0x30 then latch (aAFE n 0x9C) 3 (chanMod n (fun c => { c with loopLimit := true }) s) else s
  else chanMod n (fun c => { c with loopLimit := false }) s

def execLoopLimit (n : Fin 64) (on : Bool) (s : State) : Out := done (effLoopLimit n on s)

/-- EXC_LIMIT (R125): the current limit of a voltage source. -/
def effExcLimit (n : Fin 64) (on : Bool) (s : State) : State :=
  let s := useType n s
  if on = (chan s n).excLimit then s
  else if on then
    if excOn s n && isVexc (chType s n) then
      refreshQuality n (latch (aAFE n 0x9C) 1 (chanMod n (fun c => { c with excLimit := true }) s))
    else s
  else restartChan n (chanMod n (fun c => { c with excLimit := false }) s)

def execExcLimit (n : Fin 64) (on : Bool) (s : State) : Out := done (effExcLimit n on s)

/-! The block budget (R126 to R128). -/

/-- The rail a type's draw is counted at, in V (Table 5.8). -/
def railOf (t : Nat) : Nat := if isRtd t then 5 else if isVexc t then 12 else if t = 0x30 then 24 else 0

/-- BLOCK_DRAW_MEASURE (R126, R127): `ua` lists the current each channel draws, in µA. BLK_EXC_P shows whole mW; the spec gives no
rounding, and rounding down is a DESIGN CHOICE (log entry 119). -/
def effBlockDrawMeasure (b : Fin 8) (ua : List Nat) (s : State) : State :=
  let s := useTypes b s
  let draw := fun (k : Fin 8) => if excOn s (chOf b k) then railOf (chType s (chOf b k)) * ua.getD k.val 0 else 0
  let s1 := (List.finRange 8).foldl (fun t k => chanMod (chOf b k) (fun c => { c with draw := draw k }) t) s
  let sum := ((List.finRange 8).map draw).sum
  let tooMuch := sum > 1200000
  let s1 := whenS (tooMuch && !(blk s b).excLimit) (bump (aAFE (chOf b 0) 0xB4)) s1
  blkMod b (fun k => { k with excP := BitVec.ofNat 16 (min (sum / 1000) 65535), excLimit := tooMuch }) s1

def execBlockDrawMeasure (b : Fin 8) (ua : List Nat) (s : State) : Out := done (effBlockDrawMeasure b ua s)

/-- FOLDBACK (R127): its end restarts the filters of the channels whose excitation is on. -/
def effFoldback (b : Fin 8) (on : Bool) (s : State) : State :=
  let s := useTypes b s
  if on = (blk s b).foldback then s
  else if on then eachS (blkChans b) refreshQuality (blkMod b (fun k => { k with foldback := true }) s)
  else
    eachS (blkChans b) (fun n t => if excOn t n then restartChan n t else t) (blkMod b (fun k => { k with foldback := false }) s)

def execFoldback (b : Fin 8) (on : Bool) (s : State) : Out := done (effFoldback b on s)

/-- The channel to shed: the largest counted draw, the higher number on a tie (R127). -/
def shedPick (s : State) (b : Fin 8) : Option (Fin 64) :=
  (blkChans b).foldl (fun o n =>
    if excOn s n && railOf (chType s n) ≠ 0 then
      match o with
      | some m => if (chan s m).draw ≤ (chan s n).draw then some n else o
      | none => some n
    else o) none

/-- EXC_SHED (R127, R128). -/
def effExcShed (b : Fin 8) (s : State) : State :=
  let s := useTypes b s
  if !(blk s b).excLimit then s
  else match shedPick s b with
    | none => s
    | some n =>
      let k := blk s b
      let s := chanMod n (fun c => { c with shed := true }) s
      let s := blkMod b (fun k => { k with
        retry := if k.observing then some (s.clock + 600000000000) else if k.retry.isNone then some (s.clock + 10000000000) else k.retry,
        observing := false }) s
      let s := s |> latch (aAFE n 0x9C) 2 |> bump (aAFE (chOf b 0) 0xB8)
      let s := chanRec 1 n s
      if k.foldback then eachS (blkChans b) refreshQuality s else refreshQuality n s

def execExcShed (b : Fin 8) (s : State) : Out := done (effExcShed b s)

/-- A shed channel is switched on again; with none left shed, no retry is scheduled (R128). -/
def unshed (n : Fin 64) (s : State) : State :=
  if (chan s n).shed then chanMod n (fun c => { c with shed := false }) s else s

def endRetry (b : Fin 8) (s : State) : State :=
  whenS (blkShed s b = 0 && !(blk s b).observing) (blkMod b (fun k => { k with retry := none })) s

/-- SHED_RETRY (R128): the lowest shed channel is restored and observed for 1 s. -/
def effShedRetry (b : Fin 8) (s : State) : State :=
  let s := useTypes b s
  if (blk s b).retry.isNone then s
  else match (blkChans b).find? (fun n => (chan s n).shed) with
    | none => s
    | some n => restartChan n (blkMod b (fun k => { k with observing := true }) (unshed n s))

def execShedRetry (b : Fin 8) (s : State) : Out := done (effShedRetry b s)

/-- SHED_RETRY_CHECK (R128): the observation ends without a new shed. "If EXC_LIMIT sets within 1 s" is tested where the second ends and
by a shed within it: an EXC_LIMIT that set and cleared again without a shed counts as a good retry (DESIGN CHOICE, log entry 120). -/
def effShedRetryCheck (b : Fin 8) (s : State) : State :=
  if !(blk s b).observing || (blk s b).excLimit then s
  else
    blkMod b (fun k => { k with
      observing := false,
      retry := if blkShed s b ≠ 0 then some (s.clock + 10000000000) else none }) s

def execShedRetryCheck (b : Fin 8) (s : State) : Out := done (effShedRetryCheck b s)

/-! Calibration (R123). -/

/-- The bound of CAL_OFFSET for a configuration word. -/
def calBound (w : Word) : F32 :=
  let t := typeOf w
  if t = 0x20 then fOfRat ([25, 50, 100, 200].getD (rangeOf w) 25 * 105) 100000
  else if isLoop t then fOfRat 25 100
  else if t = 0x40 then fOfRat 125 1000
  else if t = 0x50 then fOfRat 102 10000
  else fOfInt 5

def calGet (s : State) (n : Fin 64) : F32 × F32 × Word := tabGet (fOne, 0, 0) s.store.cal n.val

def calSet (n : Fin 64) (v : F32 × F32 × Word) (s : State) : State :=
  { s with store := { s.store with cal := tabSet (fOne, 0, 0) s.store.cal n.val v } }

def clampGain (v : F32) : F32 := if isNaN v then fOne else fClamp (fOfRat 9 10) (fOfRat 11 10) v
def clampOffset (w : Word) (v : F32) : F32 := if isNaN v then 0 else fClamp (fNegate (calBound w)) (calBound w) v

/-- A calibration write on a unit that does not hold OWN leaves both trims unspecified (R343, undefined case 8). -/
def ownedCal (n : Fin 64) (f : State → State) (s : State) : State :=
  if isPair s && !s.pair.ownHeld then
    drawn 2 (calSet n (Config.freeWord s.fresh, Config.freeWord (s.fresh + 1), (calGet s n).2.2) s)
  else f s

/-- CAL_GAIN_WRITE (R123). -/
def effCalGainWrite (n : Fin 64) (value : Word) (s : State) : State :=
  lockGuard (ownedCal n (fun s =>
    let v := clampGain value
    whenS (v ≠ value) (latch (aAFE n 0x9C) 6) (calSet n (v, (calGet s n).2.1, s.store.opSeconds) s))) s

def execCalGainWrite (n : Fin 64) (value : Word) (s : State) : Out := done (effCalGainWrite n value s)

/-- CAL_OFFSET_WRITE (R123). -/
def effCalOffsetWrite (n : Fin 64) (value : Word) (s : State) : State :=
  lockGuard (ownedCal n (fun s =>
    let s := useType n s
    let v := clampOffset (cfgWord s n) value
    whenS (v ≠ value) (latch (aAFE n 0x9C) 6) (calSet n ((calGet s n).1, v, s.store.opSeconds) s))) s

def execCalOffsetWrite (n : Fin 64) (value : Word) (s : State) : Out := done (effCalOffsetWrite n value s)

/-! Configuration (R123, R128, R135, Table 5.20). -/

/-- A write to AFE_CFG or AFE_EXC of a shed channel restores it at once (R128). -/
def restoreShed (n : Fin 64) (s : State) : State := endRetry (blkOf n) (unshed n s)

/-- The offset held is clamped to the bound of a new type; CAL_STAMP stays (R123). -/
def reclampOffset (n : Fin 64) (s : State) : State :=
  let (g, o, st) := calGet s n
  let o' := clampOffset (cfgWord s n) o
  whenS (o' ≠ o) (fun t => latch (aAFE n 0x9C) 6 (calSet n (g, o', st) t)) s

/-- Conditions of the source and of the terminals that end when the source or the type that made them is gone. -/
def dropCauses (c : Chan) : Chan :=
  { c with excLimit := false, loopLimit := false, excUnreg := false, modRange := false, termRange := false, excLost := false,
           loopOpen := false, open_ := false, short := false, openCnt := 0, shortCnt := 0, measHi := false, measLo := false,
           limHi := false, limLo := false, await := false }

/-- AFE_CFG_WRITE (R50, R135): reserved bits are ignored, and all three copies are written. -/
def effAfeCfgWrite (n : Fin 64) (value : Word) (s : State) : State :=
  ownedWrite (aAFE n 0) (fun s =>
    let s := useType n s
    let before := s
    let old := cfgWord s n
    let new := value &&& 0x3FFF
    let t := typeOf new
    let s := restoreShed n (triSet (aAFE n 0) new s)
    let bad := cfgWordBad new || excWordBad t (regGet s (aAFE n 4)) || leadBad t (wiresOf new) (regGet s (aAFE n 0x20)) ||
      cjWordBad t (regGet s (aAFE n 0x0C))
    let s := whenS bad (chanUndef n) s
    let typed := t ≠ typeOf old
    let s := whenS typed (fun u => reclampOffset n (latch (aAFE n 0x9C) 5
      (chanMod n (fun c => { dropCauses c with lastGood := 0, cjUsed := if isTc t then c.cjUsed else 0 }) u))) s
    if t = 0 then whenS typed (fun u => refreshTrack n (stopChan n u)) s
    else if typed || wiresOf new ≠ wiresOf old then refreshTrack n (restartAwait n s)
    else if new ≠ old then restartChan n s
    else afterCauses n before s) s

def execAfeCfgWrite (n : Fin 64) (value : Word) (s : State) : Out := done (effAfeCfgWrite n value s)

/-- AFE_EXC_WRITE (R135): the source moves and the filter restarts. -/
def effAfeExcWrite (n : Fin 64) (value : Word) (s : State) : State :=
  ownedWrite (aAFE n 4) (fun s =>
    let new := value &&& 0xC3FF
    let s := restoreShed n (regSet (aAFE n 4) new (useType n s))
    let s := whenS (excWordBad (chType s n) new) (chanUndef n) s
    if chType s n = 0 then s else restartChan n s) s

def execAfeExcWrite (n : Fin 64) (value : Word) (s : State) : Out := done (effAfeExcWrite n value s)

/-- AFE_RATE_WRITE (R135). -/
def effAfeRateWrite (n : Fin 64) (value : Word) (s : State) : State :=
  ownedWrite (aAFE n 8) (fun s =>
    let new := value &&& 7
    let s := whenS (rateWordBad new) (chanUndef n) (regSet (aAFE n 8) new (useType n s))
    if chType s n = 0 then s else refreshTrack n (restartChan n s)) s

def execAfeRateWrite (n : Fin 64) (value : Word) (s : State) : Out := done (effAfeRateWrite n value s)

/-- A write to another configuration word of a channel: applied from the next output sample (R135). -/
def afeWordWrite (n : Fin 64) (off : Nat) (value : Word) (s : State) : State :=
  ownedWrite (aAFE n off) (fun s =>
    let v := if off = 0x0C then value &&& 0xFFFF0FFF else value
    let s := regSet (aAFE n off) v (useType n s)
    let w := cfgWord s n
    let bad := if off = 0x0C then cjWordBad (typeOf w) v
      else if off = 0x18 || off = 0x1C then limitsBad (regGet s (aAFE n 0x18)) (regGet s (aAFE n 0x1C))
      else if off = 0x20 then leadBad (typeOf w) (wiresOf w) v
      else false
    whenS bad (chanUndef n) s) s

/-! Cold junctions (R129, R130). -/

/-- A sensor has failed: open, short, or outside -40 to +105 °C. -/
def cjBad (r : CjReading) : Bool := r.broken || !(fLe (fOfInt (-40)) r.temp && fLe r.temp (fOfInt 105))

/-- Two readable sensors differ by more than 5.0 °C (R130). -/
def cjApart (r1 r2 : CjReading) : Bool := !r1.broken && !r2.broken && fLt (fOfInt 5) (fAbs (fSub r1.temp r2.temp))

/-- CJ_MEASURE (R129, R130): CJ_SPREAD stays while the two differ. The end of CJ_SUBST acts at once (R156). -/
def effCjMeasure (b : Fin 8) (r1 r2 : CjReading) (s : State) : State :=
  let s := blkMod b (fun k => { k with cj1 := r1.temp, cj2 := r2.temp, cj1Fail := cjBad r1, cj2Fail := cjBad r2,
                                       cjApart := cjApart r1 r2, cjSpread := k.cjSpread && cjApart r1 r2 }) (useTypes b s)
  eachS (blkChans b) refreshQuality s

def execCjMeasure (b : Fin 8) (r1 : CjReading) (r2 : CjReading) (s : State) : Out := done (effCjMeasure b r1 r2 s)

/-- CJ_SPREAD (R130): after 10 s in which the two differ, or its end, which does not come while they differ. -/
def effCjSpread (b : Fin 8) (on : Bool) (s : State) : State :=
  blkMod b (fun k => { k with cjSpread := k.cjApart && (on || k.cjSpread) }) s

def execCjSpread (b : Fin 8) (on : Bool) (s : State) : Out := done (effCjSpread b on s)

end Sys2Proof.Machine
end

