-- ==== Sys2Proof/Machine/Conversion.lean ====
section
/-! DEFINITION. Machine/Conversion.lean: output samples, restarts, the spritz and the coarse detector (chapter 6, R120 to R122). -/
namespace Sys2Proof.Machine

/-! The electrical quantity (Table 5.4, R120). -/

/-- The excitation voltage set, in mV (Table 5.15). -/
def excMv (s : State) (n : Fin 64) : Nat := 1000 + 10 * fld (regGet s (aAFE n 4)) 0 10

/-- The bridge range in tenths of mV/V (Table 5.14). -/
def bridgeRange (w : Word) : Nat := [25, 50, 100, 200].getD (rangeOf w) 25

/-- Full scale of the modulator range, in µV (Table 5.4). -/
def fullScale (s : State) (n : Fin 64) : Nat :=
  let w := cfgWord s n
  let t := typeOf w
  if t = 0x01 then (if fld (regGet s (aAFE n 4)) 14 2 = 1 then 1250000 else 312500)
  else if t = 0x02 || isLoop t then 1250000
  else if isTc t then 80000
  else if t = 0x20 then (if bridgeRange w * excMv s n ≤ 800000 then 80000 else 312500)
  else 12500000

/-- The set current of an RTD, in nA. -/
def setCurrent (s : State) (n : Fin 64) : Nat := if fld (regGet s (aAFE n 4)) 14 2 = 1 then 1000000 else 250000

/-- R(T)/R(0) of IEC 60751 at T = t / 2^20 °C, times 10^12 · 2^80 (R120). -/
def rtdRatio (t : Int) : Int :=
  let u : Int := 2 ^ 20
  let base := 1000000000000 * u ^ 4 + 3908300000 * t * u ^ 3 - 577500 * t ^ 2 * u ^ 2
  if t < 0 then base - 4183 * (t - 100 * u) * t ^ 3 / 1000 else base

/-- Temperature in units of 2^-20 °C by bisection: the largest in the interval whose ratio is at most num / den. -/
def rtdSearch (fuel : Nat) (lo hi : Int) (num den : Int) : Int :=
  match fuel with
  | 0 => lo
  | f + 1 =>
    let m := (lo + hi) / 2
    if rtdRatio m * den ≤ num * (1000000000000 * (2 ^ 20) ^ 4) then rtdSearch f m hi num den else rtdSearch f lo m num den

/-- p of a sample, and where the quantity lies beyond the extent of the reference function, on which side (true: above). -/
structure Prim where
  p : F32
  beyond : Option Bool := none

/-- p of a sample (R120): `raw` is the filter output, `iexc` the excitation current in nA and `vexc` the voltage across the
excitation or sense terminals in µV, both measured on the sample. A p the spec states no result for is a free value (log entry 48). -/
def primary (s : State) (n : Fin 64) (raw : BitVec 24) (iexc vexc : Nat) : Prim :=
  let w := cfgWord s n
  let t := typeOf w
  let v : Int := raw.toInt * fullScale s n
  if isRtd t then
    if iexc = 0 then ⟨free s, none⟩
    else
      let r0 : Int := if t = 0x01 then 100 else 1000
      let lead := if wiresOf w = 2 then fFix (regGet s (aAFE n 0x20)) else 0
      let num : Int := v * 1000 * 2 ^ 149 - lead * (8388607 * iexc : Nat)
      let den : Int := r0 * (8388607 * iexc : Nat) * 2 ^ 149
      let lim := num * (1000000000000 * (2 ^ 20) ^ 4)
      if rtdRatio (-273 * 2 ^ 20) * den > lim then ⟨free s, some false⟩
      else if rtdRatio (3380 * 2 ^ 20) * den < lim then ⟨free s, some true⟩
      else ⟨fOfRat (rtdSearch 40 (-273 * 2 ^ 20) (3381 * 2 ^ 20) num den) (2 ^ 20), none⟩
  else if isTc t then
    let cj := cjTemp s n
    let ext := tcExtent t
    if !(fLe (fOfInt ext.1) cj && fLe cj (fOfInt ext.2)) then ⟨free s, none⟩
    else
      let mv : Rat := (v : Rat) / (8388607 * 1000) + tcVoltage t (fToQ cj)
      if mv < tcVoltage t ext.1 then ⟨free s, some false⟩
      else if tcVoltage t ext.2 < mv then ⟨free s, some true⟩
      else ⟨fOfRat (tcSearch 40 t mv (ext.1 * 2 ^ 20) (ext.2 * 2 ^ 20 + 1)) (2 ^ 20), none⟩
  else if t = 0x20 then (if vexc = 0 then ⟨free s, none⟩ else ⟨fOfRat (1000 * v) (8388607 * vexc), none⟩)
  else if isLoop t then ⟨fOfRat v (8388607 * 50000), none⟩
  else if t = 0x40 then ⟨fOfRat v (8388607 * 1000000), none⟩
  else if t = 0x50 then (if vexc = 0 then ⟨free s, none⟩ else ⟨fOfRat v (8388607 * vexc), none⟩)
  else ⟨free s, none⟩

/-! Ranges (R122, R157). -/

/-- Measurable range of p in thousandths (Table 5.6). -/
def measRange (w : Word) : Int × Int :=
  match typeOf w with
  | 0x01 => (-200000, 850000)
  | 0x02 => (-200000, 850000)
  | 0x10 => (-210000, 1200000)
  | 0x11 => (-270000, 1372000)
  | 0x12 => (-270000, 1300000)
  | 0x13 => (-270000, 400000)
  | 0x14 => (-270000, 1000000)
  | 0x20 => (-(bridgeRange w * 105 : Nat), (bridgeRange w * 105 : Nat))
  | 0x30 => (0, 25000)
  | 0x31 => (0, 25000)
  | 0x40 => (-500, 12500)
  | _ => (-20, 1020)

/-- Default limits in thousandths (Table 5.6). -/
def defLimits (w : Word) : Int × Int :=
  match typeOf w with
  | 0x20 => (-(bridgeRange w * 100 : Nat), (bridgeRange w * 100 : Nat))
  | 0x30 => (3600, 21000)
  | 0x31 => (3600, 21000)
  | 0x40 => (-200, 10500)
  | 0x50 => (-10, 1010)
  | _ => measRange w

/-- The limits on p_cal (R122). -/
def limitsOf (s : State) (n : Fin 64) : F32 × F32 :=
  let lo := regGet s (aAFE n 0x18)
  let hi := regGet s (aAFE n 0x1C)
  if fZero lo && fZero hi then
    let d := defLimits (cfgWord s n)
    (fOfRat d.1 1000, fOfRat d.2 1000)
  else (lo, hi)

/-- Inside a range by at least 0.5 % of its span. -/
def insideBy (x lo hi : F32) : Bool :=
  isFin x && 200 * (fFix x - fFix lo) ≥ fFix hi - fFix lo && 200 * (fFix hi - fFix x) ≥ fFix hi - fFix lo

/-- One pair of range causes: set beyond the range, cleared inside it by the margin. -/
def band (x lo hi : F32) (up down : Bool) : Bool × Bool :=
  let above := fLt hi x
  let below := fLt x lo
  let inside := insideBy x lo hi
  (above || (up && !inside && !below), below || (down && !inside && !above))

/-- Judge a settled sample (R122, R157); LIM_HI or LIM_LO setting is latched. A quantity beyond the extent of the reference function
is outside the measurable range on that side. -/
def judge (n : Fin 64) (pr : Prim) (pcal : F32) (s : State) : State :=
  let c := chan s n
  let m := measRange (cfgWord s n)
  let (mh, ml) := match pr.beyond with
    | some up => (up, !up)
    | none => band pr.p (fOfRat m.1 1000) (fOfRat m.2 1000) c.measHi c.measLo
  let (lo, hi) := limitsOf s n
  let (lh, ll) := band pcal lo hi c.limHi c.limLo
  let rise := ((mh || lh) && !(c.measHi || c.limHi)) || ((ml || ll) && !(c.measLo || c.limLo))
  whenS rise (latch (aAFE n 0xC4) 5) (chanMod n (fun c => { c with measHi := mh, measLo := ml, limHi := lh, limLo := ll }) s)

/-! Samples (R140, R154, R155). -/

/-- The calibration trim and the scaling of R121, each operation rounded to binary32. -/
def calibrated (s : State) (n : Fin 64) (p : F32) : F32 :=
  let k := tabGet (fOne, (0 : F32), (0 : Word)) s.store.cal n.val
  fAdd (fMul k.1 p) k.2.1

def scaled (s : State) (n : Fin 64) (pcal : F32) : F32 :=
  fAdd (fMul (regGet s (aAFE n 0x10)) pcal) (regGet s (aAFE n 0x14))

/-- The modulator samples that a command about a channel brings (R137): the first stage takes them while the channel converts. -/
def takeMods (n : Fin 64) (bits : List Bool) (s : State) : State :=
  whenS (converting s n) (chanMod n (fun c => { c with filt := takeBits bits c.filt })) s

/-- The filter output at an instant (R139), the value of a reserved rate being free. -/
def rawNow (s : State) (n : Fin 64) : BitVec 24 := (filterOut (rateCode s n) (chan s n).filt).getD ((free s).setWidth 24)

/-- OUTPUT_SAMPLE (R120 to R122, R139 to R142, R154 to R156, R159): `bits` are the modulator samples since the last command about the
channel that carried them, and `same` says that a cause ended on the very cycle of the instant. During a settle AFE_RAW shows the
filter output of each instant, but AFE_PRIMARY and the latest computed value wait for the third (DESIGN CHOICE, log entry 121).
AFE_EXC_MEAS shows the excitation measured on the sample in whole µA and mV, rounded down and modulo 65,536 (DESIGN CHOICE, log
entry 122). -/
def effOutputSample (n : Fin 64) (bits : List Bool) (iexc vexc : Nat) (same : Bool) (s : State) : State :=
  let s := takeMods n bits (useType n s)
  if !converting s n || (chan s n).pending then s
  else
    let rem := (chan s n).remain - 1
    let ended := (chan s n).remain = 1
    let s := chanMod n (fun c => { c with filt := endPeriod c.freq c.filt }) s
    let raw := rawNow s n
    let pr := primary s n raw iexc vexc
    let s := drawn 1 s
    let pcal := calibrated s n pr.p
    let v := scaled s n pcal
    let s := chanMod n (fun c => { c with
      remain := rem,
      raw := raw,
      excMeas := wd ((iexc / 1000) % 65536 * 65536 + (vexc / 1000) % 65536),
      cjUsed := if isTc (chType s n) then cjTemp s n else 0,
      freq := nextFreq s n }) s
    let s := if rem = 0 then judge n pr pcal (chanMod n (fun c => { c with pcal := pcal, latest := v }) s) else s
    let s := whenS ended (endGap n.val) s
    let q := if same then qHigher (chan s n).gone (chanQuality s n) else chanQuality s n
    let s := chanMod n (fun c => { c with gone := qGOOD }) s
    let old := (valGet s n.val).quality
    refreshRemotes (notePublish n old q (writeSample n.val q (shownValue (chan s n) q) (fabUs s) s))

def execOutputSample (n : Fin 64) (bits : List Bool) (iexc vexc : Nat) (same : Bool) (s : State) : Out :=
  done (effOutputSample n bits iexc vexc same s)

/-- RESTART_POINT (R141): the second stage and the interpolator are cleared, and the settle starts at three instants. -/
def effRestartPoint (n : Fin 64) (bits : List Bool) (s : State) : State :=
  let s := takeMods n bits (useType n s)
  if converting s n && (chan s n).pending then
    bump (aAFE n 0xE4) (chanMod n (fun c => { c with
      pending := false, remain := 3, freq := nextFreq s n, filt := clearStage2 c.filt }) s)
  else s

def execRestartPoint (n : Fin 64) (bits : List Bool) (s : State) : Out := done (effRestartPoint n bits s)

/-! The spritz (R148 to R151, R158). -/

/-- A threshold of AFE_HEALTH[n], in ohms; none where it is not tested (Table 6.14). -/
def threshOf (b : Nat) (dflt : Option Nat) : Option Nat :=
  if b = 0 then dflt else if b = 0xFF then none else some (b % 16 * 10 ^ (b / 16))

def openDefault (t : Nat) : Option Nat :=
  if t = 0x01 then some 2000 else if t = 0x02 then some 20000 else if isTc t then some 10000
  else if t = 0x20 then some 20000 else if t = 0x40 || t = 0x50 then some 100000 else none

def shortDefault (t : Nat) : Option Nat :=
  if t = 0x01 then some 10 else if t = 0x02 then some 100 else if t = 0x20 then some 10 else none

/-- Confirmation of one condition (R151): the state after a result, and the count of results against it. -/
def confirm (st : Bool) (cnt : Nat) (now : Bool) (need : Nat) : Bool × Nat :=
  if now = st then (st, 0) else if cnt + 1 ≥ need then (now, 0) else (st, cnt + 1)

/-- Rp as reported: above 10 MΩ, or for a conductance of zero or below, +∞ (R150). -/
def reportRp (rp : F32) : F32 := if isNaN rp || fLe rp 0 || fLt (fOfInt 10000000) rp then fInf false else rp

/-- One result on a served channel. "A spritz result with no OPEN or SHORT" (R158) is read as the two conditions as confirmed, not as
the thresholds of the single result, where CONFIRM is more than 1 (DESIGN CHOICE, log entry 123). -/
def spritzResult (n : Fin 64) (r : SpritzRes) (s : State) : State :=
  let s := useType n s
  let before := s
  if !served s n then s
  else
    let t := chType s n
    let h := regGet s (aAFE n 0x24)
    let need := max 1 (fld (regGet s (aAFE n 0x28)) 0 4)
    let rp := reportRp r.rp
    let c := chan s n
    let o := match threshOf (fld h 24 8) (openDefault t) with | some x => fLt (fOfInt x) rp | none => false
    let z := match threshOf (fld h 16 8) (shortDefault t) with | some x => fLt rp (fOfInt x) | none => false
    let (op, oc) := confirm c.open_ c.openCnt o need
    let (sh, sc) := confirm c.short c.shortCnt z need
    let m := BitVec.ofNat 2 (spritzMode s n)
    let clean := !op && !sh && r.afterRestart
    let s := chanMod n (fun c => { c with
      zp := rp, zc := r.cp, open_ := op, short := sh, openCnt := oc, shortCnt := sc, mode := m,
      await := c.await && !clean }) s
    let s := bump (aAFE n 0xD8) s
    let s := whenS (op && !c.open_) (latch (aAFE n 0xC4) 0) s
    let s := whenS (sh && !c.short) (latch (aAFE n 0xC4) 1) s
    afterCauses n before (whenS (c.await && clean) (noteGone n qSETTLING) s)

/-- SPRITZ_SLOT (R148): slot k serves channel k of every block. -/
def effSpritzSlot (k : Fin 8) (res : List SpritzRes) (s : State) : State :=
  eachS res (fun r t => spritzResult (chOf r.block k) r t) s

def execSpritzSlot (k : Fin 8) (res : List SpritzRes) (s : State) : Out := done (effSpritzSlot k res s)

/-! The coarse detector (R152). -/

/-- COARSE_WINDOW (R152, R156 to R158): the ones among the last 2,048 modulator samples, `bits` being those since the last command
that carried them; `term` is a terminal outside its window, `iexc` the excitation current in nA. Table 6.6 has no gate on the
excitation: EXC_LOST is tested only with the RTD's excitation on, which Table 6.12 shows (step 6: an RTD whose plug is accepted has no
BAD_BREAK left), and LOOP_OPEN of type 0x30 also with its supply off (DEDUCED, log entry 124). -/
def effCoarseWindow (n : Fin 64) (bits : List Bool) (term : Bool) (iexc : Nat) (s : State) : State :=
  let s := takeMods n bits (useType n s)
  if !converting s n then s
  else
    let before := s
    let t := chType s n
    let c := chan s n
    let mean := coarseMean c.filt
    let mr := mean < -95 / 100 || 95 / 100 < mean
    let xl := isRtd t && excOn s n && 2 * iexc < setCurrent s n
    let lo := isLoop t && mean * fullScale s n < 25000
    let s := chanMod n (fun c => { c with modRange := mr, termRange := term, excLost := xl, loopOpen := lo }) s
    let s := whenS ((mr && !c.modRange) || (term && !c.termRange)) (latch (aAFE n 0xC4) 4) s
    let s := bumpBy (aAFE n 0xE0) ((if mr && !c.modRange then 1 else 0) + (if term && !c.termRange then 1 else 0)) s
    let s := whenS (lo && !c.loopOpen) (latch (aAFE n 0xC4) 3) s
    let s := whenS (xl && !c.excLost) (latch (aAFE n 0xC4) 2) s
    let broke := (c.excLost && !xl) || (c.loopOpen && !lo)
    if !broke && ((c.modRange && !mr) || (c.termRange && !term)) then restartChan n s else afterCauses n before s

def execCoarseWindow (n : Fin 64) (bits : List Bool) (term : Bool) (iexc : Nat) (s : State) : Out := done (effCoarseWindow n bits term iexc s)

/-- AFE_HEALTH_WRITE (R162): `second` is AFE_HEALTH2. -/
def effAfeHealthWrite (n : Fin 64) (second : Bool) (value : Word) (s : State) : State :=
  ownedWrite (aAFE n (if second then 0x28 else 0x24)) (fun s =>
    if second then
      let v := value &&& 0xF
      whenS (health2WordBad v) (chanUndef n) (regSet (aAFE n 0x28) v s)
    else
      let v := value &&& 0xFFFF0003
      let s := useType n s
      let before := s
      let s := whenS (healthWordBad (chType s n) v) (chanUndef n) (regSet (aAFE n 0x24) v s)
      if fld v 0 2 = 0 then
        afterCauses n before
          (chanMod n (fun c => { c with open_ := false, short := false, openCnt := 0, shortCnt := 0, mode := 0, await := false }) s)
      else s) s

def execAfeHealthWrite (n : Fin 64) (second : Bool) (value : Word) (s : State) : Out := done (effAfeHealthWrite n second value s)

end Sys2Proof.Machine
end

