-- ==== Sys2Proof/Machine/Display.lean ====
section
/-! DEFINITION. Machine/Display.lean: the panel's images, waveforms and regions (R366 to R368, R377 to R393). -/
namespace Sys2Proof.Machine

/-- The display block and its registers (Table 15.8). -/
def aDISP : Nat := 0x0D0000
def aDISP_EVENT : Nat := 0x0D0004

def dispMod (f : DispSt → DispSt) (s : State) : State := { s with disp := f s.disp }

def dispRec (sev : BitVec 2) (s : State) : State := blockRec sev aDISP aDISP_EVENT [] s

/-! Rectangles and images (R367, R368). -/

def fullRect : Rect := ⟨0, 400, 0, 300, true⟩

def overlaps (a b : Rect) : Bool :=
  a.x0 < b.x0 + b.w && b.x0 < a.x0 + a.w && a.y0 < b.y0 + b.h && b.y0 < a.y0 + a.h

/-- The bounding rectangle, with the OR of the CLEAN flags (R383). -/
def bounding (a b : Rect) : Rect :=
  let x := min a.x0 b.x0
  let y := min a.y0 b.y0
  ⟨x, max (a.x0 + a.w) (b.x0 + b.w) - x, y, max (a.y0 + a.h) (b.y0 + b.h) - y, a.clean || b.clean⟩

/-- The bits of image word i that lie in a rectangle; words hold 16 pixels, and rectangles are cut at whole halves (R381). -/
def rectMask (r : Rect) (i : Nat) : Word :=
  let y := i / 25
  let x := i % 25 * 16
  if y < r.y0 || r.y0 + r.h ≤ y then 0
  else
    (if r.x0 ≤ x && x < r.x0 + r.w then 0x0000FFFF else 0) ||| (if r.x0 ≤ x + 8 && x + 8 < r.x0 + r.w then 0xFFFF0000 else 0)

/-- An image by its words; zero words are not listed. -/
def imgBuild (f : Nat → Word) : Tab Word :=
  (List.range 7500).filterMap (fun i => let w := f i; if w = 0 then none else some (i, w))

/-- An image with a rectangle taken from other content. -/
def imgPut (r : Rect) (src : Nat → Word) (img : Tab Word) : Tab Word :=
  imgBuild (fun i => let m := rectMask r i; (src i &&& m) ||| (tabGet 0 img i &&& ~~~m))

/-- Level of pixel j of an image word. -/
def pixOf (w : Word) (j : Nat) : Nat := fld w (2 * j) 2

/-- The tile of a pixel. -/
def tileAt (x y : Nat) : Nat := 8 * (y / 50) + x / 50

/-- Tiles that a rectangle touches. -/
def rectTiles (r : Rect) : List Nat :=
  (List.range 48).filter (fun t => overlaps r ⟨t % 8 * 50, 50, t / 8 * 50, 50, false⟩)

/-- Each pixel of a rectangle: its tile and its levels in two images. -/
def rectPixels (r : Rect) (old new : Tab Word) : List (Nat × Nat × Nat) :=
  (List.range 7500).flatMap (fun i =>
    let m := rectMask r i
    if m = 0 then []
    else
      let o := tabGet 0 old i
      let n := tabGet 0 new i
      (List.range 16).filterMap (fun j =>
        if m.getLsbD (2 * j) then some (tileAt (i % 25 * 16 + j) (i / 25), pixOf o j, pixOf n j) else none))

/-! The draw image (R372). -/

/-- Ink and paper of an attribute. -/
def inkOf (a : BitVec 2) : Nat := if a = 1 then 3 else 0
def paperOf (a : BitVec 2) : Nat := if a = 1 then 0 else if a = 2 then 1 else 3

/-- Level of one pixel of the draw image. -/
def drawPixel (s : State) (x y : Nat) : Nat :=
  if x < 8 || x ≥ 392 || y < 6 || y ≥ 294 then (Config.marginLevel (y * 400 + x)).toNat
  else
    let n := (y - 6) / 18
    match tabLook s.disp.lines n with
    | none => (Config.marginLevel (y * 400 + x)).toNat
    | some l =>
      let c := l.text.getD ((x - 8) / 16) 0x20
      let c := if c < 0x20 || c > 0x7E then 0x3F else c
      if (Config.glyph c ((y - 6) % 18)).getLsbD ((x - 8) % 16) then inkOf l.attr else paperOf l.attr

def drawWord (s : State) (i : Nat) : Word :=
  wd ((List.range 16).foldl (fun n j => n + drawPixel s (i % 25 * 16 + j) (i / 25) * 2 ^ (2 * j)) 0)

/-! Waveforms (R377, R378, R380). -/

/-- L_b of a table. -/
def waveLen (t : Tab Word) (b : Nat) : Nat :=
  max 1 ((List.range 64).foldl (fun n f => if tabGet 0 t (b * 64 + f) = 0 then n else f + 1) 0)

/-- Polarity of a drive code on frame f. -/
def polarity (code f : Nat) : Int :=
  if code = 1 then 1 else if code = 2 then -1 else if code = 3 then (if f % 2 = 0 then 1 else -1) else 0

/-- The cleaning waveform: the code of frame f. -/
def cleanCode (f : Nat) : Nat := if f < 4 then 3 else if f < 12 then 2 else if f < 20 then 1 else 3

/-- Charge of entry e of band b through the first n frames. -/
def waveCharge (t : Tab Word) (b e n : Nat) : Int :=
  ((List.range n).map (fun f => polarity (fld (tabGet 0 t (b * 64 + f)) (2 * e) 2) f)).sum

/-- Boundary n of band b: n frames have run and every entry's charge is 0. -/
def waveBalanced (t : Tab Word) (b n : Nat) : Bool := (List.range 16).all (fun e => waveCharge t b e n = 0)

/-- A table is DC-balanced (R378). -/
def tableBalanced (t : Tab Word) : Bool :=
  (List.range 8).all (fun b =>
    let len := waveLen t b
    let bs := (List.range (len + 1)).filter (waveBalanced t b)
    waveBalanced t b len && (bs.zip bs.tail).all (fun p => p.2 - p.1 ≤ 32))

/-- Frames of the cleaning waveform at the head of a region. -/
def cleanHead (r : Region) : Nat := if r.only || r.rect.clean then 24 else 0

/-- The region is in its cleaning waveform. -/
def inCleaning (r : Region) : Bool := r.frame < cleanHead r

/-- Whether the start of frame n of a region is a balanced boundary. -/
def balancedAt (t : Tab Word) (r : Region) (n : Nat) : Bool :=
  if n ≤ cleanHead r && (cleanHead r ≠ 0) then n = 0 || n = 2 || n = 4 || n = 20 || n = 22 || n = 24
  else waveBalanced t r.band.val (n - cleanHead r)

/-- Drive code of a pixel in frame f of a region. -/
def driveCode (t : Tab Word) (r : Region) (f o n : Nat) : Nat :=
  if f < cleanHead r then cleanCode f
  else
    let o := if r.rect.clean then 3 else o
    fld (tabGet 0 t (r.band.val * 64 + (f - cleanHead r))) (2 * (4 * o + n)) 2

/-! Charge and stress of one frame (R386, R387). -/

def satInt (n : Int) : Int := max (-2147483647) (min 2147483647 n)

/-- One frame of one region has run. -/
def driveFrame (k : Fin 8) (r : Region) (s : State) : State :=
  let d := s.disp
  let codes := (rectPixels r.rect d.old d.new).map (fun p => (p.1, driveCode d.wave r r.frame p.2.1 p.2.2))
  let net := fun t => ((codes.filter (fun c => c.1 = t)).map (fun c => polarity c.2 r.frame)).sum
  let ran := fun t => (codes.filter (fun c => c.1 = t && c.2 ≠ 0)).length
  let d := (rectTiles r.rect).foldl (fun (d : DispSt) t =>
    let n := tabGet 0 d.stressRem t + ran t
    { d with charge := tabSet 0 d.charge t (satInt (tabGet 0 d.charge t + net t)),
             stress := tabSet 0 d.stress t (satAdd (tabGet 0 d.stress t) (n / 4096)),
             stressRem := tabSet 0 d.stressRem t (n % 4096) }) d
  { s with disp := { d with slots := d.slots.set k (some { r with frame := r.frame + 1 }) } }

/-- Running regions, by slot. -/
def running (s : State) : List (Fin 8 × Region) :=
  (List.finRange 8).filterMap (fun k => match s.disp.slots[k] with | some r => some (k, r) | none => none)

/-- IMBALANCE (R386): a tile without a running region holds charge. -/
def imbalanceNow (s : State) : Bool :=
  s.disp.charge.any (fun c => c.2 ≠ 0 && !(running s).any (fun r => (rectTiles r.2.rect).contains c.1))

def noteImbalance (s : State) : State :=
  let b := imbalanceNow s
  let s := whenS (b && !s.disp.imbalance) (latch aDISP_EVENT 3) s
  dispMod (fun d => { d with imbalance := b }) s

/-! Pending entries (R383). -/

/-- Merge the entries before and behind that overlap the grown entry, again and again; the entry keeps its place. -/
def absorb (fuel : Nat) (before : List Rect) (e : Rect) (after : List Rect) : List Rect :=
  match fuel with
  | 0 => before ++ e :: after
  | n + 1 =>
    match before.find? (overlaps e), after.find? (overlaps e) with
    | some r, _ => absorb n (before.filter (fun q => q ≠ r)) (bounding e r) after
    | none, some r => absorb n before (bounding e r) (after.filter (fun q => q ≠ r))
    | none, none => before ++ e :: after

/-- Merge a request into entry number i. -/
def mergeAt (i : Nat) (r : Rect) (l : List Rect) : List Rect :=
  absorb 8 (l.take i) (match l[i]? with | some q => bounding q r | none => r) (l.drop (i + 1))

/-- Put a request among the pending entries; the third part says whether it merged. -/
def pendPut (r : Rect) (l : List Rect) : List Rect × Bool :=
  match l.findIdx? (fun q => overlaps q r) with
  | some i => (mergeAt i r l, true)
  | none => if l.length ≥ 8 then (mergeAt (l.length - 1) r l, true) else (l ++ [r], false)

def addPending (r : Rect) (s : State) : State :=
  let (l, merged) := pendPut r s.disp.pend
  whenS merged (latch aDISP_EVENT 0) (dispMod (fun d => { d with pend := l }) s)

/-! Rails (R389). -/

def railsUp (s : State) : State :=
  if s.disp.railsOn || s.disp.railFault || s.disp.failed then s else dispMod (fun d => { d with railsOn := true, railsAt := s.clock + 4000000 }) s

/-! Starting, completing and stopping regions. -/

/-- SCALE of a tile (R385). -/
def scaleOf (s : State) (t : Nat) : Nat :=
  let full := s.store.ageFull.toNat
  1024 + 256 * min (tabGet 0 s.disp.stress t).toNat full / full

/-- Whether a region may start at all (R379, R391, R392). -/
def mayStart (s : State) : Bool := !s.disp.tempOut && !s.disp.failed && !s.disp.railFault && s.sys.phase ≠ .drydown

def freeSlot (s : State) : Option (Fin 8) := (List.finRange 8).find? (fun k => (s.disp.slots[k]).isNone)

def clearOf (s : State) (r : Rect) : Bool := !(running s).any (fun x => overlaps x.2.rect r)

/-- Start a region in a slot (R383, R385). -/
def startIn (k : Fin 8) (r : Rect) (only : Bool) (s : State) : State :=
  let d := s.disp
  let len := if only then 24 else waveLen d.wave d.band.val + (if r.clean then 24 else 0)
  let reg : Region := { rect := r, only := only, band := d.band, length := len, startMs := fabMs s,
                        scales := (rectTiles r).map (fun t => (t, scaleOf s t)) }
  let new := if only then imgPut r (fun _ => 0xFFFFFFFF) d.new else imgPut r (drawWord s) d.new
  railsUp { s with disp := { d with slots := d.slots.set k (some reg), new := new } }

/-- Dirty markers waiting for their clean start first (R393), then pending entries, oldest first (R382). -/
def startMarkers (s : State) : State :=
  eachS s.disp.cleaning (fun r t =>
    match freeSlot t with
    | some k => if mayStart t && clearOf t r then
        dispMod (fun d => { d with cleaning := d.cleaning.filter (fun q => q ≠ r) }) (startIn k r true t) else t
    | none => t) s

def startPending (s : State) : State :=
  eachS s.disp.pend (fun r t =>
    match freeSlot t with
    | some k => if mayStart t && clearOf t r && !t.disp.cleaning.any (fun q => overlaps q r) then
        startIn k r false (dispMod (fun d => { d with pend := d.pend.filter (fun q => q ≠ r) }) t) else t
    | none => t) s

/-- One request at a boundary (R383). -/
def takeRequest (r : Rect) (s : State) : State :=
  if s.sys.phase = .drydown then s
  else if s.disp.pend.any (fun q => overlaps q r) || !clearOf s r || s.disp.cleaning.any (fun q => overlaps q r) || !mayStart s then
    addPending r s
  else match freeSlot s with
    | some k => startIn k r false s
    | none => addPending r s

def takeRequests (s : State) : State :=
  let l := s.disp.reqs
  eachS l takeRequest (dispMod (fun d => { d with reqs := [] }) s)

/-- An abort that lost to a completion (R47, R384). -/
def noteLate (s : State) : State := s |> bump 0x0D002C |> latch aDISP_EVENT 2 |> latch aSYS_EVENT 6

/-- A save-store write during Drydown: its time from the trigger, in ms, is that of the last one so far (Table 3.10). -/
def noteDrySave (s : State) : State :=
  match s.sup.ddAt with
  | some t => { s with sup := { s.sup with ddMs := BitVec.ofNat 10 (min ((s.clock - t) / 1000000) 1023) } }
  | none => s

/-- The levels that a completed region has reached: those of the new image; after an undefined case of the display, unspecified (R57). -/
def reached (s : State) (i : Nat) : Word := if poisoned s aDISP then Config.freeWord (s.fresh + i) else tabGet 0 s.disp.new i

/-- START gives way to ALARMS when the first ALARMS page is complete (Table 15.3). -/
def startOver (s : State) : State :=
  if s.disp.alarmsDue && (running s).isEmpty && s.disp.pend.isEmpty && s.disp.reqs.isEmpty then
    dispMod (fun d => { d with page := if d.page = .start then .alarms else d.page, alarmsDue := false }) s
  else s

/-- A region's waveform has ended (R382, R393): the old image takes its rectangle, and its dirty marker clears. -/
def completeSlot (k : Fin 8) (r : Region) (s : State) : State :=
  let d := s.disp
  let got := reached s
  let s := whenS (poisoned s aDISP) (drawn 7500) { s with disp := { d with old := imgPut r.rect got d.old, slots := d.slots.set k none } }
  let s := startOver s
  let s := bump 0x0D0024 (whenS r.aborting noteLate s)
  let s := noteDrySave s
  { s with store := { s.store with markers := s.store.markers.filter (fun q => !(q.x0 = r.rect.x0 && q.y0 = r.rect.y0 &&
      q.w = r.rect.w && q.h = r.rect.h)) } }

/-- A region stops at a balanced boundary (R384); what its marker or a rail fault drops does not become pending. -/
def stopSlot (k : Fin 8) (r : Region) (s : State) : State :=
  let s := dispMod (fun d => { d with slots := d.slots.set k none }) s
  let s := s |> bump 0x0D0028 |> latch aDISP_EVENT 1
  if s.sys.phase = .drydown then { s with sup := { s.sup with ddPanel := 2 } }
  else if r.drop then s else addPending { r.rect with clean := true } s

/-- After a rail fault, the rails are discharged once no region runs (R391). -/
def faultDischarge (s : State) : State :=
  if s.disp.railFault && (running s).isEmpty then dispMod (fun d => { d with railsOn := false }) s else s

/-- Request an update. -/
def request (r : Rect) (s : State) : State :=
  if s.sys.phase = .drydown then s else railsUp (dispMod (fun d => { d with reqs := d.reqs ++ [r] }) s)

/-- No region runs and no entry is pending. -/
def dispIdle (s : State) : Bool := (running s).isEmpty && s.disp.pend.isEmpty && s.disp.cleaning.isEmpty

def imgBytes (img : Tab Word) : List Byte := (List.range 7500).flatMap (fun i => wordBytes (tabGet 0 img i))

/-- IMAGE_CHECK (R388): one that falls due while the engine is busy waits for the next idle moment. -/
def effImageCheck (s : State) : State :=
  if !dispIdle s then dispMod (fun d => { d with checkDue := true }) s
  else
    let a := crc32 (imgBytes s.disp.old)
    let b := crc32 (imgBytes s.disp.new)
    let s := dispMod (fun d => { d with crcLast := a, checkDue := false }) s
    if a = b then s else s |> bump 0x0D0030 |> latch aDISP_EVENT 4 |> dispRec 1 |> request fullRect
def execImageCheck (s : State) : Out := done (effImageCheck s)

/-- The end of the frame that ran: charge, stress and FRAME. -/
def endFrame (s : State) : State :=
  if s.disp.frameOn then
    bump 0x0D0020 (eachS (running s) (fun x t => if x.2.begun then driveFrame x.1 x.2 t else t) s)
  else s

/-- The regions whose first or next frame starts at this boundary. -/
def beginFrame (s : State) : State :=
  let on := s.disp.railsOn && s.disp.railsAt ≤ s.clock
  let s := whenS on (fun s => eachS (running s) (fun x t =>
    dispMod (fun d => { d with slots := d.slots.set x.1 (some { x.2 with begun := true }) }) t) s) s
  dispMod (fun d => { d with frameOn := on && !(running s).isEmpty }) s

/-- DISPLAY_FRAME_BOUNDARY (R382), in its order; an image check that waited runs with the engine idle (R388), and a written VCOM code
comes into use (R390). -/
def effDisplayFrameBoundary (s : State) : State :=
  let s := endFrame s
  let s := eachS (running s) (fun x t => if x.2.begun && x.2.frame ≥ x.2.length then completeSlot x.1 x.2 t else t) s
  let s := eachS (running s) (fun x t =>
    if x.2.aborting && x.2.frame < x.2.length && balancedAt t.disp.wave x.2 x.2.frame then stopSlot x.1 x.2 t else t) s
  let s := s |> faultDischarge |> startMarkers |> startPending |> takeRequests |> noteImbalance
  let s := dispMod (fun d => { d with vcomNow := s.store.vcom }) (whenS (s.disp.checkDue && dispIdle s) effImageCheck s)
  beginFrame s
def execDisplayFrameBoundary (s : State) : Out := done (effDisplayFrameBoundary s)

/-- A region in its last frame runs it out and completes. -/
def finishSlot (k : Fin 8) (s : State) : State :=
  match s.disp.slots[k] with
  | none => s
  | some r =>
    if r.begun && r.frame < r.length && r.frame + 1 ≥ r.length then
      let s := driveFrame k r s
      match s.disp.slots[k] with
      | some r => noteImbalance (completeSlot k r s)
      | none => s
    else if r.begun && r.frame ≥ r.length then noteImbalance (completeSlot k r s)
    else s

def execRegionComplete (slot : Fin 8) (s : State) : Out := done (finishSlot slot s)

/-- An abort of one slot; an idle slot ignores it (R384). -/
def abortSlot (drop : Bool) (k : Fin 8) (s : State) : State :=
  match s.disp.slots[k] with
  | some r => dispMod (fun d => { d with slots := d.slots.set k (some { r with aborting := true, drop := r.drop || drop }) }) s
  | none => s

/-- DISP_ABORT (Table 15.8): a coincident abort meets the completion of its slot. -/
def effDispAbortWrite (slots coincident : BitVec 8) (s : State) : State :=
  eachS (List.finRange 8) (fun k t =>
    if slots.getLsbD k.val then whenS (coincident.getLsbD k.val) (finishSlot k) (abortSlot false k t) else t) s
def execDispAbortWrite (slots coincident : BitVec 8) (s : State) : Out := done (effDispAbortWrite slots coincident s)

/-! Temperature (R379). -/

/-- Lower edge of a band, in 0.1 °C. -/
def bandEdge (b : Nat) : Int := [(-200 : Int), 0, 80, 160, 240, 320, 400, 500].getD b 500

/-- The band after a reading. -/
def bandStep (b : Fin 8) (t : Int) : Fin 8 :=
  let up := (List.finRange 8).foldl (fun (a : Fin 8) c => if bandEdge c.val ≤ t then c else a) 0
  if b.val < up.val then up
  else (List.finRange 8).foldl (fun (a : Fin 8) _ => if a.val ≠ 0 ∧ t ≤ bandEdge a.val - 5 then ⟨a.val - 1, by omega⟩ else a) b

def effPanelTempRead (tenths : Int) (broken : Bool) (s : State) : State :=
  if broken then dispMod (fun d => { d with tempOut := true }) s
  else dispMod (fun d => { d with temp := tenths, band := bandStep d.band tenths, tempOut := tenths < -200 || tenths > 700 }) s
def execPanelTempRead (tenths : Int) (broken : Bool) (s : State) : Out := done (effPanelTempRead tenths broken s)

/-! Requests of the node itself, the image check and the rails. -/

def effRailsSleep (s : State) : State :=
  if dispIdle s && s.disp.reqs.isEmpty then dispMod (fun d => { d with railsOn := false }) s else s
def execRailsSleep (s : State) : Out := done (effRailsSleep s)

/-- R391. -/
def effRailFault (s : State) : State :=
  if !s.disp.railsOn then s
  else
    let s := eachS (List.finRange 8) (abortSlot true) s
    let at_ := s.clock :: s.disp.faultAt.filter (fun t => s.clock - t ≤ 600000000000)
    let s := dispMod (fun d => { d with railFault := true, faultAt := at_ }) s
    let s := s |> bump 0x0D0034 |> latch aDISP_EVENT 5
    let s := if at_.length ≥ 3 && !s.disp.failed then latch aDISP_EVENT 6 (dispMod (fun d => { d with failed := true, pend := [] }) s) else s
    faultDischarge (dispRec 2 s)
def execRailFault (s : State) : Out := done (effRailFault s)

def effRailRetry (s : State) : State :=
  if s.disp.railFault then
    let s := dispMod (fun d => { d with railFault := false }) s
    if s.disp.pend.isEmpty && s.disp.reqs.isEmpty && s.disp.cleaning.isEmpty then s else railsUp s
  else s
def execRailRetry (s : State) : Out := done (effRailRetry s)

/-! Registers (Tables 15.9, 15.12 and 15.13). -/

def dispStatus (s : State) : Word :=
  let d := s.disp
  bit (d.stuck ≠ 0) 9 ||| bit d.tempOut 8 ||| bit d.failed 7 ||| bit d.railFault 6 ||| bit d.railsOn 5 ||| bit d.imbalance 4 |||
    bit (!s.store.markers.isEmpty) 3 ||| bit ((running s).any (fun x => inCleaning x.2)) 2 ||| bit (!d.pend.isEmpty) 1 |||
    bit (!(running s).isEmpty) 0

def regState (s : State) (k : Fin 8) : Word :=
  match s.disp.slots[k] with
  | none => 0
  | some r => bit true 31 ||| bit (inCleaning r) 30 ||| bit r.aborting 29 ||| wd (r.band.val * 2 ^ 26 + r.length * 2 ^ 8 + r.frame)

def rectWord (r : Rect) : Word :=
  wd (r.x0 / 8 * 2 ^ 26 + r.w / 8 * 2 ^ 20 + r.y0 * 2 ^ 9 + r.h) ||| bit true 19 ||| bit r.clean 18

def regRect (s : State) (k : Fin 8) : Word := match s.disp.slots[k] with | none => 0 | some r => rectWord r.rect
def regStart (s : State) (k : Fin 8) : Word := match s.disp.slots[k] with | none => 0 | some r => r.startMs

def dispTemp (s : State) : Word := wd (s.disp.band.val * 2 ^ 16 + (BitVec.ofInt 16 s.disp.temp).toNat)

end Sys2Proof.Machine
end

