-- ==== Sys2Proof/Machine/FabricTime.lean ====
section
/-! DEFINITION. Machine/FabricTime.lean: fabric time, its marks, and the time between zones (R281 to R285). -/
namespace Sys2Proof.Machine

/-- Whether this node is its zone's time root. -/
def isRoot (s : State) : Bool := s.fab.addressed && s.fab.root = some (ownAddr s)

/-- The counter of the panel-bus island, in µs since the release from reset (R244). -/
def tsNow (s : State) : Word := wd ((s.clock - s.sys.releasedAt) / 1000)

/-- At a fabric time mark the panel-bus island latches its counter and the fabric time (R245). -/
def tsMark (s : State) : State :=
  { s with pb := { s.pb with tsMark := tsNow s, tsMarkFt := fabUs s, tsPrev := s.pb.tsMark, tsPrevFt := s.pb.tsMarkFt } }

/-- Step fabric time by o ns (R283): counted, latched and recorded at severity 1. -/
def ftStep (o : Int) (s : State) : State :=
  let t := ((fabNs s : Int) + o).toNat
  { s with fab := { s.fab with ftBase := t, ftAt := s.clock, slew := 0 } }
    |> bump aFAB_TIME_STEPS |> latch aFAB_EVENT 6 |> (fun t => blockRec 1 0x0A0000 aFAB_EVENT [] t)

/-- Slew fabric time by o ns at no more than the rate given in ppm (R283, R285). -/
def ftSlew (o : Int) (ppm : Nat) (s : State) : State :=
  { s with fab := { s.fab with ftBase := fabNs s, ftAt := s.clock, slew := o, slewPpm := ppm } }

/-- FAB_TIME_OFFSET: o in ns, two's complement, saturating. -/
def satOffset (o : Int) : Word :=
  if o > 2147483647 then 0x7FFFFFFF else if o < -2147483648 then 0x80000000 else BitVec.ofInt 32 o

/-- SYNCED holds while the node is the root of its view or its latest 80 marks brought no step (R282); a change of it changes the
own LSA, which LSA_ORIGINATE then sends. -/
def refreshSynced (s : State) : State := { s with fab := { s.fab with synced := isRoot s || s.fab.goodMarks ≥ 80 } }

/-- Crossings to the system-time zone, by this zone's exit (R277, R283). -/
def sysZoneNow (s : State) : BitVec 6 × BitVec 6 :=
  let own := ownZone s
  let zs := distinct ((exitsNow s).map (fun e => e.zone))
  let low := zs.foldl (fun (m : BitVec 6) z => if z.toNat < m.toNat then z else m) own
  if low = own then (own, 0)
  else match bestExit (exitsNow s) low with | some e => (low, BitVec.ofNat 6 e.pathLen) | none => (own, 0)

/-- TIME_MARK_SEND (R283, R285): the root's mark on every intra-zone link and on the border links. -/
def effTimeMarkSend (s : State) : State :=
  if isRoot s then
    let (z, c) := sysZoneNow s
    let m : TimeMark := ⟨ownAddr s, s.fab.markNum, 0, s.fab.rootStep, !s.tim.osf, z, c⟩
    let b : Body := .timeMark m
    let f : Frame := ⟨mkHdr s b true (mkAddr (ownZone s) 0xFFF) 0 0, b⟩
    let s := eachS (fLinks.filter (fun k => isIntra s k || isBorder s k)) (fun k t => enqueue k f false t) s
    tsMark { s with fab := { s.fab with markNum := s.fab.markNum + 1, rootStep := false, sysZone := z, crossings := c,
                                        rootTimeOk := !s.tim.osf } }
  else s

def execTimeMarkSend (s : State) : Out := done (effTimeMarkSend s)

/-- The offset a mark shows: ORIGIN + TIME + d_in - a, in ns (R283). -/
def markOffset (k : Link) (h : FabHdr) (m : TimeMark) (s : State) : Int :=
  (m.origin.toNat : Int) + (h.time.toNat : Int) + linkDelay s k - ((fabNs s : Int) - rxAge s)

/-- The exit border node of this zone toward the system-time zone (R285). -/
def isSysExit (s : State) : Bool :=
  s.fab.addressed && s.fab.sysZone ≠ ownZone s &&
    (match bestExit (exitsNow s) s.fab.sysZone with | some e => e.border = ownAddr s | none => false)

/-- The link leads to the neighbouring zone on the way to the system-time zone. -/
def towardSys (s : State) (k : Link) : Bool :=
  match bestZPath s.fab.zpaths s.fab.sysZone, (linkGet s k).neigh with
  | some p, some n => zoneOf p.neigh = zoneOf n.addr
  | _, _ => false

/-- A mark accepted from the own root: forward it, step or slew, and follow what it says (R283). -/
def onMark (k : Link) (h : FabHdr) (m : TimeMark) (s : State) : State :=
  let o := markOffset k h m s
  let d := linkDelay s k
  let fh : FabHdr := { h with hops := h.hops + 1, time := h.time + BitVec.ofInt 32 (d + rxAge s) }
  let outs := fLinks.filter (fun j => j ≠ k && (isIntra s j || isBorder s j))
  let s := if h.hops = 63 then bump aFAB_HOP_DROP s else eachS outs (fun j t => enqueue j ⟨fh, .timeMark m⟩ true t) s
  let s := { s with fab := { s.fab with offset := satOffset o, rootTimeOk := m.timeOk, sysZone := m.sysZone,
                                        crossings := m.crossings, markNum := m.number } }
  let s := tsMark s
  if o.natAbs > 1000000 then refreshSynced (ftStep o { s with fab := { s.fab with goodMarks := 0 } })
  else refreshSynced (ftSlew o 100 { s with fab := { s.fab with goodMarks := s.fab.goodMarks + 1 } })

/-- TIME_MARK (R283, R285): taken only on the reverse path from the own root; on a border link it is only measured. -/
def effTimeMark (rx : Rx) (m : TimeMark) (s : State) : State :=
  match rx.link with
  | none => s
  | some k =>
    let (ok, s) := receive rx (.timeMark m) s
    if !ok then s
    else if isBorder s k then
      let o := markOffset k rx.hdr m s
      if isSysExit s && towardSys s k then { s with fab := { s.fab with borderOffsets := o :: s.fab.borderOffsets } } else s
    else if !isRoot s && s.fab.root = some m.root && reversePath k m.root s then onMark k rx.hdr m s
    else s

def execTimeMark (rx : Rx) (m : TimeMark) (s : State) : Out := done (effTimeMark rx m s)

/-- ZONE_OFFSET_REPORT (R285): the mean offset goes to the zone's root. -/
def effZoneOffsetReport (s : State) : State :=
  match s.fab.root with
  | some r =>
    if isSysExit s && !s.fab.borderOffsets.isEmpty then
      let l := s.fab.borderOffsets
      let mean := l.sum / (l.length : Int)
      sendUni r 0 (.zoneOffset mean) { s with fab := { s.fab with borderOffsets := [] } }
    else s
  | none => s

def execZoneOffsetReport (s : State) : Out := done (effZoneOffsetReport s)

/-- MEAN_OFFSET_REPORT (R285): above 10 ms the root steps zone time and marks it, otherwise it slews at no more than 50 ppm. -/
def effMeanOffsetReport (rx : Rx) (o : Int) (s : State) : State :=
  let (ok, s) := receive rx (.zoneOffset o) s
  if ok && isRoot s then
    if o.natAbs > 10000000 then
      let s := ftStep o s
      { s with fab := { s.fab with rootStep := true, goodMarks := 0 } }
    else ftSlew o 50 s
  else s

def execMeanOffsetReport (rx : Rx) (offset : Int) (s : State) : Out := done (effMeanOffsetReport rx offset s)

/-- The time root of the zone among the nodes of the own-zone view (R282). -/
def rootOf (s : State) (view : List Addr) : Option Addr :=
  let ls := view.filterMap (fun a =>
    if a = ownAddr s then some (ownLsa s) else (s.fab.lsas.find? (fun e => !e.tomb && e.lsa.addr = a)).map (fun e => e.lsa))
  let low := fun (p : Lsa → Bool) =>
    (ls.filter p).foldl (fun (m : Option Addr) l => match m with
      | none => some l.addr
      | some a => if l.addr.toNat < a.toNat then some l.addr else m) none
  match low (fun l => l.timeOk && l.synced) with
  | some a => some a
  | none => match low (fun l => l.synced) with
    | some a => some a
    | none => low (fun _ => true)

/-- Follow the root of a new view; a change latches ROOT_CHANGE, and SYNCED follows (R282). -/
def refreshRoot (view : List Addr) (s : State) : State :=
  let r := if s.fab.addressed then rootOf s view else none
  let ch := r ≠ s.fab.root
  let s := { s with fab := { s.fab with root := r } }
  let s := whenS ch (latch aFAB_EVENT 7) s
  refreshSynced s

end Sys2Proof.Machine
end

