-- ==== Sys2Proof/Machine/Routing.lean ====
section
/-! DEFINITION. Machine/Routing.lean: shortest paths, the membership view, zones, forwarding, the transmit queues and the
publication of values (R260, R266, R272 to R280, R288 to R290). -/
namespace Sys2Proof.Machine

/-- The nodes of the own zone that shortest paths reach, each with its next hop (R272). -/
def spf (s : State) : List Hop :=
  let me := ownAddr s
  let first := (fLinks.filterMap (fun k =>
    if isIntra s k then
      match (linkGet s k).neigh with
      | some n => if !n.unaddr && linked s me n.addr then some (⟨n.addr, n.addr, k⟩ : Hop) else none
      | none => none
    else none)).foldl hopAdd []
  spfGo (s.fab.lsas.length + 1) s [me] first []

/-- Members of a bitmap. -/
def bitmapMembers (z : BitVec 6) (b : BitVec 4096) : List Addr :=
  (List.range 4096).filterMap (fun i => if b.getLsbD i then some (mkAddr z (BitVec.ofNat 12 i)) else none)

/-- The members of the other zones that routes reach: those their latest summaries mark (R273). -/
def remoteView (s : State) : List Addr :=
  (exitsNow s).flatMap (fun e => if e.zone = ownZone s then [] else bitmapMembers e.zone e.bitmap)

/-- The view with the other zones' members as the exits now give them (R273). -/
def refreshRemote (s : State) : State :=
  if s.fab.addressed then installView (s.fab.view.filter (fun a => zoneOf a = ownZone s) ++ remoteView s) s else s

/-- ROUTE_COMPUTE (R272, R273, R282): an unaddressed node installs no table, and its view lists no address (`ownCount`, R265). -/
def effRouteCompute (s : State) : State :=
  let s := bump aFAB_SPF_RUNS (useZone s)
  if s.fab.addressed then
    let hops := spf s
    let fwd : Tab Link := hops.foldl (fun t h => tabPut t (memberOf h.addr).toNat h.link) []
    let own := ownAddr s :: hops.map (fun h => h.addr)
    let s := { s with fab := { s.fab with fwd := fwd } }
    refreshRoot own (installView (own ++ remoteView s) s)
  else
    refreshRoot [] (installView [] { s with fab := { s.fab with fwd := [] } })

def execRouteCompute (s : State) : Out := done (effRouteCompute s)

/-- CLAIM_WIN (R266, R322): the number is won and saved with its zone, and the LSA and NODE_STATE are flooded. -/
def effClaimWin (s : State) : State :=
  match s.fab.claim with
  | none => s
  | some c =>
    let z := ownZone s
    let s := { s with
      store := if isStandbyNumber s then { s.store with savedStandby := some (z, c.number) }
               else { s.store with savedNum := some (z, c.number) },
      fab := { s.fab with addressed := true, member := c.number, claim := none, lost := [], exhausted := false,
                          wonAt := s.clock, lateMember := none } }
    s |> originate |> sendNodeState

def execClaimWin (s : State) : Out := done (effClaimWin s)

/-- DRYDOWN_NOTICE (R262, R273): the neighbour and its link leave the view at once, and the paths of a border neighbour. On P the notice announces the release of
OWN (Table 13.5). -/
def effDrydownNotice (rx : Rx) (a : Addr) (w : Word) (s : State) : State :=
  let (ok, s) := receive rx (.drydownNotice a w) s
  if !ok then s
  else match rx.link with
    | none => s
    | some k =>
      if k = linkP then { s with pair := { s.pair with announcedAt := some s.clock } }
      else
        let intra := isIntra s k && match (linkGet s k).neigh with | some n => n.addr = a && !n.unaddr | none => false
        let s := loseTwoWay k s
        let s := if peerDst s = some a then { s with pair := { s.pair with announcedAt := some s.clock } } else s
        if intra then
          installView (s.fab.view.filter (fun x => x ≠ a)) { s with fab := { s.fab with fwd := tabDel s.fab.fwd (memberOf a).toNat } }
        else refreshRemote { s with fab := { s.fab with zpaths := s.fab.zpaths.filter (fun p => p.neigh ≠ a) } }

def execDrydownNotice (rx : Rx) (addr : Addr) (serial : Word) (s : State) : Out := done (effDrydownNotice rx addr serial s)

/-! Between zones. -/

/-- Unstated zones on a path of which only the length is known. -/
def freeZones (s : State) (z : BitVec 6) (n : Nat) : List (BitVec 6) :=
  (List.range n).map (fun i => (Config.freeWord (s.fresh + 64 * z.toNat + i)).setWidth 6)

/-- The best path to a zone: the node's own where it is the exit; through another border node, whose ZONE_SUMMARY gives its length
alone, the zones between are unstated (log 132). -/
def pathTo (s : State) (z : BitVec 6) : Option (List (BitVec 6)) :=
  match bestExit (exitsNow s) z, bestZPath s.fab.zpaths z with
  | some e, own =>
    if e.border = ownAddr s then own.map (fun p => p.path) else some (freeZones s z (e.pathLen - 1) ++ [z])
  | none, some p => some p.path
  | none, none => none

/-- Paths put into frames of at most 222 payload bytes (R258), in order. -/
def packPaths (l : List ZonePath) : List (List ZonePath) :=
  l.foldr (fun p acc => match acc with
    | [] => [[p]]
    | g :: r => if payloadLen (.zoneUpdate (p :: g)) ≤ 222 then (p :: g) :: r else [p] :: acc) []

/-- ZONE_UPDATE_SEND (R276): a border node lists its own zone and the best path of every zone it can reach, of at most 63 zones, on
each border link. -/
def effZoneUpdateSend (s : State) : State :=
  if s.fab.addressed && s.cfg.border then
    let own := ownZone s
    let zs := (distinct (s.fab.zpaths.map (fun p => p.zone) ++ (exitsNow s).map (fun e => e.zone))).filter (fun z => z ≠ own)
    let l : List ZonePath := ⟨own, [own]⟩ :: zs.filterMap (fun z =>
      match pathTo s z with
      | some p => if p.length < 63 then some ⟨z, own :: p⟩ else none
      | none => none)
    eachS (fLinks.filter (isBorder s)) (fun k t => eachS (packPaths l) (fun g u => sendLocal k (.zoneUpdate g) u) t) (drawn 4096 s)
  else s

def execZoneUpdateSend (s : State) : Out := done (effZoneUpdateSend s)

/-- The worst path of a zone's list. -/
def worstZPath (l : List ZPath) : Option ZPath :=
  l.foldl (fun o p => match o with | none => some p | some b => if zpathBetter b p then some p else o) none

/-- Keep a received path: one of each border neighbour, up to four for each zone (R276). -/
def keepPath (p : ZPath) (l : List ZPath) : List ZPath :=
  let l := l.filter (fun x => !(x.zone = p.zone && x.neigh = p.neigh)) ++ [p]
  if (l.filter (fun x => x.zone = p.zone)).length > 4 then
    match worstZPath (l.filter (fun x => x.zone = p.zone)) with
    | some w => l.filter (fun x => x ≠ w)
    | none => l
  else l

/-- ZONE_UPDATE (R276): a path with the own zone in it, or of more than 63 zones, is rejected. -/
def effZoneUpdate (rx : Rx) (l : List ZonePath) (s : State) : State :=
  match rx.link with
  | none => s
  | some k =>
    let (ok, s) := receive rx (.zoneUpdate l) s
    if !ok || !isBorder s k then s
    else match (linkGet s k).neigh with
      | none => s
      | some n =>
        let good := l.filter (fun p => !p.path.contains (ownZone s) && p.path.length ≤ 63 && !p.path.isEmpty)
        { s with fab := { s.fab with zpaths := good.foldl (fun acc p => keepPath ⟨p.zone, n.addr, p.path, s.clock⟩ acc) s.fab.zpaths } }

def execZoneUpdate (rx : Rx) (l : List ZonePath) (s : State) : Out := done (effZoneUpdate rx l s)

/-- ZONE_PATH_EXPIRY (R276): a path not refreshed for 3 s is dropped. -/
def execZonePathExpiry (zone : BitVec 6) (neigh : Addr) (s : State) : Out :=
  done (refreshRemote { s with fab := { s.fab with zpaths := s.fab.zpaths.filter (fun p => !(p.zone = zone && p.neigh = neigh)) } })

/-- A bitmap segment whose bits the spec gives no source for (R277): unstated bits. -/
def freeBitmap (n : Nat) : BitVec 1024 :=
  (List.range 32).foldl (fun (acc : BitVec 1024) i => (acc <<< 32) ||| (Config.freeWord (n + i)).setWidth 1024) 0

/-- Put one segment of 1,024 bits into a bitmap. -/
def putSegment (b : BitVec 4096) (g : Fin 4) (seg : BitVec 1024) : BitVec 4096 :=
  (b &&& ~~~((BitVec.allOnes 1024).setWidth 4096 <<< (1024 * g.val))) ||| (seg.setWidth 4096 <<< (1024 * g.val))

/-- A summary of border node b for a zone (R273, R277, Table 11.5): its bits are the zone's latest, and b becomes the exit where it is
better than the exit held or that one is not usable. Path length 0 takes b's path back (log 133). -/
def noteSummary (b : Addr) (m : ZoneSummary) (s : State) : State :=
  let old := s.fab.zexits.find? (fun e => e.zone = m.zone)
  let rest := s.fab.zexits.filter (fun e => e.zone ≠ m.zone)
  let bits := putSegment (match old with | some e => e.bitmap | none => 0) m.segment m.bitmap
  let new : ZExit := ⟨m.zone, b, m.pathLen, bits⟩
  let keep : Option ZExit := match old with
    | none => if m.pathLen = 0 then none else some new
    | some e =>
      if m.pathLen = 0 then (if e.border = b then none else some e)
      else if e.border = b || !(exitsNow s).contains e || bestExit [new, e] m.zone = some new then some new
      else some { e with bitmap := bits }
  refreshRemote { s with fab := { s.fab with zexits := rest ++ keep.toList } }

/-- ZONE_SUMMARY_SEND (R277): a border node floods, for each zone it reaches by its own links, the four segments of its member bitmap,
and takes back the zones it reaches no more. The spec does not say where a border node learns another zone's members, so the bits are
unstated. -/
def effZoneSummarySend (s : State) : State :=
  if s.fab.addressed && s.cfg.border then
    let lost := (s.fab.zexits.filter (fun e => e.border = ownAddr s && (bestZPath s.fab.zpaths e.zone).isNone)).map (fun e => e.zone)
    let s := eachS lost (fun z t =>
      let m : ZoneSummary := ⟨z, 0, 0, 0⟩
      t |> noteSummary (ownAddr t) m |> sendFlood (.zoneSummary m) 1) s
    eachS (distinct (s.fab.zpaths.map (fun p => p.zone))) (fun z t =>
      match bestZPath t.fab.zpaths z with
      | none => t
      | some p =>
        eachS ([0, 1, 2, 3] : List (Fin 4)) (fun g t =>
          let m : ZoneSummary := ⟨z, p.path.length, g, freeBitmap t.fresh⟩
          t |> drawn 32 |> noteSummary (ownAddr t) m |> sendFlood (.zoneSummary m) 1) t) s
  else s

def execZoneSummarySend (s : State) : Out := done (effZoneSummarySend s)

/-- ZONE_SUMMARY (R277). -/
def effZoneSummary (rx : Rx) (m : ZoneSummary) (s : State) : State :=
  let (ok, s) := receive rx (.zoneSummary m) s
  if ok then noteSummary rx.hdr.src m s else s

def execZoneSummary (rx : Rx) (m : ZoneSummary) (s : State) : Out := done (effZoneSummary rx m s)

/-! Forwarding and queues. -/

/-- FRAME_FORWARD (R260): a frame for another node, or a flood, is checked and goes on; what this node acts on itself comes as its
own command. -/
def effFrameForward (rx : Rx) (b : Body) (s : State) : State := (receiveAs (some (.frameForward rx b)) rx b s).2

def execFrameForward (rx : Rx) (b : Body) (s : State) : Out := done (effFrameForward rx b s)

/-- The credit a management queue has grown to: one byte every 800 ns, capped at 1,044 (R279). -/
def creditNow (l : LinkSt) (now : Nat) : Nat :=
  if l.mgmt.isEmpty then 0 else min 1044 (l.credit + (now - l.creditAt) / 800)

/-- What is written into a frame as it is transmitted: a hello's egress instant, a mark's ORIGIN at its root, and the residence
a forwarded mark adds to TIME (R262, R283). -/
def atEgress (s : State) (q : QFrame) : QFrame :=
  match q.frame.body with
  | .hello m => { q with frame := { q.frame with body := .hello { m with egress := BitVec.ofNat 64 (fabNs s) } } }
  | .timeMark m =>
    if q.forwarded then
      { q with frame := { q.frame with hdr := { q.frame.hdr with time := q.frame.hdr.time + wd (s.clock - q.at_) } } }
    else { q with frame := { q.frame with body := .timeMark { m with origin := BitVec.ofNat 64 (fabNs s) } } }
  | _ => q

/-- The next frame by the order of Table 11.7, and the link after taking it (R279). -/
def pickFrame (l : LinkSt) (now : Nat) : Option QFrame × LinkSt :=
  let cr := creditNow l now
  let l := { l with credit := cr, creditAt := if cr < 1044 then now - (now - l.creditAt) % 800 else now }
  let takeMgmt := fun (_ : Unit) =>
    match l.mgmt with
    | [] => ((none : Option QFrame), l)
    | q :: r => (some q, { l with mgmt := r, credit := if r.isEmpty then 0 else cr - (frameLen q.frame.body + 20) })
  match l.urgent with
  | q :: r => (some q, { l with urgent := r })
  | [] =>
    match l.routine with
    | q :: r => (some q, { l with routine := r })
    | [] =>
      let covered := match l.mgmt with | q :: _ => decide (frameLen q.frame.body + 20 ≤ cr) | [] => false
      if covered then takeMgmt ()
      else match l.data with
        | q :: r => (some q, { l with data := r })
        | [] => takeMgmt ()

/-- LINK_FRAME_END (R279, R280): the frame on the wire has ended and the next one starts. -/
def effLinkFrameEnd (k : Link) (s : State) : State :=
  let l := linkGet s k
  let s := match l.onWire with
    | none => s
    | some q =>
      let s := bump (aLINK k 0x10) s
      if q.frame.hdr.plane = 0 ∧ q.frame.hdr.cls = 0 ∧ s.clock - q.at_ > 110000 then
        s |> bump aFAB_RES_OVER |> latch aFAB_EVENT 8
      else s
  if !l.phyUp then linkMod k (fun l => { l with onWire := none }) s
  else
    let (q, l) := pickFrame (linkGet s k) s.clock
    let q := q.map (atEgress s)
    let sent := match q with
      | some ⟨⟨_, .hello m⟩, _, _⟩ => ((m.number, fabNs s) :: l.helloSent).take 8
      | _ => l.helloSent
    linkMod k (fun _ => { l with onWire := q, helloSent := sent }) s

def execLinkFrameEnd (k : Link) (s : State) : Out := done (effLinkFrameEnd k s)

/-- FRAME_AGE_DROP (R278): the frame at the head of a transmit or receive queue has waited 100 ms. -/
def effFrameAgeDrop (k : Link) (q : TxQueue) (rx : Bool) (s : State) : State :=
  let l := linkGet s k
  let drop := fun (l' : LinkSt) => s |> linkMod k (fun _ => l') |> bump aFAB_AGE_DROP
  if rx then match rxQueue l q with | [] => s | _ :: r => drop (setRxQueue q r l)
  else match txQueue l q with | [] => s | _ :: r => drop (setTxQueue q r l)

def execFrameAgeDrop (k : Link) (q : TxQueue) (rx : Bool) (s : State) : Out := done (effFrameAgeDrop k q rx s)

/-- WINDOW_IDLE_FREE (R288). -/
def execWindowIdleFree (key : Word) (stream : BitVec 12) (s : State) : Out :=
  done { s with fab := { s.fab with windows := s.fab.windows.filter (fun w => !(w.key = key && w.stream = stream)) } }

/-! Publication of values (R289, R290). -/

/-- The mask of a source's entries that this node subscribes to. -/
def subMask (s : State) (src : Addr) : BitVec 112 :=
  (s.cfg.subs.filter (fun b => b.srcNode = src)).foldl (fun m b => m ||| (1 <<< b.srcEntry.toNat)) 0

/-- SUBSCRIBE_SEND (R289): one frame to each source node the subscriptions name. -/
def effSubscribeSend (s : State) : State :=
  eachS (distinct (s.cfg.subs.map (fun b => b.srcNode))) (fun a t => sendUni a 0 (.subscribe (subMask t a)) t) s

def execSubscribeSend (s : State) : Out := done (effSubscribeSend s)

/-- SUBSCRIBE (R289). -/
def effSubscribe (rx : Rx) (mask : BitVec 112) (s : State) : State :=
  let (ok, s) := receive rx (.subscribe mask) s
  if !ok then s
  else
    let a := rx.hdr.src
    let l := s.fab.subscribers
    let l := if l.any (fun x => x.node = a) then
        l.map (fun x => if x.node = a then { x with mask := mask, heardAt := s.clock } else x)
      else l ++ [⟨a, mask, s.clock, [], []⟩]
    { s with fab := { s.fab with subscribers := l } }

def execSubscribe (rx : Rx) (mask : BitVec 112) (s : State) : Out := done (effSubscribe rx mask s)

/-- SUBSCRIBER_EXPIRY (R289): a subscription not heard for 3 s is no longer served. -/
def execSubscriberExpiry (node : Addr) (s : State) : Out :=
  done { s with fab := { s.fab with subscribers := s.fab.subscribers.filter (fun x => x.node ≠ node) } }

/-- Whether an entry is due for a subscriber: written since its last frame, or not carried for 100 ms. -/
def pubDue (s : State) (x : Subscriber) (e : Nat) : Bool :=
  let v := valGet s e
  x.mask.getLsbD e &&
    (match tabLook x.sentSeq e with
      | none => true
      | some p => p.1 ≠ v.seq || p.2 ≠ v.quality || s.clock - tabGet 0 x.sentAt e ≥ 100000000)

/-- Put an entry before the first one that was sent to the subscriber later. -/
def insertDue (x : Subscriber) (e : Nat) (l : List Nat) : List Nat :=
  match l with
  | [] => [e]
  | y :: r => if tabGet 0 x.sentAt e < tabGet 0 x.sentAt y then e :: y :: r else y :: insertDue x e r

/-- The due entries of a subscriber, the longest not sent first, so that none waits behind entries written more often. -/
def dueOrder (x : Subscriber) (s : State) : List Nat :=
  ((List.range 112).filter (pubDue s x)).foldl (fun l e => insertDue x e l) []

/-- Serve one subscriber: a frame holds at most the 61 entries that 990 payload bytes allow; the rest stay due. -/
def publishTo (x : Subscriber) (s : State) : State :=
  let es := (dueOrder x s).take 61
  if es.isEmpty then s
  else
    let l := es.map (fun e => let v := valGet s e; (⟨Fin.ofNat 112 e, v.quality, v.value, instGet s e⟩ : PubEntry))
    let x' := es.foldl (fun (y : Subscriber) e =>
      { y with sentAt := tabPut y.sentAt e s.clock, sentSeq := tabPut y.sentSeq e ((valGet s e).seq, (valGet s e).quality) }) x
    let s := sendUni x.node 2 (.publication l) s
    { s with fab := { s.fab with subscribers := s.fab.subscribers.map (fun y => if y.node = x.node then x' else y) } }

/-- PUBLICATION_SEND (R289). A pair member that does not hold OWN publishes no measured value (R8, R336). -/
def effPublicationSend (s : State) : State :=
  if isStandbyNumber s then s else eachS s.fab.subscribers publishTo s

def execPublicationSend (s : State) : Out := done (effPublicationSend s)

/-- A received entry goes into each local entry that subscribes to it; SAMPLE_SEQ moves only with a new instant (R290). -/
def takeEntry (src : Addr) (p : PubEntry) (s : State) : State :=
  eachS (s.cfg.subs.filter (fun b => b.srcNode = src && b.srcEntry.toNat = p.entry.val)) (fun b t =>
    let e := b.localEntry.toNat
    let v := valGet t e
    let q := if instGet t e ≠ p.instant then v.seq + 1 else v.seq
    { t with vals := tabSet valReset t.vals e ⟨q, p.quality, p.value⟩,
             alm := { t.alm with instants := tabSet 0 t.alm.instants e p.instant },
             fab := { t.fab with subSeen := tabPut t.fab.subSeen e (t.clock, p.instant) } }) s

/-- PUBLICATION (R290). -/
def effPublication (rx : Rx) (l : List PubEntry) (s : State) : State :=
  let (ok, s) := receive rx (.publication l) s
  if ok then refreshRemotes (eachS l (takeEntry rx.hdr.src) s) else s

def execPublication (rx : Rx) (l : List PubEntry) (s : State) : Out := done (effPublication rx l s)

/-- SUBSCRIPTION_TIMEOUT (R290): an entry that no publication has carried for 500 ms becomes OUT_OF_SERVICE. -/
def effSubscriptionTimeout (e : Fin 1024) (s : State) : State :=
  if s.cfg.subs.any (fun b => b.localEntry.toNat = e.val) then entryOut e.val s else s

def execSubscriptionTimeout (entry : Fin 1024) (s : State) : Out := done (effSubscriptionTimeout entry s)

end Sys2Proof.Machine
end

