-- ==== Sys2Proof/Machine/FabRegs.lean ====
section
/-! DEFINITION. Machine/FabRegs.lean: the registers of the supply and of the fabric that are formed from the state (Tables 3.8, 11.11 to 11.15). -/
namespace Sys2Proof.Machine

/-- SUP_STATUS (Table 3.8). -/
def supStatus (s : State) : Word :=
  let p := s.sup
  bit p.b.overCur 11 ||| bit p.b.high 10 ||| bit p.b.low 9 ||| bit p.b.absent 8 ||| bit p.a.overCur 7 ||| bit p.a.high 6 |||
    bit p.a.low 5 ||| bit p.a.absent 4 ||| bit p.freqOut 3 ||| bit p.mainsLow 2 ||| bit p.mainsLost 1 ||| bit p.riding 0

/-- FAB_STATUS (Table 11.12). -/
def fabStatus (s : State) : Word :=
  let f := s.fab
  bit (fLinks.any (fun k => (linkGet s k).enabled && (linkGet s k).alone)) 8 ||| bit (f.windows.length ≥ 2048) 7 |||
    bit f.synced 6 ||| bit (f.addressed && f.root = some (ownAddr s)) 5 ||| bit (fLinks.any (fun k => isBorder s k)) 4 |||
    bit f.exhausted 3 ||| bit f.claim.isSome 2 ||| bit f.addressed 1 ||| bit (fabLive s) 0

/-- FAB_ADDR (Table 11.14): during a claim MEMBER shows the number being claimed (R294). -/
def fabAddr (s : State) : Word :=
  let m := match s.fab.claim with | some c => c.number | none => s.fab.member
  bit s.fab.addressed 31 ||| wd ((ownZone s).toNat * 2 ^ 12 + m.toNat)

/-- FAB_ROOT. -/
def fabRoot (s : State) : Word :=
  match s.fab.root with
  | none => 0
  | some a => bit true 31 ||| wd (s.fab.sysZone.toNat * 2 ^ 25 + s.fab.crossings.toNat * 2 ^ 18 + a.toNat)

/-- FAB_VIEW: zones reachable, the own one included, and nodes of the own-zone view; 0 while the fabric is off (its reset). -/
def fabView (s : State) : Word :=
  let zs := if s.fab.addressed then distinct (ownZone s :: (exitsNow s).map (fun e => e.zone)) else [ownZone s]
  if s.fab.up then wd (zs.length * 2 ^ 24 + ownCount s) else 0

/-- LINK_STATUS[k] (Table 11.15); F1, F3 and F5 are PHY masters, and P is on the PREFERRED unit (R257, R319). -/
def linkStatus (s : State) (k : Link) : Word :=
  let l := linkGet s k
  let master := if k = linkP then s.cfg.guarded.rolePref = 1 else k.val % 2 = 0
  bit l.enabled 7 ||| bit l.phyUp 6 ||| bit l.twoWay 5 ||| bit l.synced 4 ||| bit (isBorder s k) 3 ||| bit (isMismatch s k) 2 |||
    bit master 1

/-- LINK_NEIGH[k]. -/
def linkNeigh (s : State) (k : Link) : Word :=
  match (linkGet s k).neigh with
  | none => 0
  | some n => bit true 31 ||| bit n.unaddr 30 ||| n.addr.setWidth 32

def linkNeighSerial (s : State) (k : Link) : Word := match (linkGet s k).neigh with | none => 0 | some n => n.serial

end Sys2Proof.Machine
end

