-- ==== Sys2Proof/Machine/FrontPanel.lean ====
section
/-! DEFINITION. Machine/FrontPanel.lean: the front pages, buttons, touch strip, sounder and PIN entry (R369 to R374). -/
namespace Sys2Proof.Machine

/-! ALARMS (R374). -/

/-- Insert by an order, behind equals. -/
def insertBy {α : Type} (lt : α → α → Bool) (x : α) (l : List α) : List α :=
  match l with
  | [] => [x]
  | y :: r => if lt x y then x :: y :: r else y :: insertBy lt x r

def sortBy {α : Type} (lt : α → α → Bool) (l : List α) : List α := l.foldl (fun a x => insertBy lt x a) []

/-- Rank of a state within one priority. -/
def stateRank (st : PState) : Nat :=
  match st with | .activeUnack => 0 | .clearedUnack => 1 | .activeAck => 2 | _ => 3

/-- The order of R374: priority, state, earlier onset. -/
def pointBefore (now : Word) (a b : Nat × Point) : Bool :=
  let pa := pPriority a.2
  let pb := pPriority b.2
  let sa := stateRank a.2.st
  let sb := stateRank b.2.st
  pa > pb || (pa = pb && (sa < sb || (sa = sb && (now - b.2.onset).toNat < (now - a.2.onset).toNat)))

/-- The node's own points on ALARMS, in order. -/
def alarmList (s : State) : List (Nat × Point) :=
  sortBy (pointBefore ((fabUs s).setWidth 32)) (s.alm.points.filter (fun x => x.2.st ≠ .normal && x.2.st ≠ .outOfService))

/-- The point that the selected line shows, and the OCC shown with it; before the line has been drawn, as it stands. -/
def selected (s : State) : Option (Nat × BitVec 16) :=
  match tabLook s.disp.lines (s.disp.sel % 15 + 1) with
  | some l => l.point
  | none => ((alarmList s)[s.disp.sel]?).map (fun x => (x.1, x.2.occ))

/-! Pages (Table 15.3). -/

/-- The page that stands in the place of ALARMS. -/
def servicePage (s : State) : FrontPage := if isActiveUnit s then .alarms else .standby

/-- The page shown. -/
def shownPage (s : State) : FrontPage :=
  if s.sys.phase = .recovery then .noFirmware
  else if s.sys.phase = .safeIdle then (if s.disp.page = .service then .service else .idle)
  else match s.disp.page with
    | .start => .start
    | .status => .status
    | _ => servicePage s

/-- The page that is drawn: ALARMS already while START is still shown (Table 15.3). -/
def drawnPage (s : State) : FrontPage := if s.disp.alarmsDue && shownPage s = .start then servicePage s else shownPage s

/-- The next page in the table's order. -/
def nextPage (s : State) : FrontPage :=
  match shownPage s with
  | .alarms => .status
  | .standby => .status
  | .status => servicePage s
  | .service => .idle
  | p => p

def pageCode (p : FrontPage) : Word :=
  match p with
  | .start => 0 | .alarms => 1 | .status => 2 | .standby => 3 | .idle => 4 | .service => 5 | .noFirmware => 6

/-- DO_FAIL of every output as the guarded-class records give it; OFF for every output where they are empty (R102). -/
def failStates (s : State) : List Word :=
  (List.range 16).map (fun k => (((s.store.guarded.getD {}).doFail.getD k 0).setWidth 32))

/-- The point on line n of ALARMS. -/
def linePoint (s : State) (n : Nat) : Option (Nat × Point) :=
  if n = 0 then none else (alarmList s)[s.disp.sel / 15 * 15 + (n - 1)]?

/-- The values that a page shows on a line. -/
def lineContent (s : State) (n : Nat) : List Word :=
  let p := drawnPage s
  let head := [pageCode p, wd n]
  match p with
  | .start => head ++ s.cfg.nodeName.map (fun b => b.setWidth 32) ++ [ownSource s, s.upd.runVer, s.cfg.id, s.cfg.issue]
  | .alarms =>
    if n = 0 then head ++ [wd (alarmList s).length, wd (s.disp.sel / 15)]
    else match linePoint s n with
      | some (i, q) => head ++ [pointTag s i, wd (stCode q.st).toNat, q.occ.setWidth 32, bit (s.disp.sel % 15 = n - 1) 0]
      | none => head
  | .status => head ++ [supStatus s, fabStatus s, pairStatus s, pbStatus s 0, pbStatus s 1]
  | .standby => head ++ [wd (unitCode s.pair.state), (match peerDst s with | some a => a.setWidth 32 | none => 0),
      wd (ownVerdict s), wd (peerVerdict s)]
  | .idle => head ++ [s.flacon.reason.setWidth 32, s.flacon.detail.setWidth 32] ++ failStates s
  | .service =>
    let g := s.store.guarded.getD {}
    head ++ failStates s ++ [g.rolePref.setWidth 32, g.lockPolicy.setWidth 32]
  | .noFirmware => head

/-- Draw one line of the page shown. -/
def drawLine (n : Nat) (s : State) : State :=
  let c := lineContent s n
  let t := (Config.frontText c ++ List.replicate 24 0x20).take 24
  let p := if drawnPage s = .alarms then (linePoint s n).map (fun x => (x.1, x.2.occ)) else none
  dispMod (fun d => { d with lines := tabPut d.lines n { text := t, attr := Config.frontAttr c, point := p } }) s

/-- Lines that a rectangle meets (R372). -/
def rectLines (r : Rect) : List Nat := (List.range 16).filter (fun n => r.y0 < 24 + 18 * n && 6 + 18 * n < r.y0 + r.h)

def drawRect (r : Rect) (s : State) : State := eachS (rectLines r) drawLine s

/-- R381: a rectangle that the panel has. -/
def rectOk (r : Rect) : Bool := r.w ≠ 0 && r.h ≠ 0 && r.x0 + r.w ≤ 400 && r.y0 + r.h ≤ 300

/-- The renderer redraws lines and requests their update (R372, R383). Behind START it draws the first ALARMS page. -/
def effUpdateRequest (r : Rect) (s : State) : State :=
  if !rectOk r then s
  else
    let s := if shownPage s = .start then dispMod (fun d => { d with alarmsDue := true }) s else s
    request r (drawRect r s)
def execUpdateRequest (x8 w8 : BitVec 6) (y0 h : BitVec 9) (clean : Bool) (s : State) : Out :=
  done (effUpdateRequest ⟨x8.toNat * 8, w8.toNat * 8, y0.toNat, h.toNat, clean⟩ s)

/-! Buttons (R369, Table 15.1). -/

/-- A press is counted and recorded. -/
def pressed (s : State) : State := dispRec 0 (bump 0x0D0038 s)

def effFrontAckPress (down : Bool) (s : State) : State :=
  let rise := down && !s.disp.ackKey
  let s := dispMod (fun d => { d with ackKey := down }) s
  if !rise then s
  else
    let s := pressed s
    if shownPage s = .alarms then
      match selected s with
      | some (i, occ) => queueCmd (BitVec.ofNat 12 i) (.ack occ) s
      | none => s
    else s
def execFrontAckPress (down : Bool) (s : State) : Out := done (effFrontAckPress down s)

/-- The condition of the node-fault pattern (Table 15.2). -/
def nodeFault (s : State) : Bool := s.sys.phase = .safeIdle || s.pair.state = .faulted

/-- SILENCE at the front panel (R221, R371): a node fault that stands is silenced, one that comes later sounds. -/
def silenceFront (s : State) : State :=
  { s with alm := { s.alm with points := s.alm.points.map (fun x => (x.1, { x.2 with sounds := false })) },
           disp := { s.disp with faultSilenced := s.disp.faultSilenced || nodeFault s } }

def effFrontSilencePress (down : Bool) (s : State) : State :=
  let rise := down && !s.disp.silKey
  let s := dispMod (fun d => { d with silKey := down }) s
  if rise then silenceFront (pressed s) else s
def execFrontSilencePress (down : Bool) (s : State) : Out := done (effFrontSilencePress down s)

/-- The panel test: both buttons held. -/
def effPanelTest (s : State) : State :=
  if s.disp.ackKey && s.disp.silKey then
    request fullRect (drawRect fullRect (dispMod (fun d => { d with testUntil := s.clock + 1000000000 }) s))
  else s
def execPanelTest (s : State) : Out := done (effPanelTest s)

/-- The pattern that sounds (Table 15.2, Table 15.11). -/
def sounder (s : State) : Nat :=
  if sounderOn s then 1
  else if s.clock < s.disp.testUntil then 3
  else if nodeFault s && !s.disp.faultSilenced then 2
  else 0

/-- DISP_KEYS (Table 15.11). -/
def dispKeys (s : State) : Word :=
  let d := s.disp
  wd (sounder s * 2 ^ 8) ||| bit (d.stuck ≠ 0) 7 ||| wd (d.touched.toNat * 4) ||| bit d.silKey 1 ||| bit d.ackKey 0

/-! The touch strip (R370) and PIN entry (R373). -/

/-- What a touch does, by key: PREV, NEXT, PAGE, SELECT. -/
def touchAct (key : Fin 4) (s : State) : State :=
  match s.disp.pin with
  | some e =>
    match key with
    | 0 => dispMod (fun d => { d with pin := some { e with digit := e.digit - 1 } }) s
    | 1 => dispMod (fun d => { d with pin := some { e with digit := e.digit + 1 } }) s
    | 2 => dispMod (fun d => { d with pin := some { before := e.before ++ [e.digit] } }) s
    | _ => s
  | none =>
    match key with
    | 0 => if shownPage s = .alarms then dispMod (fun d => { d with sel := d.sel - 1 }) s else s
    | 1 =>
      if shownPage s = .alarms && s.disp.sel + 1 < (alarmList s).length then dispMod (fun d => { d with sel := d.sel + 1 }) s else s
    | 2 => let p := nextPage s; dispMod (fun d => { d with page := p }) s
    | _ => s

def effTouchKey (key : Fin 4) (down : Bool) (s : State) : State :=
  let m : BitVec 4 := BitVec.ofNat 4 (2 ^ key.val)
  if !down then dispMod (fun d => { d with touched := d.touched &&& ~~~m, stuck := d.stuck &&& ~~~m }) s
  else if s.disp.stuck.getLsbD key.val || s.disp.touched.getLsbD key.val then s
  else touchAct key (dispMod (fun d => { d with touched := d.touched ||| m }) s)
def execTouchKey (key : Fin 4) (down : Bool) (s : State) : Out := done (effTouchKey key down s)

def effTouchStuck (key : Fin 4) (s : State) : State :=
  let m : BitVec 4 := BitVec.ofNat 4 (2 ^ key.val)
  if s.disp.touched.getLsbD key.val then
    latch aDISP_EVENT 7 (dispMod (fun d => { d with touched := d.touched &&& ~~~m, stuck := d.stuck ||| m }) s)
  else s
def execTouchStuck (key : Fin 4) (s : State) : Out := done (effTouchStuck key s)

/-- The guarded-class records hold a PIN (R102). -/
def hasPin (s : State) : Bool := match s.store.guarded with | some g => g.pinLen ≠ 0 | none => false

def effSelectHeld (s : State) : State :=
  if shownPage s ≠ .idle || !s.disp.touched.getLsbD 3 then s
  else if !hasPin s then dispMod (fun d => { d with page := .service, pin := none }) s
  else if s.disp.pinLocked then s
  else dispMod (fun d => { d with pin := some {} }) s
def execSelectHeld (s : State) : Out := done (effSelectHeld s)

/-- The digits entered are those of the PIN (Table 4.11). -/
def pinMatches (g : Guarded) (l : List (Fin 10)) : Bool :=
  l.length = g.pinLen.toNat && (List.range l.length).all (fun i => (l.getD i 0).val = fld g.pin (4 * i) 4)

def effPinEntry (s : State) : State :=
  match s.disp.pin, s.store.guarded with
  | some e, some g =>
    if s.disp.pinLocked then s
    else if pinMatches g (e.before ++ [e.digit]) then
      dispMod (fun d => { d with page := .service, pin := none, pinWrong := 0 }) s
    else if s.disp.pinWrong ≥ 2 then dispMod (fun d => { d with pin := none, pinWrong := 0, pinLocked := true }) s
    else dispMod (fun d => { d with pin := some {}, pinWrong := d.pinWrong + 1 }) s
  | _, _ => s
def execPinEntry (s : State) : Out := done (effPinEntry s)

def execPinLockoutEnd (s : State) : Out := done (dispMod (fun d => { d with pinLocked := false }) s)

end Sys2Proof.Machine
end

