-- ==== Sys2Proof/Machine/Renderer.lean ====
section
/-! DEFINITION. Machine/Renderer.lean: the page sets that placed renderers build for remote panels (R375, R376). -/
namespace Sys2Proof.Machine

def pageSetOf (i : Word) : BitVec 16 := i.setWidth 16

/-- The renderers of one roster's page set that run here. -/
def renderersHere (s : State) (roster : Word) : List Word :=
  (hostedAs s .primary ++ hostedAs s .shadow).filter (fun i => itemKind i = 3 && fld i 0 16 = roster.toNat)

/-- What the call manager tells the renderers of its page set. -/
def effRendererCallStateSend (roster : Word) (s : State) : State :=
  match rosGet s roster with
  | none => s
  | some c =>
    if !isPrimary s (rosterItem roster) || c.rebuilding then s
    else
      let dsts := distinct ((rendererItems s roster).flatMap (itemTargets s))
      let l := chunks 15 (c.points.map (fun x => x.2))
      let l := if l.isEmpty then [[]] else l
      eachS ((List.range l.length).zip l) (fun x t =>
        sendItem (rosterItem roster) dsts (.itemState (.render (rosterItem roster) c.st.stage c.st.state x.1 l.length x.2)) t) s
def execRendererCallStateSend (roster : Word) (s : State) : Out := done (effRendererCallStateSend roster s)

/-- A part of a call manager's point sources comes in, in order; with the last one the list is whole (R258). -/
def gatherPoints (have_ : List (List PointSource)) (part parts : Nat) (points : List PointSource) :
    List (List PointSource) × Option (List PointSource) :=
  let l := if part = 0 then [] else have_
  if l.length ≠ part then ([], none)
  else if part + 1 ≥ parts then ([], some ((l ++ [points]).flatten))
  else (l ++ [points], none)

/-- RENDERER_CALL_STATE (R375). -/
def effRendererCallState (rx : Rx) (item : Word) (stage call : BitVec 2) (part parts : Nat) (points : List PointSource) (s : State) : State :=
  let (ok, s) := receive rx (.itemState (.render item stage call part parts points)) s
  if !ok then s
  else
    let (l, whole) := gatherPoints (tabGet [] s.plc.renderParts item.toNat) part parts points
    let s := { s with plc := { s.plc with renderParts := tabSet [] s.plc.renderParts item.toNat l } }
    match whole with
    | none => s
    | some pts => eachS (renderersHere s (wd (fld item 0 28))) (fun i t =>
        { t with plc := { t.plc with renders := tabPut t.plc.renders i.toNat (stage, call, pts) } }) s
def execRendererCallState (rx : Rx) (item : Word) (stage call : BitVec 2) (part parts : Nat) (points : List PointSource) (s : State) : Out :=
  done (effRendererCallState rx item stage call part parts points s)

/-! Lines (Table 15.4). -/

/-- The codes of columns 2 and 3: UA, CU, AK and DL. -/
inductive SrcCode where
  | ua | cu | ak | dl
  deriving DecidableEq, Repr

/-- One source of a page set. -/
structure PageSrc where
  accord : Bool
  id : Word
  prio : BitVec 2
  code : SrcCode
  onset : BitVec 64
  foTag : Word
  deriving DecidableEq, Repr

def codeRank (c : SrcCode) : Nat := match c with | .ua => 0 | .cu => 1 | .ak => 2 | .dl => 3

def srcBefore (a b : PageSrc) : Bool :=
  a.prio.toNat > b.prio.toNat || (a.prio = b.prio && (codeRank a.code < codeRank b.code ||
    (codeRank a.code = codeRank b.code && a.onset.toNat < b.onset.toNat)))

/-- An Accord that is not QUIET. -/
def accSrc (a : AccEvent) : Option PageSrc :=
  if a.newState = 0 then none
  else
    let c := if a.newState = 1 then SrcCode.dl else if a.newState = 3 then .ak else if a.active ≠ 0 then .ua else .cu
    some ⟨true, a.accord.setWidth 32, a.prio.setWidth 2, c, a.foOnset, a.foTag⟩

/-- A point in ACTIVE_UNACK, ACTIVE_ACK or CLEARED_UNACK. -/
def pointSrc (p : PointSource) : Option PageSrc :=
  if p.state = 1 then some ⟨false, p.tag, p.prio, .ua, p.onset, 0⟩
  else if p.state = 2 then some ⟨false, p.tag, p.prio, .ak, p.onset, 0⟩
  else if p.state = 3 then some ⟨false, p.tag, p.prio, .cu, p.onset, 0⟩
  else none

/-- An Accord shown on a page set: its record names the roster; without a record here, it belongs to the one set this node renders. -/
def accOfSet (s : State) (set : BitVec 16) (id : BitVec 16) : Bool :=
  match accordRec s id with
  | some r => r.roster = set.setWidth 32
  | none => ((hostedAs s .primary ++ hostedAs s .shadow).filter (fun i => itemKind i = 3)).length = 1

/-- The sources of a page set, in the order of R374. -/
def pageSources (s : State) (i : Word) : List PageSrc :=
  let accs := (s.plc.renderAccs.filter (fun x => accOfSet s (pageSetOf i) (BitVec.ofNat 16 x.1))).filterMap (fun x => accSrc x.2)
  let pts := match tabLook s.plc.renders i.toNat with | some (_, _, l) => l.filterMap pointSrc | none => []
  sortBy srcBefore (accs ++ pts)

def ascii (t : String) : List Byte := t.toList.map (fun c => BitVec.ofNat 8 c.toNat)

def hexDigit (n : Nat) : Byte := BitVec.ofNat 8 (if n < 10 then 48 + n else 55 + n)

/-- n hexadecimal digits of a word. -/
def hexText (n : Nat) (w : Word) : List Byte := (List.range n).map (fun k => hexDigit (fld w (4 * (n - 1 - k)) 4))

def padTo (n : Nat) (l : List Byte) : List Byte := (l ++ List.replicate n 0x20).take n

def prioText (p : BitVec 2) : List Byte := if p = 3 then ascii "C" else if p = 2 then ascii "H" else if p = 1 then ascii "N" else ascii "L"

def codeText (c : SrcCode) : List Byte :=
  match c with | .ua => ascii "UA" | .cu => ascii "CU" | .ak => ascii "AK" | .dl => ascii "DL"

def srcText (x : PageSrc) : List Byte :=
  let name := if x.accord then ascii "A" ++ hexText 4 x.id else ascii "P" ++ hexText 8 x.id
  let fo := if x.accord then ascii "F" ++ hexText 8 x.foTag else []
  prioText x.prio ++ ascii " " ++ codeText x.code ++ ascii " " ++ padTo 10 name ++ padTo 9 fo

def srcAttr (x : PageSrc) : BitVec 8 :=
  if x.code = .ua || x.code = .cu then (if x.prio = 3 then 2 else 1) else 0

def callText (c : BitVec 2) : List Byte := if c = 1 then ascii "CALLING" else if c = 2 then ascii "ANSWERED" else ascii "IDLE"

def headText (set : BitVec 16) (stage call : BitVec 2) : List Byte :=
  padTo 24 (ascii "ROSTER " ++ padTo 5 (ascii (toString set.toNat)) ++ ascii " S" ++ [hexDigit stage.toNat] ++ ascii " " ++ callText call)

/-- Every line of every page. -/
def buildPages (s : State) (i : Word) : List PageLine :=
  let set := pageSetOf i
  let l := (pageSources s i).take 3840
  let n := max 1 ((l.length + 14) / 15)
  let (stage, call) := match tabLook s.plc.renders i.toNat with | some (g, c, _) => (g, c) | none => (0, 0)
  (List.range n).flatMap (fun p => (List.range 16).map (fun k =>
    let (t, a) : List Byte × BitVec 8 :=
      if k = 0 then (headText set stage call, if call = 1 then 2 else 0)
      else match l[p * 15 + (k - 1)]? with
        | some x => (srcText x, srcAttr x)
        | none => (List.replicate 24 0x20, 0)
    ⟨set, BitVec.ofNat 8 p, BitVec.ofNat 8 k, a, t⟩))

/-! Sending (R376). -/

/-- The nodes of the zone whose panel map names the page set: those whose catalogue carries the renderer. -/
def pageNodes (s : State) (i : Word) : List Addr :=
  (if (carriedItems s).contains i then [ownAddr s] else []) ++
    (s.plc.cats.filter (fun c => inView s c.origin && c.origin ≠ ownAddr s && c.entries.any (fun e => e.item = i))).map (fun c => c.origin)

/-- One page as frames of at most six lines. -/
def sendPage (i : Word) (pages : Nat) (p : Nat) (l : List PageLine) (s : State) : State :=
  let mine := l.filter (fun x => x.page.toNat = p)
  eachS [mine.take 6, (mine.drop 6).take 6, mine.drop 12] (fun part t =>
    sendItem i (pageNodes t i) (.pageContent ⟨i, pageSetOf i, BitVec.ofNat 8 p, BitVec.ofNat 8 (pages - 1), part⟩) t) s

def effPageRenderSend (i : Word) (every : Bool) (s : State) : State :=
  if itemKind i ≠ 3 || !isPrimary s i then s
  else
    let l := buildPages s i
    let old := tabGet [] s.plc.pages i.toNat
    let n := l.length / 16
    let fewer := old.length ≠ l.length
    let changed := (List.range n).filter (fun p =>
      every || fewer || l.filter (fun x => x.page.toNat = p) ≠ old.filter (fun x => x.page.toNat = p))
    let s := { s with plc := { s.plc with pages := tabPut s.plc.pages i.toNat l } }
    eachS changed (fun p t => sendPage i n p l t) s
def execPageRenderSend (item : Word) (every : Bool) (s : State) : Out := done (effPageRenderSend item every s)

end Sys2Proof.Machine
end

