-- ==== Sys2Proof/Machine/Peek.lean ====
section
/-! DEFINITION. Machine/Peek.lean: the value every register shows (R35, and the register tables of the chapters), without the effects of a read.
No value: the address is unmapped or unassigned. -/
namespace Sys2Proof.Machine

/-! Banks (R414, R415). -/

/-- The version an image carries: the delivered one, or FW_VER of its block 0 (Table 17.4). -/
def factoryVer : Word := 0x00010000

def bankVer (b : Bank) : Word :=
  if b.state = .empty then 0
  else if b.factory then factoryVer
  else wd (leNat (((tabGet [] b.blocks 0).drop 4).take 4))

def bankCode (b : BankState) : Nat := match b with | .empty => 0 | .loading => 1 | .verified => 2 | .good => 3 | .failed => 4

def updCode (u : UpdState) : Nat :=
  match u with | .idle => 0 | .loading => 1 | .verifying => 2 | .verified => 3 | .activating => 4 | .failed => 5

/-- UPD_STATUS (Table 17.11). -/
def updStatus (s : State) : Word :=
  wd (s.upd.reason.toNat * 2 ^ 8 + updCode s.upd.state) ||| bit (s.sys.phase = .recovery) 7 ||| bit s.store.trial 6 |||
    bit (s.store.bankA.cycles.toNat > 10000 || s.store.bankB.cycles.toNat > 10000) 5 ||| bit s.upd.sess.isSome 4

def updSession (s : State) : Word :=
  match s.upd.sess with
  | some x => wd (x.written.length * 2 ^ 16 + x.count)
  | none => wd (s.upd.blocks * 2 ^ 16 + s.upd.blocks)

def updTrial (s : State) : Word :=
  let left := match s.upd.confirmAt with | some t => (t - s.clock + 999999999) / 1000000000 | none => 0
  wd (left * 2 ^ 16 + s.store.trialStarts.toNat)

/-! The blocks, by offset. -/

def peekId (s : State) (o : Nat) : Option Word :=
  match o with
  | 0x00 => some 0x6400 | 0x04 => some s.serial | 0x08 => some s.hwIssue | 0x0C => some s.upd.runVer | 0x10 => some (bit s.upd.bank 0)
  | _ => none

/-- SYS_STATUS (Table 2.6). -/
def sysStatus (s : State) : Word :=
  bit (s.sys.scrubBehind.toList.any id) 3 ||| bit s.sys.snap.busy 2 ||| bit s.sys.lock 1 ||| bit (!s.flacon.present) 0

def sysSnap (s : State) : Word :=
  let n := s.sys.snap
  wd (n.num.toNat * 2 ^ 16) ||| bit n.late 4 ||| bit n.aborted 3 ||| bit n.busy 2

def startStatus (s : State) : Word :=
  wd (s.flacon.detail.toNat * 2 ^ 16 + s.flacon.reason.toNat) ||| bit s.cfg.live 9 ||| bit (s.sys.phase = .safeIdle) 8

def resetCauseWord (s : State) : Word :=
  wd (s.sys.wdSource.toNat * 2 ^ 16 + s.sys.starts.toNat * 2 ^ 8 + s.sys.resetCause.toNat)

def keyWord (s : State) (k : Fin 4) (j : Nat) : Word := (s.store.keys[k] >>> (32 * j)).setWidth 32

def peekSys (s : State) (o : Nat) : Option Word :=
  if 0x40 ≤ o ∧ o < 0xC0 then some (keyWord s (Fin.ofNat 4 ((o - 0x40) / 0x20)) (o % 0x20 / 4))
  else match o with
    | 0x00 => some (sysStatus s)
    | 0x04 => some (rsqWord (rsqGet s aSYS_EVENT))
    | 0x08 => some (wd (s.sys.policy.toNat * 2) ||| bit s.sys.lock 0)
    | 0x0C => some (sysSnap s)
    | 0x10 => some (resetCauseWord s)
    | 0x14 => some (ctrGet s aSYS_ADDR_MISS)
    | 0x18 => some (ctrGet s aSYS_LOCK_REFUSED)
    | 0x1C => some (ctrGet s aSYS_SNAP_OVERRUN)
    | 0x20 => some (startStatus s)
    | 0x24 => some (s.flacon.startMs.setWidth 32)
    | 0x28 => some s.flacon.cfgId
    | 0x2C => some s.flacon.cfgIssue
    | 0x30 => some s.flacon.len
    | 0x34 => some (s.flacon.jedecReg.setWidth 32)
    | _ => none

/-- A register that updates every 1 ms (R78): the measurement a command brought in this millisecond, else one that no command carries
(log entry 114). -/
def measured (s : State) (a : Nat) (held : Bool) (v : BitVec 16) : Word :=
  (if held then v else Config.measured a (s.clock / 1000000)).setWidth 32

def fsNow (s : State) (f : FieldSupply) : Bool := f.ms = some (s.clock / 1000000)

def peekSup (s : State) (o : Nat) : Option Word :=
  match o with
  | 0x00 => some (supStatus s)
  | 0x04 => some (rsqWord (rsqGet s aSUP_EVENT))
  | 0x08 => some (measured s 0x020008 s.sup.ddAt.isSome s.sup.busV)
  | 0x0C => some (s.sup.mainsV.setWidth 32)
  | 0x10 => some (bit s.sup.freqValid 31 ||| wd (s.sup.freq % 2 ^ 17))
  | 0x14 => some (measured s 0x020014 (fsNow s s.sup.a) s.sup.a.mv)
  | 0x18 => some (measured s 0x020018 (fsNow s s.sup.a) s.sup.a.ma)
  | 0x1C => some (measured s 0x02001C (fsNow s s.sup.b) s.sup.b.mv)
  | 0x20 => some (measured s 0x020020 (fsNow s s.sup.b) s.sup.b.ma)
  | 0x24 => some (s.store.rideLast.setWidth 32)
  | 0x28 => some s.store.ddLast
  | 0x2C => some (ctrGet s aSUP_DD_COUNT)
  | 0x30 => some (ctrGet s aSUP_DD_ABANDON)
  | 0x34 => some (ctrGet s aSUP_RIDE_COUNT)
  | 0x38 => some (s.store.powerCycles.setWidth 32)
  | 0x3C => some s.store.opSeconds
  | _ => none

def talmPeek (a : Talm) (o : Nat) : Option Word :=
  match o with
  | 0x0 => some ((a.ctrl &&& 0x8000003F) ||| bit a.skipped 8)
  | 0x4 => some a.date
  | 0x8 => some a.tod
  | 0xC => some a.hwm
  | _ => none

/-- The frozen values, or the live ones (R353). -/
def timeView (s : State) : Shadow :=
  match s.tim.shadow with
  | some h => h
  | none => ⟨fracWord s, s.tim.sec, dateWord s.tim.sec, todWord s.tim.sec⟩

def peekTime (s : State) (o : Nat) : Option Word :=
  let v := timeView s
  if 0x60 ≤ o ∧ o < 0x70 then talmPeek s.tim.a0 (o - 0x60)
  else if 0x70 ≤ o ∧ o < 0x80 then talmPeek s.tim.a1 (o - 0x70)
  else if 0x80 ≤ o ∧ o < 0xC0 then some (tabGet 0 s.tim.backup ((o - 0x80) / 4))
  else match o with
    | 0x00 => some v.frac
    | 0x04 => some (wd (v.sec.toNat % 65536))
    | 0x08 => some (wd (v.sec.toNat / 65536))
    | 0x0C => some v.date
    | 0x10 => some v.tod
    | 0x14 => some (timeStatus s)
    | 0x18 => some (rsqWord (rsqGet s aTIME_EVENT))
    | 0x1C => some 0
    | 0x20 => some 0
    | 0x24 => some s.tim.setDate
    | 0x28 => some s.tim.setTod
    | 0x2C => some (s.tim.trim.setWidth 32)
    | 0x30 => some (s.tim.vcap.setWidth 32)
    | 0x34 => some s.tim.ftDiff
    | 0x38 => some s.tim.conv
    | 0x3C => some (dateWord s.tim.conv)
    | 0x40 => some (todWord s.tim.conv)
    | 0x44 => some (ctrGet s aTIME_STEP_COUNT)
    | 0x48 => some (ctrGet s (aTALM_COUNT 0))
    | 0x4C => some (ctrGet s (aTALM_COUNT 1))
    | _ => none

/-- The calibration of a channel: gain, offset and stamp (R123). -/
def calOf (s : State) (n : Fin 64) : F32 × F32 × Word := tabGet (fOne, 0, 0) s.store.cal n.val

def peekAfe (s : State) (n : Fin 64) (o : Nat) : Option Word :=
  let c := chan s n
  let b := blkOf n
  let v := valGet s n.val
  let first := aAFE (chOf b 0)
  if 4 ≤ o ∧ o ≤ 0x28 then some (regGet s (aAFE n o))
  else if (0x2C ≤ o ∧ o < 0x40) ∨ (0x4C ≤ o ∧ o < 0x80) then some 0
  else match o with
    | 0x00 => some (voted s (aAFE n 0))
    | 0x40 => some (calOf s n).1
    | 0x44 => some (calOf s n).2.1
    | 0x48 => some (calOf s n).2.2
    | 0x80 => some v.value
    | 0x84 => some (wd (v.seq.toNat * 2 ^ 16 + v.quality.toNat))
    | 0x88 => some c.pcal
    | 0x8C => some (c.raw.setWidth 32)
    | 0x90 => some c.excMeas
    | 0x94 => some c.cjUsed
    | 0x98 => some (afeStatus s n)
    | 0x9C => some (rsqWord (rsqGet s (aAFE n 0x9C)))
    | 0xA0 => some (blkStatus s b)
    | 0xA4 => some (blk s b).cj1
    | 0xA8 => some (blk s b).cj2
    | 0xAC => some ((blk s b).excP.setWidth 32)
    | 0xB0 => some (blkShed s b)
    | 0xB4 => some (ctrGet s (first 0xB4))
    | 0xB8 => some (ctrGet s (first 0xB8))
    | 0xBC => some (ctrGet s (first 0xBC))
    | 0xC0 => some (afeHstatus s n)
    | 0xC4 => some (rsqWord (rsqGet s (aAFE n 0xC4)))
    | 0xC8 => some c.zp
    | 0xCC => some c.zc
    | 0xD0 => some (wd (rateNow s n))
    | 0xD4 => some c.lastGood
    | 0xD8 => some (ctrGet s (aAFE n 0xD8))
    | 0xDC => some (ctrGet s (aAFE n 0xDC))
    | 0xE0 => some (ctrGet s (aAFE n 0xE0))
    | 0xE4 => some (ctrGet s (aAFE n 0xE4))
    | _ => none

def peekAr (s : State) (k : Fin 8) (o : Nat) : Option Word :=
  let a := ar s k
  match o with
  | 0x00 => some (regGet s (aAR k 0))
  | 0x04 => some (regGet s (aAR k 4))
  | 0x08 => some (regGet s (aAR k 8))
  | 0x0C => some (regGet s (aAR k 0xC))
  | 0x10 => some 0 | 0x14 => some 0 | 0x18 => some 0 | 0x1C => some 0
  | 0x20 => some (a.code.setWidth 32)
  | 0x24 => some (a.ref.setWidth 32)
  | 0x28 => some (a.out.setWidth 32)
  | 0x2C => some (arStatus s k)
  | 0x30 => some (rsqWord (rsqGet s (aAR k 0x30)))
  | 0x34 => some (regGet s (aAR k 0x34))
  | 0x38 => some (ctrGet s (aAR k 0x38))
  | _ => none

def peekDi (s : State) (k : Fin 32) (o : Nat) : Option Word :=
  match o with
  | 0x00 => some (regGet s (aDI k 0))
  | 0x04 => some 0 | 0x08 => some 0 | 0x0C => some 0
  | 0x10 => some (diState s k)
  | 0x14 => some (rsqWord (rsqGet s (aDI k 0x14)))
  | 0x18 => some (ctrGet s (aDI k 0x18))
  | 0x1C => some (ctrGet s (aDI k 0x1C))
  | _ => none

def peekDo (s : State) (k : Fin 16) (o : Nat) : Option Word :=
  let d := dout s k
  match o with
  | 0x00 => some (regGet s (aDO k 0))
  | 0x04 => some (regGet s (aDO k 4))
  | 0x08 => some 0 | 0x0C => some 0
  | 0x10 => some (voted s (aDO k 0x10))
  | 0x14 => some (regGet s (aDO k 0x14))
  | 0x18 => some (doState s k)
  | 0x1C => some (rsqWord (rsqGet s (aDO k 0x1C)))
  | 0x20 => some (d.mv.setWidth 32)
  | 0x24 => some (d.ma.setWidth 32)
  | 0x28 => some (ctrGet s (aDO k 0x28))
  | 0x2C => some (ctrGet s (aDO k 0x2C))
  | 0x30 => some (wd (fixLeft s k))
  | _ => none

def peekDio (s : State) (o : Nat) : Option Word :=
  if o < 0x400 then peekDi s (Fin.ofNat 32 (o / 0x20)) (o % 0x20)
  else if o < 0x800 then peekDo s (Fin.ofNat 16 ((o - 0x400) / 0x40)) (o % 0x40)
  else none

def almStatus (s : State) : Word := bit (s.alm.cmds.length ≥ 256) 1 ||| bit s.alm.running 0

def peekAlm (s : State) (o : Nat) : Option Word :=
  if 0x40 ≤ o ∧ o < 0x80 then some (pointWord (pointGet s s.alm.sel.toNat) ((o - 0x40) / 4))
  else if 0x80 ≤ o ∧ o < 0x90 then some ((sysCauses s >>> (32 * ((o - 0x80) / 4))).setWidth 32)
  else match o with
    | 0x00 => some (almStatus s)
    | 0x04 => some (rsqWord (rsqGet s aALM_EVENT))
    | 0x08 => some s.alm.cycle
    | 0x0C => some s.alm.countA
    | 0x10 => some s.alm.countB
    | 0x14 => some (ctrGet s aALM_CMD_LOST)
    | 0x18 => some (ctrGet s aALM_ACK_STALE)
    | 0x1C => some (ctrGet s aALM_TRANSITIONS)
    | 0x20 => some (s.alm.sel.setWidth 32)
    | 0x24 => some 0
    | 0x28 => some (s.alm.cmdArg.setWidth 32)
    | _ => none

/-- Items of one kind that run here: shadows in the upper half, primaries in the lower. -/
def hostedKind (s : State) (k : Nat) : Word :=
  let n := fun r => ((hostedAs s r).filter (fun i => itemKind i = k)).length
  wd (n .shadow * 2 ^ 16 + n .primary)

def peekCall (s : State) (o : Nat) : Option Word :=
  if 0x40 ≤ o ∧ o < 0x60 then some (accView s ((o - 0x40) / 4))
  else if 0x60 ≤ o ∧ o < 0x80 then some (rosView s ((o - 0x60) / 4))
  else if 0x10 ≤ o ∧ o < 0x30 then some (ctrGet s (0x080000 + o))
  else match o with
    | 0x00 => some (callStatus s)
    | 0x04 => some (rsqWord (rsqGet s aCALL_EVENT))
    | 0x08 => some (hostedKind s 1)
    | 0x0C => some (hostedKind s 2)
    | 0x30 => some (if s.sys.phase = .safeIdle then 0 else s.call.accSel.setWidth 32)
    | 0x34 => some (if s.sys.phase = .safeIdle then 0 else s.call.rosSel)
    | _ => none

def peekPbPort (s : State) (p : Fin 2) (o : Nat) : Option Word :=
  let t := pbPort s p
  if 0x28 ≤ o ∧ o ≤ 0x40 then some (ctrGet s (aPB p o))
  else match o with
    | 0x00 => some (pbCfg s p)
    | 0x04 => some (pbStatus s p)
    | 0x08 => some (rsqWord (rsqGet s (aPB p 8)))
    | 0x0C => some (pbErr s p)
    | 0x10 => some (t.depth.setWidth 32)
    | 0x14 => some (pbFill s p)
    | 0x18 => some (pbBusoffLeft s p)
    | 0x1C => some t.lastSof
    | 0x20 => some (t.present.setWidth 32)
    | 0x24 => some ((t.present >>> 32).setWidth 32)
    | _ => none

def peekPb (s : State) (o : Nat) : Option Word :=
  if o < 0x200 then peekPbPort s (Fin.ofNat 2 (o / 0x100)) (o % 0x100)
  else match o with
    | 0x200 => some (tsNow s)
    | 0x204 => some s.pb.tsMark
    | 0x208 => some (s.pb.tsMarkFt.setWidth 32)
    | 0x20C => some ((s.pb.tsMarkFt >>> 32).setWidth 32)
    | _ => none

def peekLink (s : State) (k : Link) (o : Nat) : Option Word :=
  if 0x10 ≤ o ∧ o ≤ 0x28 then some (ctrGet s (aLINK k o))
  else match o with
    | 0x00 => some (linkStatus s k)
    | 0x04 => some (linkNeigh s k)
    | 0x08 => some (linkNeighSerial s k)
    | 0x0C => some (linkDelayReg s k)
    | _ => none

def peekFab (s : State) (o : Nat) : Option Word :=
  if 0x100 ≤ o ∧ o < 0x2C0 then peekLink s (Fin.ofNat 7 ((o - 0x100) / 0x40)) (o % 0x40)
  else if 0x40 ≤ o ∧ o ≤ 0x6C then some (ctrGet s (0x0A0000 + o))
  else match o with
    | 0x00 => some (fabStatus s)
    | 0x04 => some (rsqWord (rsqGet s aFAB_EVENT))
    | 0x08 => some (fabAddr s)
    | 0x0C => some (fabRoot s)
    | 0x10 => some ((fabUs s).setWidth 32)
    | 0x14 => some s.fab.ftHi
    | 0x18 => some s.fab.offset
    | 0x1C => some (fabView s)
    | 0x20 => some (wd s.fab.windows.length)
    | _ => none

def peekPlace (s : State) (o : Nat) : Option Word :=
  if 0x44 ≤ o ∧ o < 0x5C then some (placeView s ((o - 0x44) / 4))
  else if 0x20 ≤ o ∧ o ≤ 0x34 then some (ctrGet s (0x0B0000 + o))
  else match o with
    | 0x00 => some (placeStatus s)
    | 0x04 => some (rsqWord (rsqGet s aPLACE_EVENT))
    | 0x08 => some (placeSlotsReg s)
    | 0x0C => some (placeItemsReg s)
    | 0x10 => some (placeHostedReg s)
    | 0x14 => some s.plc.version
    | 0x18 => some (placeStarvedReg s)
    | 0x40 => some s.plc.sel
    | 0x60 => some s.plc.calcItem
    | 0x64 => some (s.plc.calcAddr.setWidth 32)
    | 0x68 => some (s.plc.calcH.setWidth 32)
    | 0x6C => some ((s.plc.calcH >>> 32).setWidth 32)
    | _ => none

def pairPeer (s : State) : Word := match peerDst s with | some a => bit true 31 ||| a.setWidth 32 | none => 0

def peekPair (s : State) (o : Nat) : Option Word :=
  if 0x30 ≤ o ∧ o ≤ 0x48 then some (ctrGet s (0x0C0000 + o))
  else match o with
    | 0x00 => some (pairStatus s)
    | 0x04 => some (rsqWord (rsqGet s aPAIR_EVENT))
    | 0x08 => some (voted s aPAIR_ROLE)
    | 0x0C => some (s.pair.force.setWidth 32)
    | 0x10 => some (s.pair.holdoff.setWidth 32)
    | 0x14 => some s.pair.health
    | 0x18 => some s.pair.peerHealth
    | 0x1C => some (pairPeer s)
    | 0x20 => some s.pair.ckptGen
    | 0x24 => some s.pair.lastSwitch
    | 0x28 => some (holdoffLeft s)
    | _ => none

def peekSlot (s : State) (k : Fin 8) (o : Nat) : Option Word :=
  match o with
  | 0x0 => some (regState s k) | 0x4 => some (regRect s k) | 0x8 => some (regStart s k) | _ => some 0

def peekDisp (s : State) (o : Nat) : Option Word :=
  let d := s.disp
  if 0x1000 ≤ o ∧ o < 0x8530 then some (tabGet 0 d.old ((o - 0x1000) / 4))
  else if 0x8530 ≤ o ∧ o < 0xFA60 then some (tabGet 0 d.new ((o - 0x8530) / 4))
  else if 0x800 ≤ o ∧ o < 0x1000 then some (tabGet 0 d.wave ((o - 0x800) / 4))
  else if 0x40 ≤ o ∧ o < 0xC0 then peekSlot s (Fin.ofNat 8 ((o - 0x40) / 0x10)) (o % 0x10)
  else if 0xC0 ≤ o ∧ o < 0xE0 then some (match d.pend[(o - 0xC0) / 4]? with | some r => rectWord r | none => 0)
  else if 0x100 ≤ o ∧ o < 0x1C0 then some (tabGet 0 d.stress ((o - 0x100) / 4))
  else if 0x200 ≤ o ∧ o < 0x2C0 then some (BitVec.ofInt 32 (tabGet 0 d.charge ((o - 0x200) / 4)))
  else if 0x20 ≤ o ∧ o ≤ 0x38 then some (ctrGet s (aDISP + o))
  else match o with
    | 0x00 => some (dispStatus s)
    | 0x04 => some (rsqWord (rsqGet s aDISP_EVENT))
    | 0x08 => some (dispTemp s)
    | 0x0C => some (s.store.vcom.setWidth 32)
    | 0x10 => some 0
    | 0x14 => some (dispKeys s)
    | 0x18 => some s.store.ageFull
    | 0x1C => some d.crcLast
    | _ => none

def logStatus (s : State) : Word :=
  let r := s.rcd
  bit (r.queue.length ≥ 1024) 4 ||| bit r.index.closed 3 ||| bit r.rebuilding 2 ||| bit (r.index.fill ≥ 16384) 1 ||| bit r.running 0

def winStatus (s : State) : Word :=
  let r := s.rcd
  bit r.winValid 31 ||| bit r.winExact 30 ||| bit r.winBusy 29 ||| r.winSkipped.setWidth 32

def peekLog (s : State) (o : Nat) : Option Word :=
  let r := s.rcd
  if 0x80 ≤ o ∧ o < 0x100 then some (if r.winBusy then 0 else r.win.getD ((o - 0x80) / 4) 0)
  else match o with
    | 0x00 => some (logStatus s)
    | 0x04 => some (rsqWord (rsqGet s aLOG_EVENT))
    | 0x08 => some r.index.next
    | 0x0C => some r.index.oldest
    | 0x10 => some (wd r.index.fill)
    | 0x14 => some (wd (r.index.sev1 * 2 ^ 16 + r.index.sev0))
    | 0x18 => some (wd (r.index.sev3 * 2 ^ 16 + r.index.sev2))
    | 0x1C => some (ctrGet s aLOG_WRITTEN)
    | 0x20 => some (ctrGet s aLOG_OVERWRITTEN)
    | 0x24 => some (ctrGet s aLOG_DROPPED)
    | 0x28 => some (wd r.index.corrupt)
    | 0x2C => some (ctrGet s aEVQ_LOST)
    | 0x30 => some r.sel
    | 0x34 => some (winStatus s)
    | 0x38 => some (wd r.queue.length)
    | _ => none

def aUPD : Nat := 0x0F0000
def aUPD_EVENT : Nat := 0x0F0004

def peekUpd (s : State) (o : Nat) : Option Word :=
  match o with
  | 0x00 => some (updStatus s)
  | 0x04 => some (rsqWord (rsqGet s aUPD_EVENT))
  | 0x08 => some 0
  | 0x0C => some (updSession s)
  | 0x10 => some s.upd.ver
  | 0x14 => some (bit s.store.bankSel 7 ||| wd (bankCode s.store.bankB.state * 16 + bankCode s.store.bankA.state))
  | 0x18 => some (bankVer s.store.bankA)
  | 0x1C => some (bankVer s.store.bankB)
  | 0x20 => some (updTrial s)
  | 0x24 => some s.store.bankA.cycles
  | 0x28 => some s.store.bankB.cycles
  | 0x2C => some (ctrGet s 0x0F002C)
  | 0x30 => some (ctrGet s 0x0F0030)
  | 0x34 => some s.store.rollbacks
  | 0x38 => some (ctrGet s 0x0F0038)
  | 0x40 => some s.svc.ip
  | 0x44 => some (ctrGet s 0x0F0044)
  | 0x48 => some (ctrGet s 0x0F0048)
  | 0x4C => some (ctrGet s 0x0F004C)
  | 0x50 => some (ctrGet s 0x0F0050)
  | _ => none

def peekEcc (s : State) (o : Nat) : Option Word :=
  if o < 0x80 then
    if o % 0x10 = 8 then some (s.sys.eccLast[Fin.ofNat 8 (o / 0x10)]) else some (ctrGet s (0x100000 + o))
  else if o = 0x100 then some (ctrGet s aECC_VOTE_FIX)
  else none

/-- The holding area (Table 2.9). -/
def peekHold (s : State) (o : Nat) : Word :=
  let h := s.sys.snap.hold
  if o = 0 then bit h.valid 31 ||| h.num.setWidth 32
  else if o = 4 then h.cycles.setWidth 32
  else if o = 8 then (h.cycles >>> 32).setWidth 32
  else if o = 0xC then wd h.entries.length
  else if o < 0x34 then h.delays.getD ((o - 0x10) / 4) 0
  else if o < 0x40 then 0
  else match h.entries[(o - 0x40) / 8]? with
    | none => 0
    | some (i, a, v) => if o % 8 = 0 then wd (i.toNat * 2 ^ 24 + a.toNat) else v

/-- The value a register shows, by its address (Table 2.1). In recovery only two blocks answer (R417). -/
def peek (s : State) (a : Nat) : Option Word :=
  let o := a % 0x10000
  let b := a / 0x10000
  if a % 4 ≠ 0 then none
  else if s.sys.phase = .recovery && b ≠ 0 && b ≠ 0x0F then some 0
  else match b with
    | 0x00 => peekId s o
    | 0x01 => peekSys s o
    | 0x02 => peekSup s o
    | 0x03 => peekTime s o
    | 0x04 => if o < 0x4000 then peekAfe s (Fin.ofNat 64 (o / 0x100)) (o % 0x100) else none
    | 0x05 => if o < 0x200 then peekAr s (Fin.ofNat 8 (o / 0x40)) (o % 0x40) else none
    | 0x06 => peekDio s o
    | 0x07 => peekAlm s o
    | 0x08 => peekCall s o
    | 0x09 => peekPb s o
    | 0x0A => peekFab s o
    | 0x0B => peekPlace s o
    | 0x0C => peekPair s o
    | 0x0D => peekDisp s o
    | 0x0E => peekLog s o
    | 0x0F => peekUpd s o
    | 0x10 => peekEcc s o
    | 0x20 | 0x21 | 0x22 | 0x23 => some (peekHold s (a - 0x200000))
    | _ => none

/-! The counters (R44, R45, R353). -/

/-- Offsets of the counters that a block holds once. -/
def blockCounters : List (Nat × List Nat) :=
  [(0x010000, [0x14, 0x18, 0x1C]), (0x020000, [0x2C, 0x30, 0x34]), (0x030000, [0x00, 0x04, 0x08, 0x44, 0x48, 0x4C])]

def laterCounters : List (Nat × List Nat) :=
  [(0x070000, [0x08, 0x14, 0x18, 0x1C]), (0x080000, [0x10, 0x14, 0x18, 0x1C, 0x20, 0x24, 0x28, 0x2C])]

def pbCounters : List Nat := [0x28, 0x2C, 0x30, 0x34, 0x38, 0x3C, 0x40]

/-- Source addresses of every counter, lowest first (R46). -/
def counterAddrs : List Nat :=
  blockCounters.flatMap (fun x => x.2.map (fun o => x.1 + o)) ++
  (List.finRange 64).flatMap (fun n =>
    (if n.val % 8 = 0 then [0xB4, 0xB8, 0xBC] else []).map (aAFE n) ++ [0xD8, 0xDC, 0xE0, 0xE4].map (aAFE n)) ++
  (List.finRange 8).map (fun k => aAR k 0x38) ++
  (List.finRange 32).flatMap (fun k => [aDI k 0x18, aDI k 0x1C]) ++
  (List.finRange 16).flatMap (fun k => [aDO k 0x28, aDO k 0x2C]) ++
  laterCounters.flatMap (fun x => x.2.map (fun o => x.1 + o)) ++
  pbCounters.map (aPB 0) ++ pbCounters.map (aPB 1) ++ [0x090200] ++
  (List.range 12).map (fun i => 0x0A0040 + 4 * i) ++
  (List.finRange 7).flatMap (fun k => (List.range 7).map (fun i => aLINK k (0x10 + 4 * i))) ++
  (List.range 6).map (fun i => 0x0B0020 + 4 * i) ++
  (List.range 7).map (fun i => 0x0C0030 + 4 * i) ++
  (List.range 7).map (fun i => 0x0D0020 + 4 * i) ++ (List.range 48).map (fun i => 0x0D0100 + 4 * i) ++
  [0x0E001C, 0x0E0020, 0x0E0024, 0x0E002C] ++
  [0x0F0024, 0x0F0028, 0x0F002C, 0x0F0030, 0x0F0034, 0x0F0038, 0x0F0044, 0x0F0048, 0x0F004C, 0x0F0050] ++
  (List.range 8).flatMap (fun m => [0x100000 + m * 0x10, 0x100004 + m * 0x10, 0x10000C + m * 0x10]) ++ [0x100100]

/-- The island that holds a block's counters (Table 1.5). -/
def islandOf (a : Nat) : BitVec 8 :=
  match a / 0x10000 with
  | 0x02 => 7 | 0x03 => 6 | 0x04 => 1 | 0x05 => 1 | 0x06 => 4 | 0x09 => 3 | 0x0A => 2 | 0x0D => 5 | 0x0F => 8 | _ => 0

/-- A counter's value at the capture: the live one, whatever the shadows hold (R353). -/
def counterValue (s : State) (a : Nat) : Word :=
  if a = 0x030000 then fracWord s
  else if a = 0x030004 then wd (s.tim.sec.toNat % 65536)
  else if a = 0x030008 then wd (s.tim.sec.toNat / 65536)
  else (peek s a).getD 0

end Sys2Proof.Machine
end

