-- ==== Sys2Proof/Machine/Recorder.lean ====
section
/-! DEFINITION. Machine/Recorder.lean: the event recorder (chapter 16): a record's words, its place in the log, the rebuild and the window. -/
namespace Sys2Proof.Machine

def rcdMod (f : RecSt → RecSt) (s : State) : State := { s with rcd := f s.rcd }

/-! Register snapshots (Table 16.3). -/

def accViewOf (s : State) (id : BitVec 16) (j : Nat) : Word := accView { s with call := { s.call with accSel := id } } j
def rosViewOf (s : State) (r : Word) (j : Nat) : Word := rosView { s with call := { s.call with rosSel := r } } j

/-- What a block record captures, from the base address in SOURCE. -/
def blockAddrs (src : Nat) : List Nat :=
  if src / 0x10000 = 4 then (List.range 16).map (fun i => src + 0x80 + 4 * i)
  else if src / 0x10000 = 6 && src % 0x10000 < 0x400 then (List.range 8).map (fun i => src + 4 * i)
  else (List.range 16).map (fun i => src + 4 * i)

/-- The registers a kind captures, in order; none where one does not apply (R398). -/
def captures (s : State) (e : Event) : List (Option Word) :=
  if e.kind = 0x01 then
    let p := pointGet s (e.source.toNat % 4096)
    let src := pSource p
    let afe := fun o => if pCondition p ≠ 10 && src < 64 then peek s (0x040000 + src * 0x100 + o) else none
    (List.range 8).map (fun j => some (pointWord p (8 + j))) ++ [afe 0x84, afe 0x88, afe 0xC0] ++
      [some (supStatus s), some (fabStatus s), some (pairStatus s), some s.alm.countA, some s.alm.countB]
  else if e.kind = 0x02 then
    (List.range 8).map (fun j => some (accViewOf s (e.source.setWidth 16) j)) ++
      [some (callStatus s), some (placeStatus s), some (fabStatus s), some (fabView s)]
  else if e.kind = 0x03 then
    (List.range 7).map (fun j => some (rosViewOf s e.source j)) ++
      [some (callStatus s), some (placeStatus s), some (fabStatus s), some (pbStatus s 0), some (pbStatus s 1)]
  else if e.kind = 0x10 then (blockAddrs e.source.toNat).map (peek s)
  else [some (supStatus s), some (sysStatus s), some (fabStatus s), some (pairStatus s), some (logStatus s),
    some (wd s.rcd.queue.length)]

/-! The record (Table 16.1). -/

def maskOf (l : List (Option Word)) : Nat := (l.zipIdx).foldl (fun n x => if x.1.isSome then n + 2 ^ x.2 else n) 0

/-- The 31 words before the CRC. -/
def recBody (s : State) (e : Event) : List Word :=
  let caps := captures s e
  let late := s.clock - e.queuedAt > 1000000
  let stamp := wd (s.store.powerCycles.toNat * 2 ^ 8 + e.sev.toNat * 2 ^ 6) ||| bit e.synced 5 ||| bit late 4
  [s.rcd.index.next, s.store.opSeconds, stamp, wd (e.kind.toNat + e.cause.toNat * 2 ^ 8 + maskOf caps * 2 ^ 16), e.source,
   e.ft.setWidth 32, (e.ft >>> 32).setWidth 32] ++
  (e.data ++ List.replicate 8 0).take 8 ++ (caps.map (fun (c : Option Word) => c.getD 0) ++ List.replicate 16 0).take 16

def recWords (s : State) (e : Event) : List Word :=
  let b := recBody s e
  b ++ [crc32 (wordsBytes b)]

/-! The log (R396, R400 to R402). -/

def recSeq (r : LogRec) : Word := r.words.headD 0
def recSev (r : LogRec) : Nat := fld (r.words.getD 2 0) 6 2

/-- Order of a record, counted from the oldest (R400, R404). -/
def recOrder (x : LogIndex) (r : LogRec) : Nat := (recSeq r - x.oldest).toNat

/-- The earlier of two slots. -/
def earlier (x : LogIndex) (a b : Nat × LogRec) : Nat × LogRec := if recOrder x b.2 < recOrder x a.2 then b else a

def oldestOf (x : LogIndex) (l : List (Nat × LogRec)) : Option (Nat × LogRec) :=
  match l with | [] => none | a :: r => some (r.foldl (earlier x) a)

/-- The slot a record of severity sev overwrites in a full log (R400). -/
def victim (x : LogIndex) (l : List (Nat × LogRec)) (sev : Nat) : Option (Nat × LogRec) :=
  let bad := l.filter (fun p => p.2.bad)
  if !bad.isEmpty then oldestOf x bad
  else
    let m := l.foldl (fun n p => min n (recSev p.2)) 3
    if m ≤ sev then oldestOf x (l.filter (fun p => recSev p.2 = m)) else none

/-- Count a record of a severity in or out of the index. -/
def indexCount (sev : Nat) (f : Nat → Nat) (x : LogIndex) : LogIndex :=
  if sev = 0 then { x with sev0 := f x.sev0 } else if sev = 1 then { x with sev1 := f x.sev1 }
  else if sev = 2 then { x with sev2 := f x.sev2 } else { x with sev3 := f x.sev3 }

def indexOut (r : LogRec) (x : LogIndex) : LogIndex :=
  if r.bad then { x with corrupt := x.corrupt - 1 } else indexCount (recSev r) (fun n => n - 1) x

/-- Store a record in a slot. -/
def storeAt (slot : Nat) (r : LogRec) (out : Option LogRec) (s : State) : State :=
  let slots := tabPut s.rcd.slots slot r
  let x := s.rcd.index
  let x := match out with | some o => indexOut o x | none => { x with fill := x.fill + 1 }
  let x := indexCount (recSev r) (fun n => n + 1) x
  let x := { x with oldest := match oldestOf x slots with | some o => recSeq o.2 | none => x.oldest }
  bump aLOG_WRITTEN (rcdMod (fun c => { c with slots := slots, index := x }) s)

/-- Offer a record to the log: it takes the next number, and goes to the next empty slot, over another, or nowhere (R396, R400). -/
def writeRecord (e : Event) (s : State) : State :=
  let r : LogRec := { words := recWords s e }
  let x := s.rcd.index
  let first := x.fill = 0
  let s := rcdMod (fun c => { c with index := { x with next := x.next + 1, closed := false, oldest := if first then x.next else x.oldest } }) s
  if x.fill < 16384 then storeAt x.fill r none s
  else match victim x s.rcd.slots (recSev r) with
    | some v => s |> storeAt v.1 r (some v.2) |> bump aLOG_OVERWRITTEN |> latch aLOG_EVENT 0
    | none => s |> bump aLOG_DROPPED |> latch aLOG_EVENT 1

/-- An event as it stands now, for a record that does not pass through the queue. -/
def eventNow (s : State) (kind cause : BitVec 8) (sev : BitVec 2) (src : Word) (data : List Word) : Event :=
  ⟨kind, cause, sev, src, s.fab.synced, fabUs s, data, s.clock⟩

/-- A block record straight into the log, ahead of the queue (R20, R51, R54). -/
def logBlock (sev : BitVec 2) (base rsqAddr : Nat) (vals : List Word) (s : State) : State :=
  writeRecord (eventNow s 0x10 (blockOf base) sev (wd base) (rsqAfter s rsqAddr :: vals)) s

/-- The LOST record (R20). -/
def lostEvent (s : State) : Event := eventNow s 0x04 0 2 (ownSource s) [wd (min s.rcd.lostSince 0xFFFFFFFF)]

/-- RECORDER_TAKE_EVENT (R395): a LOST record where events were lost, then the START record, then the queue (R20, R403). -/
def effRecorderTakeEvent (s : State) : State :=
  let r := s.rcd
  if !r.running || r.rebuilding then s
  else if r.lostSince ≠ 0 then
    let e := lostEvent s
    writeRecord e { s with rcd := { s.rcd with lostSince := 0 }, sup := { s.sup with evqOwed := 0 } }
  else match r.startDue with
    | some e => writeRecord e (rcdMod (fun c => { c with startDue := none }) s)
    | none =>
      match r.queue with
      | [] => s
      | e :: q => writeRecord e (rcdMod (fun c => { c with queue := q }) s)
def execRecorderTakeEvent (s : State) : Out := done (effRecorderTakeEvent s)

/-- Write all that waits: the queue is emptied (R67 step 8, R422 step 4). -/
def drainQueue (s : State) : State := (List.range (s.rcd.queue.length + 2)).foldl (fun t _ => effRecorderTakeEvent t) s

/-- The close marker (R402); the recorder takes nothing further. -/
def closeLog (s : State) : State :=
  rcdMod (fun c => { c with running := false, index := { c.index with closed := true } }) s

/-! Rebuild (R403). -/

def rebuilt (l : List (Nat × LogRec)) (x : LogIndex) : LogIndex :=
  let good := l.filter (fun p => !p.2.bad)
  let n := fun k => (good.filter (fun p => recSev p.2 = k)).length
  let old := match oldestOf x l with | some o => recSeq o.2 | none => x.next
  let top := l.foldl (fun (m : Nat) p => max m ((recSeq p.2 - old).toNat + 1)) 0
  { x with oldest := old, fill := l.length, sev0 := n 0, sev1 := n 1, sev2 := n 2, sev3 := n 3,
           corrupt := (l.filter (fun p => p.2.bad)).length, next := old + wd (max top (x.next - old).toNat) }

/-- A record is valid while its CRC matches and no word of it is uncorrectable (R395, R401). -/
def checkRec (r : LogRec) : LogRec := { r with bad := r.bad || crc32 (wordsBytes (r.words.take 31)) ≠ r.words.getD 31 0 }

def effLogIndexRebuild (s : State) : State :=
  if !s.rcd.rebuilding then s
  else
    let l := s.rcd.slots.map (fun p => (p.1, checkRec p.2))
    let s := rcdMod (fun c => { c with rebuilding := false, slots := l, index := rebuilt l c.index }) s
    latch aLOG_EVENT 4 (whenS (l.any (fun p => p.2.bad)) (latch aLOG_EVENT 3) s)
def execLogIndexRebuild (s : State) : Out := done (effLogIndexRebuild s)

/-! The window (R404). -/

/-- Stored records at or after a number, in order, with the corrupt ones among them. -/
def recordsFrom (s : State) (n : Word) : List LogRec :=
  let x := s.rcd.index
  let k := (n - x.oldest).toNat
  sortBy (fun a b => recOrder x a < recOrder x b) ((s.rcd.slots.map (fun p => p.2)).filter (fun r => recOrder x r ≥ k))

def effLogSelWrite (v : Word) (s : State) : State := rcdMod (fun c => { c with sel := v, winBusy := true }) s
def execLogSelWrite (value : Word) (s : State) : Out := done (effLogSelWrite value s)

def effLogWindowLoaded (s : State) : State :=
  if !s.rcd.winBusy then s
  else
    let l := recordsFrom s s.rcd.sel
    let skip := (l.takeWhile (fun r => r.bad)).length
    match l.find? (fun r => !r.bad) with
    | some r => rcdMod (fun c => { c with winBusy := false, winValid := true, winExact := recSeq r = c.sel,
                                          winSkipped := BitVec.ofNat 16 (min skip 65535), win := r.words }) s
    | none => rcdMod (fun c => { c with winBusy := false, winValid := false, winExact := false,
                                        winSkipped := BitVec.ofNat 16 (min skip 65535), win := [] }) s
def execLogWindowLoaded (s : State) : Out := done (effLogWindowLoaded s)

/-- What LOG_READ returns: up to n valid records from a number onward, and the corrupt ones passed over (R412). -/
def logTake (s : State) (first : Word) (n : Nat) : List LogRec × Nat :=
  (recordsFrom s first).foldl (fun acc r =>
    if acc.1.length ≥ n then acc else if r.bad then (acc.1, acc.2 + 1) else (acc.1 ++ [r], acc.2)) ([], 0)

end Sys2Proof.Machine
end

