-- ==== Sys2Proof/Machine/Sha512.lean ====
section
/-! DEFINITION. Machine/Sha512.lean: SHA-512 (FIPS 180-4), by which KEY_ID names a public key (R88). -/
namespace Sys2Proof.Machine

/-- The primes of the constants: 2 to 409. -/
def shaPrimes : List Nat := (List.range 410).filter (fun n => n ≥ 2 && (List.range n).all (fun d => d < 2 || n % d ≠ 0))

/-- The largest x below hi with x^e at most n, from lo upward by bisection. -/
def rootGo (fuel e n lo hi : Nat) : Nat :=
  match fuel with
  | 0 => lo
  | f + 1 => let m := (lo + hi) / 2; if m ^ e ≤ n then rootGo f e n m hi else rootGo f e n lo m

/-- The first 64 bits of the fractional part of the e-th root of p. -/
def rootFrac (e p : Nat) : BitVec 64 := BitVec.ofNat 64 (rootGo 70 e (p * 2 ^ (64 * e)) 0 (2 ^ 69))

/-- Round constants: cube roots of the first 80 primes. Initial hash: square roots of the first eight. -/
def shaK : List (BitVec 64) := shaPrimes.map (rootFrac 3)
def shaInit : List (BitVec 64) := (shaPrimes.take 8).map (rootFrac 2)

def shaS0 (x : BitVec 64) : BitVec 64 := x.rotateRight 28 ^^^ x.rotateRight 34 ^^^ x.rotateRight 39
def shaS1 (x : BitVec 64) : BitVec 64 := x.rotateRight 14 ^^^ x.rotateRight 18 ^^^ x.rotateRight 41
def shaT0 (x : BitVec 64) : BitVec 64 := x.rotateRight 1 ^^^ x.rotateRight 8 ^^^ (x >>> 7)
def shaT1 (x : BitVec 64) : BitVec 64 := x.rotateRight 19 ^^^ x.rotateRight 61 ^^^ (x >>> 6)

/-- The message schedule, the latest word first. -/
def shaSched (fuel : Nat) (w : List (BitVec 64)) : List (BitVec 64) :=
  match fuel with
  | 0 => w
  | f + 1 =>
    shaSched f ((shaT1 (w.getD 1 0) + w.getD 6 0 + shaT0 (w.getD 14 0) + w.getD 15 0) :: w)

/-- One round: the eight working variables, a to h. -/
def shaRound (v : List (BitVec 64)) (kw : BitVec 64 × BitVec 64) : List (BitVec 64) :=
  match v with
  | [a, b, c, d, e, f, g, h] =>
    let t1 := h + shaS1 e + ((e &&& f) ^^^ (~~~e &&& g)) + kw.1 + kw.2
    let t2 := shaS0 a + ((a &&& b) ^^^ (a &&& c) ^^^ (b &&& c))
    [t1 + t2, a, b, c, d + t1, e, f, g]
  | _ => v

def beNat (l : List Byte) : Nat := l.foldl (fun n b => n * 256 + b.toNat) 0

/-- One block of 128 bytes. -/
def shaBlock (h : List (BitVec 64)) (blk : List Byte) : List (BitVec 64) :=
  let w := (List.range 16).map (fun i => BitVec.ofNat 64 (beNat ((blk.drop (8 * i)).take 8)))
  let ws := (shaSched 64 w.reverse).reverse
  List.zipWith (fun a b => a + b) h ((shaK.zip ws).foldl shaRound h)

def shaBlocks (fuel : Nat) (h : List (BitVec 64)) (l : List Byte) : List (BitVec 64) :=
  match fuel with
  | 0 => h
  | f + 1 => if l.isEmpty then h else shaBlocks f (shaBlock h (l.take 128)) (l.drop 128)

/-- The padded message. -/
def shaPad (l : List Byte) : List Byte :=
  let n := l.length
  let z := (239 - n % 128) % 128
  l ++ [(0x80 : Byte)] ++ List.replicate z 0 ++ (leBytes 16 (8 * n)).reverse

/-- The digest as eight words. -/
def sha512 (l : List Byte) : List (BitVec 64) :=
  let p := shaPad l
  shaBlocks (p.length / 128) shaInit p

/-- KEY_ID (R88): the first eight bytes of the digest of a public key, as a number read big-endian. -/
def keyId (key : List Byte) : BitVec 64 := (sha512 key).headD 0

end Sys2Proof.Machine
end

