-- ==== Sys2Proof/Machine/Ed25519.lean ====
section
/-! DEFINITION. Machine/Ed25519.lean: the verification of an Ed25519 signature in its pure form, as RFC 8032, which the spec names and
does not restate, defines it (R90, R413, R421). PRESUMED: the curve and the encodings come from that standard (log entry 39). -/
namespace Sys2Proof.Machine

/-- The field prime, and the order of the base point. -/
def edP : Nat := 2 ^ 255 - 19
def edL : Nat := 2 ^ 252 + 27742317777372353535851937790883648493

/-- b^e times acc modulo the prime; `fuel` is the number of bits of e. -/
def edPowGo (fuel b e acc : Nat) : Nat :=
  match fuel with
  | 0 => acc
  | f + 1 => edPowGo f (b * b % edP) (e / 2) (if e % 2 = 1 then acc * b % edP else acc)

def edPow (b e : Nat) : Nat := edPowGo 256 b e 1
def edInv (x : Nat) : Nat := edPow x (edP - 2)
def edNeg (x : Nat) : Nat := (edP - x % edP) % edP
def edSub (x y : Nat) : Nat := (x + edNeg y) % edP

/-- The constant d of the curve −x² + y² = 1 + d x² y², and a square root of −1. -/
def edD : Nat := edNeg 121665 * edInv 121666 % edP
def edI : Nat := edPow 2 ((edP - 1) / 4)

/-- A point in extended coordinates: x = X/Z, y = Y/Z, xy = T/Z. -/
structure EdPoint where
  x : Nat
  y : Nat
  z : Nat
  t : Nat
  deriving DecidableEq, Repr

def edZero : EdPoint := ⟨0, 1, 1, 0⟩

def edAdd (p q : EdPoint) : EdPoint :=
  let a := edSub p.y p.x * edSub q.y q.x % edP
  let b := (p.y + p.x) * (q.y + q.x) % edP
  let c := 2 * p.t * q.t * edD % edP
  let d := 2 * p.z * q.z % edP
  let e := edSub b a
  let f := edSub d c
  let g := (d + c) % edP
  let h := (b + a) % edP
  ⟨e * f % edP, g * h % edP, f * g % edP, e * h % edP⟩

/-- n times a point, added to acc. -/
def edMulGo (fuel n : Nat) (p acc : EdPoint) : EdPoint :=
  match fuel with
  | 0 => acc
  | f + 1 => edMulGo f (n / 2) (edAdd p p) (if n % 2 = 1 then edAdd acc p else acc)

def edMul (n : Nat) (p : EdPoint) : EdPoint := edMulGo 256 n p edZero

/-- The same point. -/
def edSame (p q : EdPoint) : Bool := p.x * q.z % edP = q.x * p.z % edP && p.y * q.z % edP = q.y * p.z % edP

/-- The root of u/v, if there is one. -/
def edRoot (u v : Nat) : Option Nat :=
  let v3 := v * v % edP * v % edP
  let x := u * v3 % edP * edPow (u * (v3 * v3 % edP * v % edP) % edP) ((edP - 5) / 8) % edP
  let w := v * (x * x % edP) % edP
  if w = u % edP then some x else if w = edNeg u then some (x * edI % edP) else none

/-- The point that 32 bytes encode: y, with the parity of x in the top bit. -/
def edDecode (n : Nat) : Option EdPoint :=
  let y := n % 2 ^ 255
  let odd := n / 2 ^ 255
  if y ≥ edP then none
  else
    let yy := y * y % edP
    match edRoot (edSub yy 1) ((edD * yy + 1) % edP) with
    | none => none
    | some x =>
      if x = 0 && odd = 1 then none
      else
        let x := if x % 2 = odd then x else edNeg x
        some ⟨x, y, 1, x * y % edP⟩

/-- The base point: y = 4/5, x even. -/
def edBase : EdPoint := (edDecode (4 * edInv 5 % edP)).getD edZero


/-- The bytes of a digest. -/
def shaBytes (l : List Byte) : List Byte := (sha512 l).flatMap (fun w => (leBytes 8 w.toNat).reverse)

/-- The signature of 64 bytes over the message verifies under the public key of 32 bytes. -/
def edVerify (key msg sig : List Byte) : Bool :=
  let r := sig.take 32
  let s := leNat ((sig.drop 32).take 32)
  match edDecode (leNat r), edDecode (leNat (key.take 32)) with
  | some p, some a =>
    let k := leNat (shaBytes (r ++ key.take 32 ++ msg)) % edL
    sig.length = 64 && decide (s < edL) && edSame (edMul 8 (edMul s edBase)) (edMul 8 (edAdd p (edMul k a)))
  | _, _ => false

end Sys2Proof.Machine
end

