-- ==== Sys2Proof/Machine/Flacon.lean ====
section
/-! DEFINITION. Machine/Flacon.lean: the read of the Flacon (R84 to R90) and the content checks (R92 to R98, R106, R192, R296). -/
namespace Sys2Proof.Machine

/-! Bytes. -/

/-- A little-endian field of n bytes at an offset. -/
def fU (b : List Byte) (off n : Nat) : Nat := leNat ((b.drop off).take n)

/-- What the flash shows from an offset on; bytes of the device that were never written read 0xFF. -/
def flashAt (d : List Byte) (off n : Nat) : List Byte :=
  let x := (d.drop off).take n
  x ++ List.replicate (n - x.length) 0xFF

def allZero (b : List Byte) : Bool := b.all (fun x => x = 0)
def asciiOnly (b : List Byte) : Bool := b.all (fun x => x.toNat < 0x80)

/-- The list of words of a section part. -/
def fWords (b : List Byte) (off n : Nat) : List Word := (List.range n).map (fun i => wd (fU b (off + 4 * i) 4))

/-! The header (Table 4.2) and the section table (Table 4.3). -/

/-- Reason and DETAIL of a failed check. -/
abbrev FlFail := BitVec 8 × BitVec 16

/-- The first failed check of the header, in the order of R84 step 2. `slots` are the key slots, `ver` the running version. -/
def headerFail (h : List Byte) (slots : List (List Byte)) (ver : Word) : Option FlFail :=
  let n := fU h 0x0C 2
  let l := fU h 0x08 4
  if h.take 4 ≠ [0x46, 0x4C, 0x43, 0x4E] then some (4, 0)
  else if fU h 4 2 ≠ 1 then some (5, 0)
  else if (crc32 (h.take 0x3C)).toNat ≠ fU h 0x3C 4 then some (4, 0)
  else if fU h 0x0E 2 ≠ 0 || !allZero ((h.drop 0x24).take 24) then some (4, 0)
  else if l % 4 ≠ 0 || l < 0x40 + 16 * n || l > 16777152 then some (4, 0)
  else if n < 9 || n > 32 then some (6, 0)
  else if !slots.any (fun k => !allZero k && (keyId k).toNat = kidBE h) then some (8, 0)
  else if ver.toNat < fU h 0x20 4 then some (10, 0)
  else none
where
  /-- KEY_ID, its first byte the most significant, as the digest is written. -/
  kidBE (h : List Byte) : Nat := beNat ((h.drop 0x18).take 8)

/-- The fields before SECT_COUNT hold: the header's identity can be shown. -/
def headerKnown (f : Option FlFail) : Bool :=
  match f with | none => true | some x => x.1 = 6 || x.1 = 8 || x.1 = 10

/-- One entry of the section table. -/
structure Sect where
  type : Nat
  flags : Nat
  off : Nat
  len : Nat
  crc : Word
  deriving DecidableEq, Repr

def sectAt (d : List Byte) (i : Nat) : Sect :=
  let b := flashAt d (0x40 + 16 * i) 16
  ⟨fU b 0 2, fU b 2 2, fU b 4 4, fU b 8 4, wd (fU b 12 4)⟩

def knownType (t : Nat) : Bool := 1 ≤ t && t ≤ 9

/-- An entry's range, alignment, reserved flags and type (R89, first). -/
def sectBad (n l : Nat) (x : Sect) : Bool :=
  x.off < 0x40 + 16 * n || x.off + x.len > l || x.off % 4 ≠ 0 || x.len % 4 ≠ 0 || x.flags / 2 ≠ 0 ||
    (!knownType x.type && x.flags % 2 = 0)

/-- Insert in offset order. -/
def sectInsert (x : Sect) (l : List Sect) : List Sect :=
  match l with | [] => [x] | y :: r => if x.off < y.off then x :: y :: r else y :: sectInsert x r

def byOffset (l : List Sect) : List Sect := l.foldl (fun acc x => sectInsert x acc) []

/-- The first section, by offset, that begins before an earlier one ends. -/
def overlapIn (l : List Sect) (end_ : Nat) : Option Nat :=
  match l with
  | [] => none
  | x :: r => if x.off < end_ then some x.type else overlapIn r (max end_ (x.off + x.len))

/-- The first type of Table 4.4 that an entry repeats. -/
def repeated (l : List Sect) (seen : List Nat) : Option Nat :=
  match l with
  | [] => none
  | x :: r => if knownType x.type && seen.contains x.type then some x.type else repeated r (x.type :: seen)

/-- The section that BAD_TABLE names, by the four checks of R89. -/
def tableFail (n l : Nat) (t : List Sect) : Option Nat :=
  match t.find? (sectBad n l) with
  | some x => some x.type
  | none =>
    match overlapIn (byOffset t) 0 with
    | some k => some k
    | none =>
      match repeated t [] with
      | some k => some k
      | none => ((List.range 9).map (fun i => i + 1)).find? (fun k => !t.any (fun x => x.type = k))

/-! The sections (Tables 4.5 to 4.11). Each reader gives nothing where the section's own checks fail. -/

def checked {α : Type} (ok : Bool) (x : α) : Option α := if ok then some x else none

/-- What the node section gives. -/
structure NodeSect where
  zone : Nat
  station : Nat
  pref : Nat
  name : List Byte
  ports : Nat
  border : Nat
  r1 : Nat
  r2 : Nat
  w1 : Nat
  w2 : Nat
  slots : Nat
  subs : List Sub

def rateBad (r : Nat) : Bool := r % 4 = 3 || r / 8 ≠ 0

def subBad (e : Nat) : Bool :=
  e / 2 ^ 42 ≠ 0 || e / 2 ^ 28 % 16 ≠ 0 || e / 2 ^ 32 % 1024 < 112 || e / 2 ^ 18 % 1024 > 111

def subOf (e : Nat) : Sub := ⟨BitVec.ofNat 10 (e / 2 ^ 32), BitVec.ofNat 10 (e / 2 ^ 18), BitVec.ofNat 18 e⟩

/-- R92. Bytes of NODE_NAME after its first 0x00 are taken as they are (DESIGN CHOICE, log entry 41). -/
def readNode (b : List Byte) : Option NodeSect :=
  let k := fU b 0x1E 2
  let es := (List.range (min k 912)).map (fun i => fU b (64 + 8 * i) 8)
  let x : NodeSect := ⟨fU b 0 1, fU b 1 1, fU b 2 2, (b.drop 4).take 16, fU b 0x14 2, fU b 0x16 1, fU b 0x18 1, fU b 0x19 1,
                       fU b 0x1A 1, fU b 0x1B 1, fU b 0x1C 2, es.map subOf⟩
  checked (k ≤ 912 && b.length = 64 + 8 * k && x.zone ≤ 63 && x.station ≤ 63 && (x.pref ≤ 4095 || x.pref = 0xFFFF) &&
    asciiOnly x.name && x.ports < 512 && x.border ≤ 1 && fU b 0x17 1 = 0 && !rateBad x.r1 && !rateBad x.r2 &&
    (1 ≤ x.w1 && x.w1 ≤ 60) && (1 ≤ x.w2 && x.w2 ≤ 60) && x.slots ≤ 512 && allZero ((b.drop 0x20).take 32) &&
    es.all (fun e => !subBad e)) x

/-! The channels section (R93). -/

/-- A word has bits outside a mask: reserved bits that are not 0. -/
def outside (mask v : Word) : Bool := v &&& ~~~mask ≠ 0

/-- The sixteen words of one channel hold a reserved encoding (Tables 5.13 to 5.16 and 6.14). -/
def aiBad (w : List Word) : Bool :=
  let g := fun (i : Nat) => w.getD i 0
  let t := typeOf (g 0)
  outside 0x3FFF (g 0) || cfgWordBad (g 0) || outside 0xC3FF (g 1) || excWordBad t (g 1) || outside 7 (g 2) || rateWordBad (g 2) ||
    outside 0xFFFF0FFF (g 3) || cjWordBad t (g 3) || limitsBad (g 6) (g 7) || leadBad t (wiresOf (g 0)) (g 8) ||
    outside 0xFFFF0003 (g 9) || healthWordBad t (g 9) || outside 0xF (g 10) || health2WordBad (g 10) ||
    (w.drop 11).any (fun v => v ≠ 0)

/-- The eight words of one repeat output (Table 7.8). -/
def arBad (w : List Word) : Bool :=
  outside 0x13F (w.getD 0 0) || outside 0xFFFF (w.getD 3 0) || (w.drop 4).any (fun v => v ≠ 0)

/-- The four words of one input and of one output (Tables 7.11 and 7.13). -/
def diBad (w : List Word) : Bool :=
  outside 0xFFC7 (w.getD 0 0) || diCfgBad (w.getD 0 0) || (w.drop 1).any (fun v => v ≠ 0)
def doBad (w : List Word) : Bool :=
  outside 0x1F (w.getD 0 0) || doCfgBad (w.getD 0 0) || outside 0x7F (w.getD 1 0) || doFixBad (w.getD 1 0) ||
    (w.drop 2).any (fun v => v ≠ 0)

def aiWords (b : List Byte) (n : Nat) : List Word := fWords b (64 * n) 16
def arWords (b : List Byte) (k : Nat) : List Word := fWords b (0x1000 + 32 * k) 8
def diWords (b : List Byte) (k : Nat) : List Word := fWords b (0x1100 + 16 * k) 4
def doWords (b : List Byte) (k : Nat) : List Word := fWords b (0x1300 + 16 * k) 4

/-- Words put under rising register addresses. -/
def atAddrs (base : Nat) (w : List Word) : Tab Word := w.zipIdx.map (fun x => (base + 4 * x.2, x.1))

/-- The configuration words of the section by register address (Table 4.7). -/
def chanRegs (b : List Byte) : Tab Word :=
  (List.range 64).flatMap (fun n => atAddrs (0x040000 + n * 0x100) ((aiWords b n).take 11)) ++
  (List.range 8).flatMap (fun k => atAddrs (0x050000 + k * 0x40) ((arWords b k).take 4)) ++
  (List.range 32).flatMap (fun k => atAddrs (0x060000 + k * 0x20) ((diWords b k).take 1)) ++
  (List.range 16).flatMap (fun k => atAddrs (0x060400 + k * 0x40) ((doWords b k).take 2))

def readChannels (b : List Byte) : Option (Tab Word) :=
  checked (b.length = 5120 && (List.range 64).all (fun n => !aiBad (aiWords b n)) && (List.range 8).all (fun k => !arBad (arWords b k)) &&
    (List.range 32).all (fun k => !diBad (diWords b k)) && (List.range 16).all (fun k => !doBad (doWords b k))) (chanRegs b)

/-! Alarm points (R94, R192). -/

/-- The alarm-point record that sixteen words give, as the checks of Tables 8.2 to 8.5 see it. -/
def pointOfWords (w : List Word) : Point :=
  let g := fun (i : Nat) => w.getD i 0
  { cfg := g 0, link := g 1, block := g 2, roster := g 3, sp := g 4, hyst := g 5, onDelay := g 6, offDelay := g 7 }

def recordBad (w : List Word) : Bool :=
  let g := fun (i : Nat) => w.getD i 0
  pointReserved (pointOfWords w) || outside 0xFFFFE3FF (g 1) || outside 0x9FFFFFFF (g 2) || outside 0x7FFFF (g 6) ||
    outside 0x7FFFF (g 7) || (w.drop 8).any (fun v => v ≠ 0)

/-- Distinct Accords that DEVIATION points name. -/
def deviationIds (l : List (Nat × List Word)) : List Nat :=
  distinct ((l.filter (fun x => pCondition (pointOfWords x.2) = 6)).map (fun x => (pAccord (pointOfWords x.2)).toNat))

/-- The records in the order of the section: local index and words. -/
def readPoints (b : List Byte) : Option (List (Nat × List Word)) :=
  let n := fU b 0 4
  let l := (List.range (min n 4096)).map (fun i => (fU b (4 + 68 * i) 2, fWords b (8 + 68 * i) 16))
  checked (n ≤ 4096 && b.length = 4 + 68 * n && l.all (fun x => x.1 ≤ 4095 && !recordBad x.2) &&
    (List.range (min n 4096)).all (fun i => fU b (6 + 68 * i) 2 = 0) && (deviationIds l).length ≤ 256) l

/-! Accords and rosters (R95, R296). -/

def accordBad (a : AccordRec) : Bool :=
  a.groupDelay > 360000 || outside 3 a.flags || (a.summary ≠ 0xFFFFFFFF && outside 0x3FFFFF a.summary) ||
    a.members.any (outside 0x3FFFFFFF)

def readAccordsGo (n : Nat) (b : List Byte) : Option (List AccordRec) :=
  match n with
  | 0 => if b.isEmpty then some [] else none
  | k + 1 =>
    let m := fU b 2 2
    let a : AccordRec := ⟨BitVec.ofNat 16 (fU b 0 2), fU b 4 4, wd (fU b 8 4), wd (fU b 12 4), wd (fU b 16 4), wd (fU b 20 4), fWords b 24 m⟩
    if b.length < 24 + 4 * m || m = 0 || m > 256 || accordBad a then none
    else (readAccordsGo k (b.drop (24 + 4 * m))).map (fun r => a :: r)

def readAccords (b : List Byte) : Option (List AccordRec) :=
  if b.length < 4 || fU b 0 4 > b.length then none else readAccordsGo (fU b 0 4) (b.drop 4)

def engAt (b : List Byte) (off : Nat) : Engineer := ⟨(b.drop off).take 8, wd (fU b (off + 8) 4), wd (fU b (off + 12) 4)⟩

def engBad (e : Engineer) : Bool := !asciiOnly e.name || outside 0x1FFFFFF e.cabin || outside 1 e.flags

def rosterBad (r : RosterRec) : Bool :=
  r.id = 0 || r.id.toNat > 65535 || r.t1 < 10 || r.t1 > 3600 || r.t2 < 10 || r.t2 > 3600 || r.patrolWarn < 60 || r.patrolWarn > 7200 ||
    r.patrolCall ≤ r.patrolWarn || r.patrolCall > 7200 || (r.pubs ++ r.bridges).any (outside 0x1FFFFFF) || r.engineers.any engBad

def readRostersGo (n : Nat) (b : List Byte) : Option (List RosterRec) :=
  match n with
  | 0 => if b.isEmpty then some [] else none
  | k + 1 =>
    let ne := fU b 4 1
    let np := fU b 5 1
    let nb := fU b 6 1
    let eo := 20 + 4 * (np + nb)
    let len := eo + 16 * ne
    let r : RosterRec := ⟨wd (fU b 0 4), fU b 8 2, fU b 10 2, fU b 12 2, fU b 14 2, wd (fU b 16 4), fWords b 20 np,
                          fWords b (20 + 4 * np) nb, (List.range ne).map (fun i => engAt b (eo + 16 * i))⟩
    if b.length < len || ne = 0 || ne > 32 || np > 8 || nb = 0 || nb > 4 || fU b 7 1 ≠ 0 || rosterBad r then none
    else (readRostersGo k (b.drop len)).map (fun x => r :: x)

def readRosters (b : List Byte) : Option (List RosterRec) :=
  if b.length < 4 || fU b 0 4 > b.length then none else readRostersGo (fU b 0 4) (b.drop 4)

/-! The panel map (R96). -/

/-- The message codes of Table 10.3. -/
def msgCodes : List Nat := [0x0001, 0x0002, 0x0003, 0x0004, 0x0010, 0x0011, 0x0020, 0x0101, 0x0102, 0x0103]

def panelBad (b : List Byte) (o : Nat) : Bool :=
  let port := fU b o 1
  let kind := fU b (o + 2) 1
  port = 0 || port > 2 || fU b (o + 1) 1 > 63 || kind = 0 || kind > 5 || fU b (o + 3) 1 ≠ 0 || fU b (o + 4) 2 = 0 || fU b (o + 6) 2 ≠ 0

def panelAt (b : List Byte) (o : Nat) : PanelRec :=
  ⟨Fin.ofNat 2 (fU b o 1 - 1), Fin.ofNat 64 (fU b (o + 1) 1), BitVec.ofNat 8 (fU b (o + 2) 1), BitVec.ofNat 16 (fU b (o + 4) 2)⟩

def msgBad (b : List Byte) (o : Nat) : Bool :=
  let w := fU b o 4
  let port := fU b (o + 6) 1
  let panel := fU b (o + 7) 1
  w / 2 ^ 30 ≠ 0 || (w / 2 ^ 29 % 2 = 0 && w % 2 ^ 29 > 0x7FF) || !msgCodes.contains (fU b (o + 4) 2) || port = 0 || port > 2 ||
    (panel > 63 && panel ≠ 0xFF)

def msgAt (b : List Byte) (o : Nat) : MsgRec :=
  let w := fU b o 4
  let panel := fU b (o + 7) 1
  ⟨BitVec.ofNat 29 w, w / 2 ^ 29 % 2 = 1, BitVec.ofNat 16 (fU b (o + 4) 2), Fin.ofNat 2 (fU b (o + 6) 1 - 1),
   if panel = 0xFF then none else some (Fin.ofNat 64 panel)⟩

def readPanels (b : List Byte) : Option (List PanelRec × List MsgRec) :=
  let np := fU b 0 2
  let nm := fU b 2 2
  let ps := (List.range (min np 128)).map (fun i => 4 + 8 * i)
  let ms := if b.length = 4 + 8 * (np + nm) then (List.range nm).map (fun i => 4 + 8 * (np + i)) else []
  checked (np ≤ 128 && b.length = 4 + 8 * (np + nm) && ps.all (fun o => !panelBad b o) && ms.all (fun o => !msgBad b o))
    (ps.map (panelAt b), ms.map (msgAt b))

/-! Waveform table, placement key and guarded defaults (R97, R98, Table 4.11). -/

def readWave (b : List Byte) : Option (Tab Word) :=
  checked (b.length = 2048) ((fWords b 0 512).zipIdx.filterMap (fun x => if x.1 = 0 then none else some (x.2, x.1)))

def readKey (b : List Byte) : Option (BitVec 64 × BitVec 64) :=
  checked (b.length = 32 && allZero (b.drop 16)) (BitVec.ofNat 64 (fU b 0 8), BitVec.ofNat 64 (fU b 8 8))

/-- A PIN of eight BCD digits, those past its length 0. -/
def pinBad (pin len : Nat) : Bool :=
  (List.range 8).any (fun i => pin / 16 ^ i % 16 > 9 || (i ≥ len && pin / 16 ^ i % 16 ≠ 0))

def readGuarded (b : List Byte) : Option Guarded :=
  let g : Guarded := ⟨b.take 16, BitVec.ofNat 8 (fU b 0x10 1), BitVec.ofNat 8 (fU b 0x11 1), BitVec.ofNat 8 (fU b 0x12 1), wd (fU b 0x14 4)⟩
  checked (b.length = 32 && (b.take 16).all (fun x => x.toNat ≤ 2) && g.rolePref.toNat ≤ 2 && g.lockPolicy.toNat ≤ 2 &&
    4 ≤ g.pinLen.toNat && g.pinLen.toNat ≤ 8 && fU b 0x13 1 = 0 && allZero (b.drop 0x18) && !pinBad g.pin.toNat g.pinLen.toNat) g

/-! The content checks in order (R106). -/

/-- The references of the rosters that name this node have a panel record. -/
def refsOk (n : NodeSect) (rs : List RosterRec) (ps : List PanelRec) : Bool :=
  let me := n.zone * 4096 + n.pref
  n.pref = 0xFFFF || rs.all (fun r => (r.pubs ++ r.bridges ++ r.engineers.map (fun e => e.cabin)).all (fun x =>
    fld x 0 18 ≠ me || ps.any (fun p => p.port.val = fld x 18 1 && p.panel.val = fld x 19 6)))

/-- Accord and roster records with the distinct page sets of the panel map (R296). -/
def entryCount (a : List AccordRec) (r : List RosterRec) (p : List PanelRec) : Nat :=
  a.length + r.length + (distinct (p.map (fun x => x.set))).length

/-- The configuration words by register address, with the fail states of the guarded defaults (R102, R183). -/
def withFails (regs : Tab Word) (fails : List Byte) : Tab Word :=
  fails.zipIdx.foldl (fun t x => tabPut t (0x060410 + x.2 * 0x40) (x.1.setWidth 32)) regs

/-- A check that relates two sections is made where both could be read. -/
def related {α β : Type} (x : Option α) (y : Option β) (f : α → β → Bool) : Bool :=
  match x, y with | some a, some b => f a b | _, _ => true

/-- The configuration, with the waveform table; or the section that CONTENT names: the first, in ascending type, whose checks fail. -/
def readContent (sec : Nat → List Byte) : (Cfg × Tab Word) ⊕ Nat :=
  let n := readNode (sec 1)
  let p := readPanels (sec 6)
  let a := readAccords (sec 4)
  let r := readRosters (sec 5)
  match n with
  | none => .inr 1
  | some n =>
  if !related a r (fun a r => related p (some ()) (fun p _ => entryCount a r p.1 ≤ 1024)) then .inr 1 else
  match readChannels (sec 2) with
  | none => .inr 2
  | some regs =>
  match readPoints (sec 3) with
  | none => .inr 3
  | some pts =>
  match a with
  | none => .inr 4
  | some a =>
  if !related r (some ()) (fun r _ => a.all (fun x => r.any (fun y => y.id = x.roster))) then .inr 4 else
  match r with
  | none => .inr 5
  | some r =>
  if !related p (some ()) (fun p _ => refsOk n r p.1) then .inr 5 else
  match p with
  | none => .inr 6
  | some p =>
  match readWave (sec 7) with
  | none => .inr 7
  | some w =>
  match readKey (sec 8) with
  | none => .inr 8
  | some k =>
  match readGuarded (sec 9) with
  | none => .inr 9
  | some g =>
  if g.rolePref ≠ 0 && n.ports / 64 % 2 = 0 then .inr 9 else
  .inl ({ zone := BitVec.ofNat 6 n.zone, station := BitVec.ofNat 6 n.station, memberPref := BitVec.ofNat 16 n.pref, nodeName := n.name,
          portEnable := BitVec.ofNat 16 n.ports, border := n.border = 1, c1Rate := BitVec.ofNat 8 n.r1, c2Rate := BitVec.ofNat 8 n.r2,
          c1Wait := BitVec.ofNat 8 n.w1, c2Wait := BitVec.ofNat 8 n.w2, slots := n.slots, subs := n.subs, regs := withFails regs g.doFail,
          points := pts.foldl (fun t x => tabPut t x.1 (x.2.take 8)) [], accords := a, rosters := r, panels := p.1, msgs := p.2,
          k0 := k.1, k1 := k.2, guarded := g }, w)

/-- Local indexes that two records give (undefined case 7). -/
def dupIndexes (sec3 : List Byte) : List Nat :=
  let l := (List.range (fU sec3 0 4)).map (fun i => fU sec3 (4 + 68 * i) 2)
  distinct (l.filter (fun i => l.count i > 1))

/-- Ports with one identifier twice in the same format (undefined case 6). -/
def dupIdents (l : List MsgRec) : List (Fin 2) :=
  distinct ((l.filter (fun m => l.countP (fun x => x.port = m.port && x.ext = m.ext && x.ident = m.ident) > 1)).map (fun m => m.port))

/-! The whole read (R84, Table 4.14). -/

/-- What a read gives: reason and DETAIL; CONFIG_ID, CONFIG_ISSUE and TOTAL_LEN where the header shows them; the configuration of a
good Flacon with its waveform table; and what it leaves undefined. -/
structure FlRead where
  fail : Option FlFail
  shown : Option (Word × Word × Word) := none
  good : Option (Cfg × Tab Word) := none
  dups : List Nat := []

/-- The section of a type. -/
def sectOf (d : List Byte) (t : List Sect) (k : Nat) : List Byte :=
  match t.find? (fun x => x.type = k) with | some x => flashAt d x.off x.len | none => []

/-- The signature at offset L over the digest of bytes 0 to L − 1, under the key of the slot that KEY_ID names (R84 step 4, R90). -/
def signatureOk (d : List Byte) (slots : List (List Byte)) : Bool :=
  let h := flashAt d 0 64
  let l := fU h 8 4
  match slots.find? (fun k => !allZero k && (keyId k).toNat = headerFail.kidBE h) with
  | some k => edVerify k (shaBytes (flashAt d 0 l)) (flashAt d l 64)
  | none => false

/-- Steps 6 to 9 on a device that answers. `removed`: presence was lost before the verdict, while the read still ran. -/
def readFlacon (jedec : BitVec 24) (d : List Byte) (slots : List (List Byte)) (ver : Word) (removed : Bool) : FlRead :=
  if jedec = 0 || jedec = 0xFFFFFF then ⟨some (3, 0), none, none, []⟩
  else
    let h := flashAt d 0 64
    let hf := headerFail h slots ver
    let shown := if headerKnown hf then some (wd (fU h 0x10 4), wd (fU h 0x14 4), wd (fU h 8 4)) else none
    if removed then ⟨some (2, 0), shown, none, []⟩
    else match hf with
      | some f => ⟨some f, shown, none, []⟩
      | none =>
        let n := fU h 0x0C 2
        let t := (List.range n).map (sectAt d)
        match tableFail n (fU h 8 4) t with
        | some k => ⟨some (6, BitVec.ofNat 16 k), shown, none, []⟩
        | none =>
          match (byOffset t).find? (fun x => crc32 (flashAt d x.off x.len) ≠ x.crc) with
          | some x => ⟨some (7, BitVec.ofNat 16 x.type), shown, none, []⟩
          | none =>
            if !signatureOk d slots then ⟨some (9, 0), shown, none, []⟩
            else match readContent (sectOf d t) with
              | .inr k => ⟨some (11, BitVec.ofNat 16 k), shown, none, []⟩
              | .inl c =>
                let cfg := { c.1 with id := wd (fU h 0x10 4), issue := wd (fU h 0x14 4), minFw := wd (fU h 0x20 4) }
                ⟨none, shown, some (cfg, c.2), dupIndexes (sectOf d t 3)⟩

end Sys2Proof.Machine
end

