-- ==== Sys2Proof/Machine/ResetOps.lean ====
section
/-! DEFINITION. Machine/ResetOps.lean: a reset of the node, and the causes of chapter 1 and of R51 and R54 that bring one. -/
namespace Sys2Proof.Machine

def sysMod (f : SysSt → SysSt) (s : State) : State := { s with sys := f s.sys }

/-! What outlives a reset: the supervisor, the time island, the save store, the Flacon and the plugs in their sockets, and the
fixatives, which the field supplies feed (R79, R180). -/

/-- The fixative and the switch of an output through a reset: limit and shutdown act in the switch itself (R174). -/
def keepDo (d : DoSt) : DoSt :=
  { fix := d.fix, fixState := d.fixState, holdFrom := d.holdFrom, holdLen := d.holdLen, holdEnd := d.holdEnd,
    limit := d.limit && d.fix = .hold, tsd := d.tsd, tsdLatched := d.tsdLatched, latchTsd := d.latchTsd }

/-- Counters of the time island, which is not reset (R79). -/
def timeCounter (a : Nat) : Bool := a = aTIME_STEP_COUNT || a = aTALM_COUNT 0 || a = aTALM_COUNT 1

/-- The node in reset: every other field at its reset value; the time block keeps what an undefined case left unspecified. -/
def afterReset (s : State) : State :=
  { pending := s.pending, clock := s.clock, fresh := s.fresh, unspec := s.unspec.filter timeAddr,
    serial := s.serial, hwIssue := s.hwIssue,
    rsq := s.rsq.filter (fun p => p.1 = aTIME_EVENT), ctr := s.ctr.filter (fun p => timeCounter p.1),
    tim := s.tim, sup := { s.sup with pairUnit := isPair s || s.sup.pairUnit }, store := s.store,
    sys := { starts := s.sys.starts, resetCause := s.sys.resetCause, wdSource := s.sys.wdSource },
    rcd := { slots := s.rcd.slots, index := s.rcd.index },
    flacon := { present := s.flacon.present, jedec := s.flacon.jedec, bytes := s.flacon.bytes },
    afe := { blks := s.afe.blks.map (fun b => { plug := b.plug }) },
    io := { dos := s.io.dos.map keepDo },
    disp := { temp := s.disp.temp, band := s.disp.band, tempOut := s.disp.tempOut } }

/-- The entries of the event queue are lost with main SRAM; the supervisor keeps their number until EVQ_LOST has it and a LOST record
has reported it (R20). -/
def keepQueue (s : State) : State :=
  { s with sup := { s.sup with evqKept := s.sup.evqKept + s.rcd.queue.length, evqOwed := s.sup.evqOwed + s.rcd.queue.length } }

/-- The islands go into reset and stay there (R67 step 12, R72). -/
def holdReset (s : State) : State := sysMod (fun x => { x with phase := .held }) (afterReset (keepQueue s))

/-- A reset of the node with its cause (Table 2.11): the outputs freeze in their fixatives, OWN is released, and the start
follows after 1 ms. During Drydown the reset ends Drydown, and the islands wait for the restart condition (R72). -/
def nodeReset (cause wd_ : BitVec 8) (s : State) : State :=
  if s.sys.phase = .held then s
  else
    let s := freezeAll s
    let dry := s.sys.phase = .drydown
    let s := if dry then { s with sup := { s.sup with prior := .abandoned, ddCause := some cause, ddAt := none,
                                                      busEnd := BitVec.ofNat 12 (s.sup.busV.toNat / 10),
                                                      ddPanel := if (Sys2Proof.Machine.running s).isEmpty then s.sup.ddPanel else 3 } }
             else { s with sup := { s.sup with prior := .none } }
    let s := sysMod (fun x => { x with resetCause := cause, wdSource := wd_ }) s
    if dry then holdReset s
    else sysMod (fun x => { x with phase := .released, releasedAt := s.clock + 1000000 }) (afterReset (keepQueue s))

/-! Lockstep, partitions and clocks (R16, R26, R30). -/

def effLockstepFailure (s : State) : State := nodeReset 4 0 s
def execLockstepFailure (s : State) : Out := done (effLockstepFailure s)

/-- The partition that a plane's window may reach (R30). -/
def ownArea (w : Plane) (a : SramArea) : Bool :=
  match w, a with
  | .control, .control => true | .data, .data => true | .management, .management => true
  | _, .meeting => true | _, _ => false

/-- PARTITION_VIOLATION (R30): an access outside the window's partition and the meeting area is a lockstep failure. -/
def effPartitionViolation (w : Plane) (a : SramArea) (s : State) : State := if ownArea w a then s else nodeReset 4 0 s
def execPartitionViolation (window : Plane) (area : SramArea) (s : State) : Out := done (effPartitionViolation window area s)

/-- CLOCK_FAILURE (R26): every crystal-derived clock resets the node but that of the time island; the supervisor runs from its
own RC clock. -/
def effClockFailure (isl : Island) (s : State) : State :=
  match isl with
  | .time => effCrystalStop true s
  | .supervisor => s
  | _ => nodeReset 5 0 s
def execClockFailure (isl : Island) (s : State) : Out := done (effClockFailure isl s)

/-! The watchdog (R27). -/

/-- The image runs: from step 4 of the start sequence until Drydown step 12. -/
def imageRuns (s : State) : Bool :=
  s.sys.phase = .safeIdle || s.sys.phase = .live || s.sys.phase = .running || s.sys.phase = .drydown

/-- A firmware channel is armed while the image runs, in recovery the management channel alone; the engine's while the engine runs
cycles, on an active unit and on a standby that evaluates. -/
def wdArmed (s : State) (ch : WdChannel) : Bool :=
  match ch with
  | .engine => s.alm.running && s.sys.phase = .running
  | .management => imageRuns s || s.sys.phase = .recovery
  | _ => imageRuns s

def wdMod (ch : WdChannel) (f : Wd → Wd) (s : State) : State :=
  match ch with
  | .control => sysMod (fun x => { x with wdControl := f x.wdControl }) s
  | .data => sysMod (fun x => { x with wdData := f x.wdData }) s
  | .management => sysMod (fun x => { x with wdMgmt := f x.wdMgmt }) s
  | .engine => sysMod (fun x => { x with wdEngine := f x.wdEngine }) s

/-- WATCHDOG_SERVICE: a firmware channel is served by the value last written plus 1, the engine's by the end of a cycle. -/
def effWatchdogService (ch : WdChannel) (v : BitVec 16) (s : State) : State :=
  wdMod ch (fun w => if ch = .engine || v = w.last + 1 then { last := v, servedAt := s.clock } else { w with last := v }) s
def execWatchdogService (ch : WdChannel) (value : BitVec 16) (s : State) : Out := done (effWatchdogService ch value s)

def wdCode (ch : WdChannel) : BitVec 8 := match ch with | .control => 1 | .data => 2 | .management => 3 | .engine => 4

/-- WATCHDOG_EXPIRY: an armed channel's 20 ms have passed without a service. -/
def effWatchdogExpiry (ch : WdChannel) (s : State) : State := if wdArmed s ch then nodeReset 3 (wdCode ch) s else s
def execWatchdogExpiry (ch : WdChannel) (s : State) : Out := done (effWatchdogExpiry ch s)

/-! Vote failures (R51). -/

/-- The latched event register of the instance that a block record names. -/
def rsqOf (base : Nat) : Nat :=
  match base / 0x10000 with
  | 0x04 => base + 0x9C | 0x06 => base + 0x1C | 0x07 => aALM_EVENT | 0x0A => aFAB_EVENT | 0x0C => aPAIR_EVENT | _ => aSYS_EVENT

/-- VOTE_FAIL_RESET: the record goes straight into the log, and the reset follows. -/
def effVoteFailReset (s : State) : State :=
  match s.sys.voteFail with
  | none => s
  | some f => nodeReset 7 0 (logBlock 3 f.base.toNat (rsqOf f.base.toNat) [f.at_, f.copies.a, f.copies.b, f.copies.c] s)
def execVoteFailReset (s : State) : Out := done (effVoteFailReset s)

/-- Base of the memory and ECC block; it has no latched event register of its own, and its events latch in SYS_EVENT. -/
def aECC_BASE : Nat := 0x100000

/-- ECC_UNCORR_RESET (Table 2.12, main SRAM). -/
def effEccUncorrReset (s : State) : State :=
  match s.sys.eccReset with
  | none => s
  | some _ => nodeReset 6 0 (logBlock 3 aECC_BASE aSYS_EVENT [] s)
def execEccUncorrReset (s : State) : Out := done (effEccUncorrReset s)

/-! Memory protection (R52 to R54). -/

/-- A record of the memory and ECC block. -/
def eccRec (sev : BitVec 2) (s : State) : State := blockRec sev aECC_BASE aSYS_EVENT [] s

def storeMod (f : StoreSt → StoreSt) (s : State) : State := { s with store := f s.store }

/-- A settings record put to its default (Table 2.12, R101): the trims of a channel, TIME_TRIM, DISP_VCOM, the member numbers, the
guarded class, the persistent counts, the markers and stress counts of the display, and the log's index, which the recorder rebuilds;
the keys and the bank record are no settings (R91, R415). The Flacon gives the guarded class; for the others it gives no default, and they
take the value of a new node (log entry 43). -/
def defaultSetting (n : Nat) (s : State) : State :=
  if n < 64 then storeMod (fun x => { x with cal := tabDel x.cal n }) s
  else match n with
    | 64 => timMod (fun t => { t with trim := 0 }) (storeMod (fun x => { x with trim := 0 }) s)
    | 65 => storeMod (fun x => { x with vcom := 150 }) s
    | 66 => storeMod (fun x => { x with savedNum := none }) s
    | 67 => storeMod (fun x => { x with guarded := if s.cfg.live then some s.cfg.guarded else none }) s
    | 68 => storeMod (fun x => { x with savedStandby := none }) s
    | 69 => storeMod (fun x => { x with powerCycles := 0 }) s
    | 70 => storeMod (fun x => { x with opSeconds := 0 }) s
    | 71 => storeMod (fun x => { x with rideLast := 0 }) s
    | 72 => storeMod (fun x => { x with ddLast := 0 }) s
    | 73 => storeMod (fun x => { x with evqLost := 0 }) s
    | 74 => storeMod (fun x => { x with stress := [] }) s
    | 75 => storeMod (fun x => { x with markers := [] }) s
    | 76 => storeMod (fun x => { x with ageFull := 1000000 }) s
    | 77 => storeMod (fun x => { x with rollbacks := 0 }) s
    | 78 => storeMod (fun x => { x with bankA := { x.bankA with cycles := 0 } }) s
    | 79 => storeMod (fun x => { x with bankB := { x.bankB with cycles := 0 } }) s
    | 80 => rcdMod (fun c => { c with index := {}, rebuilding := c.rebuilding || c.running }) s
    | 81 => storeMod (fun x => { x with lastVer := none }) s
    | _ => s

/-- A log slot with an uncorrectable word is corrupt (R401). -/
def corruptSlot (k : Nat) (s : State) : State :=
  match tabLook s.rcd.slots k with
  | none => s
  | some r =>
    if r.bad then s
    else
      let x := indexOut r s.rcd.index
      latch aLOG_EVENT 3
        (rcdMod (fun c => { c with slots := tabPut c.slots k { r with bad := true }, index := { x with corrupt := x.corrupt + 1 } }) s)

/-- What an uncorrectable word does in its memory (Table 2.12). -/
def uncorrAct (m : Fin 8) (w : Nat) (s : State) : State :=
  match m with
  | 0 => sysMod (fun x => { x with eccReset := some (BitVec.ofNat 24 w) }) s
  | 1 => eccRec 2 (sysMod (fun x => { x with memUncorr := true }) (pointSet (w / 16) { pointGet s (w / 16) with memFault := true } s))
  | 2 => corruptSlot (w / 32) s
  | 3 =>
    let s := sysMod (fun x => { x with memUncorr := true }) s
    eccRec 1 (if w < 0x20000 then storeMod (fun x => { x with ckptA := none }) s else storeMod (fun x => { x with ckptB := none }) s)
  | 4 => eccRec 1 (sysMod (fun x => { x with memUncorr := true }) (defaultSetting (Config.settingsRecord w) s))
  | 5 => eccRec 0 (request fullRect s)
  | 6 => eccRec 1 (dispMod (fun d => { d with wave := d.waveCopy }) s)
  | 7 => eccRec 1 (timMod (fun t => { t with backup := [] }) s)

def eccLastSet (m : Fin 8) (sym w : Nat) (s : State) : State :=
  sysMod (fun x => { x with eccLast := x.eccLast.set m (wd (sym * 2 ^ 28 + w)) }) s

/-- A pass ends: SCRUB_PASS counts it, and SCRUB_BEHIND clears (R53). -/
def endPass (m : Fin 8) (s : State) : State :=
  bump (aECC m 0xC) (sysMod (fun x => { x with scrubBehind := x.scrubBehind.set m false }) s)

/-- One word of an alarm-point record put in as stored, with no effect of a write through the window. -/
def storePointWord (p : Point) (j : Nat) (v : Word) : Point :=
  match j with
  | 0 => { p with cfg := v } | 1 => { p with link := v } | 2 => { p with block := v } | 3 => { p with roster := v }
  | 4 => { p with sp := v } | 5 => { p with hyst := v } | 6 => { p with onDelay := v } | 7 => { p with offDelay := v }
  | _ => withRuntime p ((runtimeOf p).set (j - 8) v)

/-- The corrected word is written back (R53). The spec lays out four memories word by word: the alarm points, the log, the waveform
table and the backup memory. The others are held here field by field, and what they hold stands as corrected (log entry 115). -/
def writeBack (m : Fin 8) (w : Nat) (v : Word) (s : State) : State :=
  match m with
  | 1 =>
    match tabLook s.alm.points (w / 16) with
    | some p => pointSet (w / 16) (storePointWord p (w % 16) v) s
    | none => s
  | 2 =>
    match tabLook s.rcd.slots (w / 32) with
    | some r => rcdMod (fun c => { c with slots := tabPut c.slots (w / 32) { r with words := r.words.set (w % 32) v } }) s
    | none => s
  | 6 => if w < 512 then dispMod (fun d => { d with wave := tabSet 0 d.wave w v }) s else s
  | 7 => if w < 16 then timMod (fun t => { t with backup := tabSet 0 t.backup w v }) s else s
  | _ => s

/-- SCRUB_READ (R52 to R54). A client write that lands between the read and the write-back leaves its own word standing. -/
def effScrubRead (m : Fin 8) (word : BitVec 24) (data : Word) (check : BitVec 12) (clientWrite : Bool) (passEnds : Bool) (s : State) : State :=
  let s := match eccRead data check with
    | .clean => s
    | .fixed i v => s |> eccLastSet m i word.toNat |> bump (aECC m 0) |> latch aSYS_EVENT 4 |> whenS (!clientWrite) (writeBack m word.toNat v)
    | .uncorrectable => s |> eccLastSet m 15 word.toNat |> bump (aECC m 4) |> latch aSYS_EVENT 5 |> uncorrAct m word.toNat
  whenS passEnds (endPass m) s
def execScrubRead (m : Fin 8) (word : BitVec 24) (data : Word) (check : BitVec 12) (clientWrite : Bool) (passEnds : Bool) (s : State) : Out :=
  done (effScrubRead m word data check clientWrite passEnds s)

def effScrubBehind (m : Fin 8) (s : State) : State := sysMod (fun x => { x with scrubBehind := x.scrubBehind.set m true }) s
def execScrubBehind (m : Fin 8) (s : State) : Out := done (effScrubBehind m s)

end Sys2Proof.Machine
end

