-- ==== Sys2Proof/Machine/SysRows.lean ====
section
/-! DEFINITION. Machine/SysRows.lean: latched events, the lock, the snapshot, the checkpoint of each second, and the Flacon in its socket
(R20, R29, R42 to R49, R70, R76, R83 to R86). -/
namespace Sys2Proof.Machine

/-! Latched event registers (R42, R43). -/

/-- Every latched event register of the map. -/
def isRsq (a : Nat) : Bool :=
  if a / 0x10000 = 0x04 then a % 0x10000 < 0x4000 && (a % 0x100 = 0x9C || a % 0x100 = 0xC4)
  else if a / 0x10000 = 0x05 then a % 0x10000 < 0x200 && a % 0x40 = 0x30
  else if a / 0x10000 = 0x06 then (a % 0x10000 < 0x400 && a % 0x20 = 0x14) || (0x400 ≤ a % 0x10000 && a % 0x10000 < 0x800 && a % 0x40 = 0x1C)
  else [0x010004, 0x020004, 0x030018, 0x070004, 0x080004, 0x090008, 0x090108, 0x0A0004, 0x0B0004, 0x0C0004, 0x0D0004, 0x0E0004,
        0x0F0004].contains a

def rsqMod (a : Nat) (f : Rsq → Rsq) (s : State) : State := { s with rsq := tabMod {} s.rsq a f }

/-- EVENT_REGISTER_LATCH: the end of a 1 ms frame. -/
def effEventRegisterLatch (s : State) : State := { s with rsq := s.rsq.map (fun p => (p.1, rsqLatch p.2)) }
def execEventRegisterLatch (s : State) : Out := done (effEventRegisterLatch s)

/-- RSQ_CLEAR_WRITE: an event that arrives on the same cycle is applied first (R43). -/
def effRsqClearWrite (a : Nat) (v : Word) (coincident : Bool) (s : State) : State :=
  if isRsq a then rsqMod a (rsqClear v) (whenS coincident (rsqMod a rsqLatch) s) else s
def execRsqClearWrite (addr : BitVec 24) (value : Word) (coincident : Bool) (s : State) : Out :=
  done (effRsqClearWrite addr.toNat value coincident s)

/-! The lock (R48, R49). -/

def setLock (s : State) : State := sysMod (fun x => { x with lock := true }) s

/-- SYS_LOCK: writing 1 to LK sets the lock, writing 0 does nothing. -/
def effLockSet (v : Word) (s : State) : State := whenS (v.getLsbD 0) setLock s
def execLockSet (value : Word) (s : State) : Out := done (effLockSet value s)

/-- LOCK_POLICY_TIMER: 600 s after end of start under policy 0b10. -/
def effLockPolicyTimer (s : State) : State := whenS (s.sys.policy = 2) setLock s
def execLockPolicyTimer (s : State) : Out := done (effLockPolicyTimer s)

/-! The snapshot (R22, R45 to R47). -/

def snapMod (f : SnapSt → SnapSt) (s : State) : State := sysMod (fun x => { x with snap := f x.snap }) s

/-- The delay to each island's capture cycle: at most 2,000 ns, and not stated more closely; the time island's is the core island's. -/
def snapDelays (s : State) : List Word :=
  (List.range 9).map (fun i => wd ((Config.freeWord (s.fresh + (if i = 6 then 0 else i))).toNat % 2001))

/-- The picture that the strobe captures: every counter, by source address. -/
def snapCapture (s : State) : SnapPic :=
  { num := s.sys.snap.num + 1, cycles := BitVec.ofNat 64 ((s.clock - s.sys.releasedAt) / 10), delays := snapDelays s,
    entries := counterAddrs.map (fun a => (islandOf a, BitVec.ofNat 24 a, counterValue s a)) }

/-- A snapshot command (R45): it captures and starts the copy, or is ignored, counted and latched while BUSY is 1. -/
def effSnapshotStart (s : State) : State :=
  if s.sys.snap.busy then s |> bump aSYS_SNAP_OVERRUN |> latch aSYS_EVENT 7
  else drawn 9 (snapMod (fun n => { n with busy := true, aborted := false, late := false, work := snapCapture s }) s)
def execSnapshotStart (s : State) : Out := done (effSnapshotStart s)

/-- The copy completes. -/
def effSnapshotComplete (s : State) : State :=
  if s.sys.snap.busy then
    snapMod (fun n => { n with busy := false, num := n.num + 1, hold := { n.work with valid := true }, work := {} }) s
  else s
def execSnapshotComplete (s : State) : Out := done (effSnapshotComplete s)

/-- ABORT (R47): on the cycle of the completion the completion stands. -/
def effSnapshotAbort (coincident : Bool) (s : State) : State :=
  if !s.sys.snap.busy then s
  else if coincident then s |> effSnapshotComplete |> snapMod (fun n => { n with late := true }) |> latch aSYS_EVENT 6
  else snapMod (fun n => { n with busy := false, aborted := true, work := {}, hold := { n.hold with valid := false, entries := [] } }) s
def execSnapshotAbort (coincident : Bool) (s : State) : Out := done (effSnapshotAbort coincident s)

/-! Images and their checkpoint formats (Table 17.4, R425). -/

def bankMod (b : Bool) (f : Bank → Bank) (s : State) : State :=
  storeMod (fun x => if b then { x with bankB := f x.bankB } else { x with bankA := f x.bankA }) s

/-- A block as flash shows it: bytes not programmed read 0xFF. -/
def flashBlock (l : List Byte) : List Byte := (l ++ List.replicate 4096 0xFF).take 4096

def bankBlock (b : Bank) (k : Nat) : List Byte :=
  flashBlock (if b.factory then Config.factoryBlock k else tabGet [] b.blocks k)

/-- A little-endian field of a block. -/
def blockField (l : List Byte) (off n : Nat) : Nat := leNat ((l.drop off).take n)

def tableCrcOk (b0 : List Byte) : Bool := (crc32 (b0.take 0x3C ++ b0.drop 0x80)).toNat = blockField b0 0x3C 4

def blocksOk (b : Bank) (b0 : List Byte) (n : Nat) : Bool :=
  (List.range (n - 1)).all (fun i => (crc32 (bankBlock b (i + 1))).toNat = blockField b0 (0x80 + 4 * i) 4)

/-- The check that the boot ROM makes of a bank (R415): TABLE_CRC and BLOCK_CRC. The delivered image passes it. -/
def imageChecks (b : Bank) : Bool :=
  b.factory || (tableCrcOk (bankBlock b 0) && blocksOk b (bankBlock b 0) (min (blockField (bankBlock b 0) 8 2) 993))

/-! The save store's checkpoint (R29, R70). -/

/-- Slot B holds the latest checkpoint. -/
def latestIsB (s : State) : Bool :=
  match s.store.ckptA, s.store.ckptB with
  | some a, some b => a.gen.toNat < b.gen.toNat
  | none, some _ => true
  | _, none => false

/-- The valid slot with the higher generation. -/
def latestCkpt (s : State) : Option StoreCkpt := if latestIsB s then s.store.ckptB else s.store.ckptA

/-- What a checkpoint saves; a unit without OWN saves its self-test state, and nothing of the active's state (R74). -/
def ckptNow (s : State) : StoreCkpt :=
  let g : Word := match latestCkpt s with | some c => c.gen + 1 | none => 1
  let own := isActiveUnit s
  { gen := g, fmt := (runFmt s).1, cfgId := s.cfg.id, cfgIssue := s.cfg.issue, points := if own then s.alm.points else [],
    accords := if own then s.call.accords else [], rosters := if own then s.call.rosters else [],
    panels := if own then s.pb.panels else [],
    selfTest := if own then none else some ⟨s.pair.health, s.pair.calMiss, s.pair.calFail, s.pair.diagCnt⟩ }

/-- A checkpoint goes to the slot that does not hold the latest. -/
def putCkpt (c : StoreCkpt) (s : State) : State :=
  if !latestIsB s && s.store.ckptA.isSome then storeMod (fun x => { x with ckptB := some c }) s
  else storeMod (fun x => { x with ckptA := some c }) s

def writeCkpt (s : State) : State := putCkpt (ckptNow s) s

/-- CHECKPOINT_SECOND: past end of start. -/
def effCheckpointSecond (s : State) : State := if isRunning s && !s.afe.pause then writeCkpt s else s
def execCheckpointSecond (s : State) : Out := done (effCheckpointSecond s)

/-- OP_SECONDS_TICK (R76): while the islands are released; the count wraps. -/
def effOpSecondsTick (s : State) : State := if s.sys.phase = .held then s else storeMod (fun x => { x with opSeconds := x.opSeconds + 1 }) s
def execOpSecondsTick (s : State) : Out := done (effOpSecondsTick s)

/-! The Flacon in its socket (R83 to R86). -/

/-- FLACON_REMOVED: a record of severity 1 after end of start (R86). -/
def effFlaconRemoved (s : State) : State :=
  if !s.flacon.present then s
  else
    let s := latch aSYS_EVENT 1 { s with flacon := { s.flacon with present := false } }
    whenS (isRunning s) (blockRec 1 0x010000 aSYS_EVENT []) s
def execFlaconRemoved (s : State) : Out := done (effFlaconRemoved s)

/-- FLACON_INSERTED: both contacts have been closed for 20 ms (R83); a running node does not read the plug (R85). -/
def effFlaconInserted (jedec : BitVec 24) (bytes : List Byte) (s : State) : State :=
  { s with flacon := { s.flacon with present := true, jedec := jedec, bytes := bytes } }
def execFlaconInserted (jedec : BitVec 24) (bytes : List Byte) (s : State) : Out := done (effFlaconInserted jedec bytes s)

end Sys2Proof.Machine
end

