-- ==== Sys2Proof/Machine/Supply.lean ====
section
/-! DEFINITION. Machine/Supply.lean: the mains, ride-through, Drydown, the restart and the field supplies (R58 to R77). -/
namespace Sys2Proof.Machine

def aSUP : Nat := 0x020000

def supMod (f : SupSt → SupSt) (s : State) : State := { s with sup := f s.sup }

/-- A rising edge of a monitor: its event bit and a record; with the islands in reset nothing takes them. -/
def supRise (b : Nat) (sev : BitVec 2) (vals : List Word) (s : State) : State :=
  if s.sys.phase = .held then s else s |> latch aSUP_EVENT b |> blockRec sev aSUP aSUP_EVENT vals

/-! Mains monitors (Table 3.1). Times are in ns; `since` counts from the end of the last valid half-cycle. -/

/-- MAINS_LOST. -/
def effMainsLost (since : Nat) (s : State) : State :=
  if s.sup.mainsLost then s
  else
    let s := supMod (fun x => { x with mainsLost := true, riding := true, freqValid := false, lastHalf := s.clock - since }) s
    s |> supRise 0 1 [] |> refreshTracks
def execMainsLost (since : Nat) (s : State) : Out := done (effMainsLost since s)

/-- MAINS_LOST clears; VALID returns with the next valid cycle. -/
def effMainsLostClear (s : State) : State := supMod (fun x => { x with mainsLost := false }) s
def execMainsLostClear (s : State) : Out := done (effMainsLostClear s)

/-- A filtered monitor: it changes after n consecutive cycles against its state. -/
def filtered (state cond : Bool) (cnt n : Nat) : Bool × Nat :=
  if cond = state then (state, 0) else if cnt + 1 ≥ n then (cond, 0) else (state, cnt + 1)

/-- MAINS_LOW, on every full cycle. -/
def judgeLow (rms : BitVec 16) (s : State) : State :=
  let (v, n) := filtered s.sup.mainsLow (rms.toNat < 850) s.sup.lowCnt 3
  let rise := v && !s.sup.mainsLow
  whenS rise (supRise 1 1 []) (supMod (fun x => { x with mainsLow := v, lowCnt := n, mainsV := rms }) s)

/-- The average of the last four periods, in mHz, to the nearest. -/
def mainsFreq (l : List Nat) : Nat := let t := l.sum; if t = 0 then 0 else (1000000000000 * l.length + t / 2) / t

/-- FREQ_OUT, judged on each valid cycle, and SUP_MAINS_FREQ, the average of four (R60, R61). The period is in ns. -/
def judgeFreq (period : Nat) (s : State) : State :=
  let ps := (s.sup.periods ++ [period]).drop ((s.sup.periods ++ [period]).length - 4)
  let f := mainsFreq ps
  let (v, n) := filtered s.sup.freqOut (period * 45000 > 1000000000000 || period * 66000 < 1000000000000) s.sup.freqCnt 4
  let rise := v && !s.sup.freqOut
  let s := supMod (fun x => { x with periods := ps, freqOut := v, freqCnt := n, lastHalf := if x.riding then x.lastHalf else s.clock }) s
  let s := whenS rise (supRise 2 1 []) s
  let ok := !v && !s.sup.mainsLost
  let s := supMod (fun x => { x with freqValid := ok, freq := if ok then f else x.freq }) s
  let s := if ok then { s with afe := { s.afe with freqSeen := some f } } else s
  refreshTracks s

/-- MAINS_CYCLE_END. -/
def effMainsCycleEnd (rms : BitVec 16) (valid : Bool) (period : Nat) (s : State) : State :=
  whenS valid (judgeFreq period) (judgeLow rms s)
def execMainsCycleEnd (rms : BitVec 16) (valid : Bool) (period : Nat) (s : State) : Out := done (effMainsCycleEnd rms valid period s)

/-- RIDE_THROUGH_END (R62). -/
def effRideThroughEnd (s : State) : State :=
  if !s.sup.riding || s.sys.phase = .drydown || s.sys.phase = .held then s
  else
    let ms := wd ((s.clock - s.sup.lastHalf) / 1000000)
    s |> supMod (fun x => { x with riding := false }) |> bump aSUP_RIDE_COUNT |> supRise 3 0 [ms]
def execRideThroughEnd (s : State) : Out := done (effRideThroughEnd s)

/-! Drydown (R66 to R74). -/

/-- R68: a running region of n frames still to run ends within 550 ms of the trigger at 85 frames a second, and the energy
105 µF × (Vbus² − 210²) covers 1.9 J and 0.6 W to its end. The bus is in units of 0.1 V. -/
def mayFinish (bus n : Nat) : Bool := 20 * n ≤ 935 && 8925 * (bus * bus - 4410000) ≥ 16150000000 + 60000000 * n

/-- Step 2 for the display: pending entries are discarded, and each running region finishes or stops (R68, R392). -/
def dryDisplay (bus : Nat) (s : State) : State :=
  let run := running s
  let s := supMod (fun x => { x with ddPanel := if run.isEmpty then 0 else 1 }) s
  let s := dispMod (fun d => { d with pend := [], reqs := [], cleaning := [] }) s
  eachS run (fun x t => if mayFinish bus (x.2.length - x.2.frame) then t else abortSlot true x.1 t) s

/-- Step 3: a dirty marker for each running region. -/
def dryMarkers (s : State) : State :=
  storeMod (fun x => { x with markers := distinct (x.markers ++ (running s).map (fun r => r.2.rect)) }) s

/-- A DRYDOWN_NOTICE on every two-way link, in Drydown on P too. -/
def sendNotices (onP : Bool) (s : State) : State :=
  eachS (List.finRange 7) (fun k t => whenS ((linkGet t k).twoWay || (onP && k = linkP && (linkGet t k).phyUp)) (sendLocal k
    (.drydownNotice (ownAddr t) t.serial)) t) s

/-- Step 5 on a link (R67, R292): the frame in progress and the notice of step 4 leave, the PHY stops, and what is still queued in
either direction is discarded without counting. The end of the notice comes with LINK_FRAME_END. -/
def dryLink (k : Link) (s : State) : State :=
  let l := linkGet s k
  if !l.phyUp then s
  else
    let notice := l.urgent.find? (fun q => match q.frame.body with | .drydownNotice _ _ => true | _ => false)
    let s := whenS (l.onWire.isSome && notice.isSome) (bump (aLINK k 0x10)) s
    s |> loseTwoWay k |> flushLink k false |> linkMod k (fun x => { x with
      phyUp := false, onWire := if notice.isSome then notice else l.onWire, rxUrgent := [], rxRoutine := [], rxMgmt := [], rxData := [] })

/-- What is published takes HELD (R67 step 2, R422 step 1); the entries of a standby stay OUT_OF_SERVICE (Tables 6.8 and 7.2). -/
def publishHeld (s : State) : State :=
  let s := refreshAll s
  if !isActiveUnit s then s else
  let s := eachS (List.finRange 32) (fun k t =>
    if (regGet t (aDI k 0)).getLsbD 0 then writeQuality (64 + k.val) qHELD (valGet t (64 + k.val)).value t else t) s
  eachS (List.finRange 16) (fun k t => writeQuality (96 + k.val) qHELD (valGet t (96 + k.val)).value t) s

/-- Settings and persistent counters (step 9). -/
def saveCounters (s : State) : State :=
  storeMod (fun x => { x with evqLost := ctrGet s aEVQ_LOST, stress := s.disp.stress }) s

/-- Step 8: what waits, then the DRYDOWN record, then the close marker. A rebuild that still runs is completed first (DESIGN CHOICE,
log entry 35). -/
def dryLog (bus : BitVec 16) (s : State) : State :=
  if s.rcd.running then
    let s := drainQueue (effLogIndexRebuild s)
    closeLog (writeRecord (eventNow s 0x05 0 2 (ownSource s) [bus.setWidth 32, s.store.rideLast.setWidth 32]) s)
  else s

/-- The items that run here stop, and the engine (step 6). -/
def stopPlanes (s : State) : State := placeEnd { s with alm := { s.alm with running := false } }

/-- What the steps before the commit stopped runs again (R424): live qualities, output commands, the engine, the items, the recorder. -/
def resumeNode (s : State) : State :=
  let s := { s with afe := { s.afe with pause := false } }
  if !isRunning s then s
  else
    let s := { s with alm := { s.alm with running := isActiveUnit s, tickAt := s.clock }, rcd := { s.rcd with running := true } }
    s |> refreshAll |> arUpdateAll |> eachS (List.finRange 16) fixTakeUp |> doRefreshAll |> placeBegin

/-- An activation before its commit ends (R424): the engine stays VERIFIED. -/
def cancelActivation (s : State) : State :=
  if s.upd.state = .activating then resumeNode { s with upd := { s.upd with state := .verified } } else s

/-- DRYDOWN_TRIGGER: Table 3.3 up to step 10. The save-store writes of steps 3, 7 and 9 have completed by 20 ms, at a time that the
table does not fix (`ddMs`, log entry 30). -/
def effDrydownTrigger (since : Nat) (bus : BitVec 16) (begun : BitVec 2) (s : State) : State :=
  if s.sys.phase = .drydown || s.sys.phase = .held then s
  else
    let run := isRunning s
    let s := cancelActivation s
    let s := drawn 1 (supMod (fun x => { x with busV := bus, ddAt := some s.clock, ddMs := BitVec.ofNat 10 ((free s).toNat % 21) }) s)
    let s := storeMod (fun x => { x with rideLast := BitVec.ofNat 16 (min (since / 1000000) 65535) }) s
    let s := freezeAll s
    let s := sysMod (fun x => { x with phase := .drydown }) s
    let s := whenS run publishHeld s
    let s := arUpdateAll s
    let s := dryMarkers (dryDisplay bus.toNat s)
    let c := ckptNow s
    let s := s |> sendNotices true |> pbClose 0 (begun.getLsbD 0) |> pbClose 1 (begun.getLsbD 1) |> releaseOwn
    let s := eachS (List.finRange 7) dryLink { s with fab := { s.fab with up := false } }
    let s := whenS run (putCkpt c) (stopPlanes s)
    let s := saveCounters (dryLog bus s)
    whenS ((running s).isEmpty) (dispMod (fun d => { d with railsOn := false })) s
def execDrydownTrigger (since : Nat) (bus : BitVec 16) (begun : BitVec 2) (s : State) : Out := done (effDrydownTrigger since bus begun s)

/-- DRYDOWN_GUARD: below 240 V an update that finishes stops at its next balanced boundary (R68). -/
def effDrydownGuard (bus : BitVec 16) (s : State) : State :=
  if s.sys.phase = .drydown then eachS (List.finRange 8) (abortSlot true) (supMod (fun x => { x with busV := bus }) s) else s
def execDrydownGuard (bus : BitVec 16) (s : State) : Out := done (effDrydownGuard bus s)

/-- SUP_DD_LAST (Table 3.10). -/
def ddWord (outcome : Nat) (panel : BitVec 2) (bus : BitVec 12) (ms : BitVec 10) : Word :=
  wd (outcome * 2 ^ 30 + panel.toNat * 2 ^ 28 + bus.toNat * 2 ^ 16 + ms.toNat)

/-- DRYDOWN_COMPLETE: step 12. -/
def effDrydownComplete (bus : BitVec 12) (ms : BitVec 10) (s : State) : State :=
  if s.sys.phase = .drydown then
    let s := storeMod (fun x => { x with ddLast := ddWord 1 s.sup.ddPanel bus ms }) s
    let s := supMod (fun x => { x with prior := .drydown, ddCause := none, ddAt := none, busV := BitVec.ofNat 16 (bus.toNat * 10) }) s
    bump aSUP_DD_COUNT (holdReset s)
  else s
def execDrydownComplete (bus : BitVec 12) (ms : BitVec 10) (s : State) : Out := done (effDrydownComplete bus ms s)

/-- DRYDOWN_ABANDON (R72): `saved` is the time of the last save-store write that completed. -/
def effDrydownAbandon (saved : BitVec 10) (s : State) : State :=
  if s.sys.phase = .drydown then
    let p : BitVec 2 := if (running s).isEmpty then s.sup.ddPanel else 3
    holdReset (supMod (fun x => { x with prior := .abandoned, ddCause := none, ddAt := none, busEnd := 210, ddMs := saved, ddPanel := p }) s)
  else s
def execDrydownAbandon (saved : BitVec 10) (s : State) : Out := done (effDrydownAbandon saved s)

/-- The reset cause of a start that the restart condition releases (R72, R75). -/
def restartCause (s : State) : BitVec 8 :=
  match s.sup.prior, s.sup.ddCause with
  | .drydown, _ => 2
  | _, some c => c
  | _, none => 1

/-- RESTART_RELEASE (R75): the bus has stood at 370 V or more for 100 ms. -/
def effRestartRelease (s : State) : State :=
  if s.sys.phase = .held then
    let c := restartCause s
    let s := sysMod (fun x => { x with phase := .released, resetCause := c, wdSource := if c = 3 then x.wdSource else 0, releasedAt := s.clock }) s
    supMod (fun x => { x with riding := false }) s
  else s
def execRestartRelease (s : State) : Out := done (effRestartRelease s)

/-- SUPPLY_COLLAPSE (R20, R321): every island loses its power at once, the supervisor too; without a completed Drydown its
counts are lost. A Drydown that it cuts short, or one abandoned before, is found by the next start in the save store (R72). The
fixatives hold from the last keep-alive. -/
def effSupplyCollapse (s : State) : State :=
  if s.sys.phase = .held && s.sup.prior = .drydown then s
  else
    let inDry := s.sys.phase = .drydown
    let p : BitVec 2 := if inDry && !(running s).isEmpty then 3 else s.sup.ddPanel
    let s := holdReset (freezeAll s)
    let s := sysMod (fun x => { x with starts := 0, wdSource := 0 }) s
    supMod (fun x =>
      let y : SupSt := { a := x.a, b := x.b, mainsV := x.mainsV }
      if inDry || x.prior = .abandoned then
        { y with prior := .abandoned, busEnd := if inDry then 210 else x.busEnd, ddMs := x.ddMs, ddPanel := p } else y) s
def execSupplyCollapse (s : State) : Out := done (effSupplyCollapse s)

/-! Field supplies (R77). -/

def fsBit (f : FieldSupply) (c : SupplyCond) : Bool := match c with | .absent => f.absent | .low => f.low | .high => f.high | .overCur => f.overCur

def fsPut (c : SupplyCond) (b : Bool) (f : FieldSupply) : FieldSupply :=
  match c with
  | .absent => { f with absent := b } | .low => { f with low := b } | .high => { f with high := b } | .overCur => { f with overCur := b }

def supplyGet (s : State) (x : Supply) : FieldSupply := match x with | .fsA => s.sup.a | .fsB => s.sup.b

/-- FIELD_SUPPLY_MONITOR: a status bit sets or clears after its filter. -/
def effFieldSupplyMonitor (x : Supply) (c : SupplyCond) (on : Bool) (mv ma : BitVec 16) (s : State) : State :=
  let rise := on && !fsBit (supplyGet s x) c
  let s := supplyMod x (fun f => fsPut c on { f with mv := mv, ma := ma, ms := some (s.clock / 1000000) }) s
  let s := whenS rise (supRise 4 1 []) s
  if c = .absent then
    if on then eachS (outputsOf x) fixRelease s else eachS (outputsOf x) (fun k t => fixTrack k (doRefresh k t)) s
  else s
def execFieldSupplyMonitor (sup : Supply) (cond : SupplyCond) (set : Bool) (mv : BitVec 16) (ma : BitVec 16) (s : State) : Out :=
  done (effFieldSupplyMonitor sup cond set mv ma s)

end Sys2Proof.Machine
end

