-- ==== Sys2Proof/Machine/Start.lean ====
section
/-! DEFINITION. Machine/Start.lean: the start sequence of Table 4.1, safe idle and recovery (R79, R99 to R104, R415 to R418). -/
namespace Sys2Proof.Machine

def aUPD_BASE : Nat := 0x0F0000

/-- A record of the update block. -/
def updRec (sev : BitVec 2) (vals : List Word) (s : State) : State := blockRec sev aUPD_BASE aUPD_EVENT vals s

/-- A record of the system control block. -/
def sysRec (sev : BitVec 2) (vals : List Word) (s : State) : State := blockRec sev 0x010000 aSYS_EVENT vals s

/-! Time 0: what the supervisor hands over (R20, R44, R72, R75, R76). -/

/-- The counters of the islands begin at 0, but those of the time island (R44, R79). -/
def zeroCounters (s : State) : State := { s with ctr := s.ctr.filter (fun p => timeCounter p.1) }

/-- Events lost with the queue at the reset are added to EVQ_LOST, in the register and in the save store that restores it (R405), and
wait for their LOST record, which the supervisor owes until it is written (R20). -/
def carryLost (s : State) : State :=
  let n := satAdd s.store.evqLost s.sup.evqKept
  { s with ctr := tabSet 0 s.ctr aEVQ_LOST n, store := { s.store with evqLost := n }, rcd := { s.rcd with lostSince := s.sup.evqOwed },
           sup := { s.sup with evqKept := 0 } }

/-- How the last Drydown ended (R72, R75). -/
def notePrior (s : State) : State :=
  let s := match s.sup.prior with
    | .drydown => latch aSUP_EVENT 5 s
    | .abandoned => s |> latch aSUP_EVENT 6 |> bump aSUP_DD_ABANDON |>
        storeMod (fun x => { x with ddLast := ddWord 2 s.sup.ddPanel s.sup.busEnd s.sup.ddMs })
    | _ => s
  supMod (fun x => { x with prior := .none, ddCause := none }) s

/-- SUP_POWER_CYCLES and STARTS (R76, R28). -/
def countStart (s : State) : State :=
  if s.sys.resetCause = 1 || s.sys.resetCause = 2 then
    sysMod (fun x => { x with starts := 0 })
      (storeMod (fun x => { x with powerCycles := if x.powerCycles = 0xFFFFFF then x.powerCycles else x.powerCycles + 1 }) s)
  else sysMod (fun x => { x with starts := if x.starts = 0xFF then x.starts else x.starts + 1 }) s

/-- Time 0 of Table 4.1. -/
def startZero (s : State) : State := s |> zeroCounters |> carryLost |> notePrior |> countStart

/-! Step 4: bank selection (R415). -/

/-- The settings as they stood before a trial image migrated them come back with a rollback (R418). -/
def restoreBefore (s : State) : State :=
  match s.store.before with
  | none => s
  | some b => timMod (fun t => { t with trim := b.trim })
      (storeMod (fun x =>
        { x with vers := b.vers, cal := b.cal, trim := b.trim, vcom := b.vcom, savedNum := b.savedNum, savedStandby := b.savedStandby,
                 before := none }) s)

def rollback (s : State) : State :=
  s |> storeMod (fun x => { x with rollbacks := satAdd x.rollbacks 1, trial := false }) |> restoreBefore |> latch aUPD_EVENT 4 |> updRec 2 []

/-- A bank passes its check: it holds an image whose blocks check. `bad`: banks whose flash does not read back as programmed. -/
def bankPasses (s : State) (b : Bool) (bad : BitVec 2) : Bool :=
  (bankOf s b).state ≠ .empty && !bad.getLsbD (if b then 1 else 0) && imageChecks (bankOf s b)

def setBank (b : Bool) (st : BankState) (s : State) : State := bankMod b (fun x => { x with state := st }) s

/-- A bank left LOADING becomes EMPTY. -/
def dropLoading (b : Bool) (s : State) : State :=
  if (bankOf s b).state = .loading then bankMod b (fun x => { x with state := .empty, blocks := [], factory := false }) s else s

/-- The bank to check first; a trial image past its third start has failed. -/
def trialStart (s : State) : Bool × State :=
  let b := s.store.bankSel
  if !s.store.trial then (b, s)
  else
    let s := storeMod (fun x => { x with trialStarts := x.trialStarts + 1 }) s
    if s.store.trialStarts.toNat > 3 then (!b, rollback (setBank b .failed s)) else (b, s)

/-- The bank that starts, or none: recovery. -/
def selectBank (bad : BitVec 2) (s : State) : Option Bool × State :=
  let (b, s) := trialStart s
  if bankPasses s b bad then (some b, s)
  else
    let s := setBank b .failed s
    if (bankOf s (!b)).state = .good && bankPasses s (!b) bad then (some (!b), rollback s) else (none, s)

def bootImage (bad : BitVec 2) (s : State) : Option Bool × State :=
  let (r, s) := selectBank bad s
  let s := s |> dropLoading false |> dropLoading true
  match r with
  | some b => (r, { storeMod (fun x => { x with bankSel := b }) s with upd := { s.upd with bank := b, runVer := bankVer (bankOf s b) } })
  | none => (r, { s with upd := { s.upd with bank := s.store.bankSel, runVer := 0 } })

/-! Step 5: the save store (R69, R101, R350, R407, R418). -/

/-- Settings records: the trims of 64 channels, TIME_TRIM, DISP_VCOM and the member numbers of the node and of a standby. -/
def settingsRecords : List Nat := List.range 67 ++ [68]

/-- The version field of a record; a record of the delivered image has version 1. -/
def recVersion (s : State) (n : Nat) : BitVec 16 := tabGet 1 s.store.vers n

/-- A record whose format the image does not know goes to its default, with a record of severity 1. -/
def resetSetting (n : Nat) (s : State) : State := sysRec 1 [] (defaultSetting n s)

/-- One record at the first start of an image of formats f (Table 17.4): the model holds its content in no form of its own, so that a
record of a known version only takes the new version. -/
def migrateOne (f : BitVec 16 × BitVec 16) (n : Nat) (s : State) : State :=
  let s := if recVersion s n = f.1 || recVersion s n = f.2 then s else resetSetting n s
  storeMod (fun x => { x with vers := tabSet 1 x.vers n f.1 }) s

/-- The first start of an image that differs from the one that last started (R101, R418). -/
def migrate (s : State) : State :=
  let new := match s.store.lastVer with | some v => decide (v ≠ s.upd.runVer) | none => false
  let s := if new then
      let f := runFmt s
      let old : Settings := ⟨s.store.vers, s.store.savedNum, s.store.savedStandby, s.store.cal, s.store.trim, s.store.vcom⟩
      let s := storeMod (fun x => { x with before := if x.trial && x.before.isNone then some old else x.before, guarded := none }) s
      eachS settingsRecords (migrateOne f) s
    else s
  storeMod (fun x => { x with lastVer := some s.upd.runVer }) s

/-- TIME_TRIM is loaded into a time island that lost its state (R350). -/
def loadTrim (s : State) : State :=
  timMod (fun t => { t with trim := if t.lost then s.store.trim else t.trim, lost := false }) s

/-- Regions with a dirty marker wait for their clean start, and the stress counts come back (R69, R385, R393). -/
def loadDisplay (s : State) : State :=
  let s := dispMod (fun d => { d with cleaning := s.store.markers, stress := s.store.stress }) s
  if s.store.markers.isEmpty then s else railsUp s

/-- The first candidate of RFC 3927 (R407). -/
def firstIp (s : State) : Word := wd (169 * 2 ^ 24 + 254 * 2 ^ 16 + (1 + fld s.serial 8 8 % 254) * 256 + fld s.serial 0 8)

def portUp (s : State) : State := { s with svc := { s.svc with ip := firstIp s } }

/-- A hold that ended with the output let go is latched and recorded at the next start (R184). -/
def noteHoldEnd (k : Fin 16) (s : State) : State :=
  if (dout s k).holdEnd then
    s |> doMod k (fun d => { d with holdEnd := false }) |> latch (aDO k 0x1C) 0 |> blockRec 1 (aDO k 0) (aDO k 0x1C) []
  else s

/-- Steps 2 to 5 past the boot. -/
def startStore (s : State) : State := eachS (List.finRange 16) noteHoldEnd (s |> migrate |> loadTrim |> loadDisplay |> portUp)

/-! Safe idle (R99, R102, R107). -/

/-- Show a page of the panel whole. -/
def showPage (p : FrontPage) (s : State) : State :=
  let s := dispMod (fun d => { d with page := p, alarmsDue := false, pin := none,
                                      faultSilenced := d.faultSilenced && s.sys.phase = .safeIdle }) s
  request fullRect (drawRect fullRect s)

/-- SYS_LOCK.POLICY is applied (R49). -/
def applyPolicy (p : BitVec 8) (s : State) : State :=
  let s := sysMod (fun x => { x with policy := p.setWidth 2 }) s
  whenS (p = 1) setLock s

/-- The recorder runs: on the index as saved after a close marker, else after a rebuild (R403). -/
def startRecorder (s : State) : State :=
  if s.rcd.running then s
  else flushDue (rcdMod (fun c => { c with running := true, rebuilding := !c.index.closed }) s)

/-- What the START record shows (Table 16.2). -/
def startData (s : State) : List Word := [resetCauseWord s, startStatus s, s.store.ddLast, rsqAfter s aSUP_EVENT]

/-- The START record of this start, which goes before the event queue (R403). -/
def startRecord (s : State) : State :=
  let sev : BitVec 2 := if s.flacon.reason = 0 then 0 else 2
  rcdMod (fun c => { c with startDue := some (eventNow s 0x06 s.flacon.reason sev (ownSource s) (startData s)) }) s

def setReason (f : FlFail) (s : State) : State := { s with flacon := { s.flacon with reason := f.1, detail := f.2 } }

/-- Safe idle: the outputs OFF, the fixatives released, the guarded-class records in force. `retry`: it was safe idle before. -/
def enterSafeIdle (f : FlFail) (retry : Bool) (s : State) : State :=
  let s := sysMod (fun x => { x with phase := .safeIdle }) (setReason f { s with sup := { s.sup with pairUnit := false } })
  let s := eachS (List.finRange 16) fixRelease s
  let s := arUpdateAll s
  let g := s.store.guarded.getD {}
  let s := startRecorder (applyPolicy g.lockPolicy s)
  let s := if retry then emit 0x06 f.1 2 (ownSource s) (startData s) s else startRecord s
  showPage .idle s

/-! Recovery (R417). -/

def enterRecovery (s : State) : State :=
  let s := sysMod (fun x => { x with phase := .recovery }) s
  let s := eachS (List.finRange 16) fixRelease s
  showPage .noFirmware (portUp s)

/-! Steps 9 and 10. -/

/-- Configuration live: the register words, the triplicated words and the waveform table (R93, R97, R102). -/
def loadConfig (c : Cfg) (wave : Tab Word) (s : State) : State :=
  let s := { s with cfg := { c with live := true } }
  let s := eachS c.regs (fun x t => if isTri x.1 then triSet x.1 x.2 t else regSet x.1 x.2 t) s
  let s := s |> triSet aFAB_ADDR (wd (c.zone.toNat * 2 ^ 12)) |> triSet aPAIR_ROLE (c.guarded.rolePref.setWidth 32)
  let s := dispMod (fun d => { d with wave := wave, waveCopy := wave }) s
  storeMod (fun x => { x with guarded := some c.guarded, guardedFor := (c.id, c.issue) }) s

/-- What a good Flacon can leave undefined (cases 3, 6 and 7 of Table 2.15). -/
def noteUndefined (dups : List Nat) (s : State) : State :=
  let s := whenS (!tableBalanced s.disp.wave) (undef aDISP) s
  let s := eachS (dupIdents s.cfg.msgs) (fun p => undef (aPB p 0)) s
  eachS dups (fun i => undef (pointBase i)) s

/-- A checkpoint slot that the running image and this Flacon match (R104, R425). -/
def ckptMatches (s : State) (c : StoreCkpt) : Bool :=
  fmtKnown s c.fmt && c.cfgId = s.cfg.id && c.cfgIssue = s.cfg.issue

/-- The Flacon's points with the runtime words of a checkpoint that matches (R104, R190). A point that the checkpoint holds and the Flacon
does not starts OUT_OF_SERVICE, its enable copies being 0, and keeps its occurrence number (R205, R207). -/
def restoredPoints (s : State) (c : StoreCkpt) : Tab Point :=
  c.points.foldl (fun t x =>
    let put := fun (b : Point) => { withRuntime b (runtimeOf x.2) with sounds := x.2.sounds, lastRate := x.2.lastRate }
    match tabLook t x.1 with
    | some b => tabPut t x.1 (put b)
    | none => tabPut t x.1 (takeOut (put {})).1) (freshPoints s)

/-- The checkpoint is restored, or both slots are discarded with a record (R104). An evaluator or a call manager that starts here
rebuilds (R218, R229); a roster's last call number and the panels' silence outlast the start. -/
def restoreCkpt (s : State) : State :=
  match latestCkpt s with
  | none => { s with alm := { s.alm with points := freshPoints s } }
  | some c =>
    if ckptMatches s c then
      { s with alm := { s.alm with points := restoredPoints s c },
               call := { s.call with lastNums := c.rosters.map (fun x => (x.1, x.2.st.callNum)) },
               pb := { s.pb with panels := c.panels.map (fun x => (x.1, { silenced := x.2.silenced, keySeq := x.2.keySeq })) } }
    else
      let s := storeMod (fun x => { x with ckptA := none, ckptB := none }) s
      sysRec 1 [] { s with alm := { s.alm with points := freshPoints s } }

/-- An output at end of start (R100): it goes on from its fixative's state, or is commanded OFF; with SOURCE 0b00 it is released. -/
def startOutput (k : Fin 16) (s : State) : State :=
  if doSource s k = 0 then fixRelease k s
  else if (dout s k).fix = .hold then fixTakeUp k (doMod k (fun x => { x with cmd := x.fixState, cmdAt := s.clock }) s)
  else fixTrack k (doMod k (fun x => { x with cmd := false, cmdAt := s.clock }) s)

/-- The conversion island starts every configured channel (R137, Table 4.12). -/
def startChannels (s : State) : State :=
  let s := eachS (List.finRange 64) (fun n t => if chType t n = 0 then t else restartChan n t) s
  refreshTracks s

/-- The links of the enabled ports begin hellos (R92, R262); a ZONE written before end of start replaces the Flacon's (R294). -/
def startLinks (s : State) : State :=
  let s := match s.fab.lateZone with | some z => triSet aFAB_ADDR (wd (z.toNat * 2 ^ 12)) s | none => s
  let s := { s with fab := { s.fab with up := true, lateZone := none } }
  eachS (List.finRange 7) (fun k t => if s.cfg.portEnable.getLsbD k.val then
    linkMod k (fun l => { l with enabled := true, enabledAt := s.clock }) t else t) s

/-- The fabric time begins from the real-time count (R281). -/
def startFabTime (s : State) : State :=
  let us := s.tim.sec.toNat * 1000000 + (fracNow s).toNat * 1000000 / 32768
  { s with fab := { s.fab with ftBase := us * 1000, ftAt := s.clock, ftOn := true, slew := 0 } }

/-- Every triplicated word votes without a correction (R334). -/
def triClean (s : State) : Bool := s.tri.all (fun x => triAgrees x.1 x.2)

/-- A pair member enters SELFTEST at configuration live (R324): P runs, and beats are sent and awaited (R326). -/
def beginSelftest (s : State) : State :=
  s |> pairSet (fun p => { p with state := .selftest, pathP := { p.pathP with since := s.clock }, pathF := { p.pathF with since := s.clock } })
    |> whenS (s.cfg.portEnable.getLsbD linkP.val) (linkMod linkP (fun l => { l with enabled := true, enabledAt := s.clock }))
    |> effHealthWordUpdate

/-- A pair member passes from SELFTEST to STANDBY, or to FAULTED (R324, R334). With the loop released it listens first (R325). -/
def startPair (testOk loopHeld : Bool) (s : State) : State :=
  let ok := testOk && triClean s && (voted s aPAIR_ROLE = 1 || voted s aPAIR_ROLE = 2)
  let s :=
    if ok then pairSet (fun p => { p with listening := !loopHeld, listenFrom := s.clock, loopHeld := loopHeld }) (enterStandby s)
    else eachS (List.finRange 16) fixRelease (latch aPAIR_EVENT 2 (pairSet (fun p => { p with state := .faulted, loopHeld := loopHeld }) s))
  effHealthWordUpdate s

/-- A single unit takes up its outputs, channels and alarm engine. -/
def startSingle (s : State) : State :=
  let s := eachS (List.finRange 16) startOutput s
  let s := startChannels s
  arUpdateAll { s with alm := { s.alm with running := true, tickAt := s.clock } }

/-- Step 9 with a good Flacon: configuration live. The recorder runs from here (R403), a pair member is in SELFTEST (R324), and the
fabric time counts. -/
def goLive (c : Cfg) (wave : Tab Word) (dups : List Nat) (first : Bool) (s : State) : State :=
  let s := noteUndefined dups (loadConfig c wave (setReason (0, 0) s))
  let s := startFabTime (sysMod (fun x => { x with phase := .live }) { s with sup := { s.sup with pairUnit := false } })
  let s := if first then startRecord (startRecorder s) else startRecorder s
  if isPair s then beginSelftest s else s

/-- Step 10, up to end of start. -/
def endStart (o : StartObs) (s : State) : State :=
  let s := sysMod (fun x => { x with phase := .running, endOfStart := some s.clock }) s
  let s := { s with flacon := { s.flacon with startMs := o.ms } }
  let s := restoreCkpt s
  let s := if isPair s then startPair o.testOk o.loopHeld s else startSingle s
  let s := s |> pbJoin 0 (isPair s) |> pbJoin 1 (isPair s) |> startLinks |> placeBegin
  let s := { s with upd := { s.upd with confirmAt := if s.store.trial then some (s.clock + 60000000000) else none } }
  showPage .start (applyPolicy s.cfg.guarded.lockPolicy s)

/-! Steps 6 to 10. -/

/-- The key slots as their bytes. -/
def keyBytes (s : State) : List (List Byte) := s.store.keys.toList.map (fun k => leBytes 32 k.toNat)

/-- What the header shows goes to the start registers; a configuration other than the last good one empties the guarded class (R102). -/
def noteHeader (r : FlRead) (s : State) : State :=
  match r.shown with
  | none => s
  | some (i, n, l) =>
    let s := { s with flacon := { s.flacon with cfgId := i, cfgIssue := n, len := l } }
    storeMod (fun x => { x with guarded := if x.guardedFor = (i, n) then x.guarded else none }) s

/-- Steps 6 to 10. -/
def runPlug (first : Bool) (o : StartObs) (s : State) : State :=
  if !s.flacon.present then enterSafeIdle (1, 0) (!first) s
  else
    let r := readFlacon s.flacon.jedec s.flacon.bytes (keyBytes s) s.upd.runVer o.removed
    let s := noteHeader r { s with flacon := { s.flacon with jedecReg := s.flacon.jedec, cfgId := 0, cfgIssue := 0, len := 0 } }
    let s := whenS o.removed effFlaconRemoved s
    match r.fail, r.good with
    | none, some c =>
      let s := goLive c.1 c.2 r.dups first s
      if o.stop then s else endStart o s
    | some f, _ => enterSafeIdle f (!first) s
    | none, none => s

/-- START_SEQUENCE: after the release from reset. A sequence that was stopped at configuration live goes on to end of start. -/
def effStartSequence (o : StartObs) (s : State) : State :=
  if s.sys.phase = .live then endStart o s
  else if s.sys.phase ≠ .released then s
  else
    match bootImage o.fwBad (startZero s) with
    | (some _, s) => runPlug true o (startStore s)
    | (none, s) => enterRecovery s
def execStartSequence (o : StartObs) (s : State) : Out := done (effStartSequence o s)

/-- FLACON_RETRY: in safe idle, with a plug that has been put in again (R99). -/
def effFlaconRetry (o : StartObs) (s : State) : State :=
  if s.sys.phase = .safeIdle && s.flacon.present then runPlug false o s else s
def execFlaconRetry (o : StartObs) (s : State) : Out := done (effFlaconRetry o s)

end Sys2Proof.Machine
end

