-- ==== Sys2Proof/Machine/RegsRead.lean ====
section
/-! DEFINITION. Machine/RegsRead.lean: a read of one register word, with its effects (R36, R39, R43, R50, R57, R343, R353). -/
namespace Sys2Proof.Machine

/-- The bases of the functions whose results a register shows (R57); a configuration register shows what was written. -/
def resultBase (s : State) (a : Nat) : Option Nat :=
  let o := a % 0x10000
  match a / 0x10000 with
  | 0x03 =>
    if 0x60 ≤ o ∧ o < 0x70 then (if o = 0x60 ∨ o = 0x6C then some (talmBase 0) else none)
    else if 0x70 ≤ o ∧ o < 0x80 then (if o = 0x70 ∨ o = 0x7C then some (talmBase 1) else none)
    else if o = 0x24 ∨ o = 0x28 ∨ o = 0x2C ∨ o = 0x38 ∨ o ≥ 0x80 then none else some timBase
  | 0x04 => if o % 0x100 < 0x80 ∨ (0xA0 ≤ o % 0x100 ∧ o % 0x100 < 0xC0) then none else some (0x040000 + o / 0x100 * 0x100)
  | 0x05 => if o % 0x40 < 0x20 ∨ o % 0x40 = 0x34 then none else some (0x050000 + o / 0x40 * 0x40)
  | 0x06 =>
    if o < 0x400 then (if o % 0x20 < 0x10 then none else some (0x060000 + o / 0x20 * 0x20))
    else if o % 0x40 < 0x18 then none else some (0x060000 + o / 0x40 * 0x40)
  | 0x07 => if 0x60 ≤ o ∧ o < 0x80 then some (pointBase s.alm.sel.toNat) else if o < 0x20 ∨ o ≥ 0x80 then some 0x070000 else none
  | 0x09 => if o % 0x100 = 0x10 ∨ o ≥ 0x200 then none else some (0x090000 + o / 0x100 * 0x100)
  | 0x0A => if o = 8 then some aFAB_ADDR else none
  | 0x0C => if o = 8 ∨ o = 0xC ∨ o = 0x10 then none else some 0x0C0000
  | 0x0D => if o = 0xC then none else some aDISP
  | 0x20 | 0x21 | 0x22 | 0x23 => some 0x200000
  | _ => none

/-- A register of a function that an undefined case has touched. -/
def unspecReg (s : State) (a : Nat) : Bool := match resultBase s a with | some b => poisoned s b | none => false

/-- The registers the partner owns on a unit without OWN (R343). -/
def partnerOwned (s : State) (a : Nat) : Bool :=
  let o := a % 0x10000
  isPair s && !s.pair.ownHeld &&
    match a / 0x10000 with
    | 0x04 => o < 0x4000 && (o % 0x100 < 0x40 || o % 0x100 = 0x40 || o % 0x100 = 0x44)
    | 0x05 => o < 0x200 && (o % 0x40 < 0x10 || o % 0x40 = 0x34)
    | 0x06 => (o < 0x400 && o % 0x20 = 0) ||
        (0x400 ≤ o && o < 0x800 && (o % 0x40 = 0 || o % 0x40 = 4 || o % 0x40 = 0x10 || o % 0x40 = 0x14))
    | _ => false

/-- A read of the holding area while a snapshot is being copied (undefined case 4). -/
def inHold (a : Nat) : Bool := 0x200000 ≤ a && a < 0x240000

/-- An access to an unmapped or unassigned address (R36). -/
def addrMiss (s : State) : State := s |> bump aSYS_ADDR_MISS |> latch aSYS_EVENT 0

/-- Base of the element that a triplicated word belongs to (R51). -/
def triBase (a : Nat) : Nat :=
  if a / 0x10000 = 6 then a - 0x10 else if a / 0x10000 = 4 then a else a / 0x10000 * 0x10000

/-- In recovery only the identity and update blocks answer; every other address reads 0 and takes nothing (R417). -/
def mute (s : State) (a : Nat) : Bool := s.sys.phase = .recovery && a / 0x10000 ≠ 0 && a / 0x10000 ≠ 0x0F

/-- What a read does beside giving its value (R50, R281, R353). -/
def readEffect (a : Nat) (s : State) : State :=
  if a = 0x030000 then effTimeFracRead s
  else if a = 0x0A0010 then { s with fab := { s.fab with ftHi := ((fabUs s) >>> 32).setWidth 32 } }
  else if isTri a then voteUse a (triBase a) s
  else if a = 0x070040 ∨ a = 0x070044 ∨ a = 0x070048 then useEnable s.alm.sel.toNat s
  else s

/-- What a read leaves behind: TIME_SEC_HI releases the shadows (R353). -/
def readAfter (a : Nat) (s : State) : State := if a = 0x030008 then effTimeSecHiRead s else s

/-- An unspecified value is read. -/
def readFree (s : State) : Word × State := (free s, drawn 1 s)

/-- One read of an aligned address of the register space. -/
def readReg (a : Nat) (s : State) : Word × State :=
  if mute s a then (0, s)
  else if inHold a && s.sys.snap.busy then readFree (undef 0x200000 s)
  else if partnerOwned s a then readFree s
  else
    let s := readEffect a s
    match peek s a with
    | none => (0, addrMiss s)
    | some v =>
      let s := readAfter a s
      if unspecReg s a then readFree s else (v, s)

end Sys2Proof.Machine
end

