-- ==== Sys2Proof/Machine/UpdateOps.lean ====
section
/-! DEFINITION. Machine/UpdateOps.lean: the update engine's own operations: activation, abort, confirmation, block building and the checks of an
image (R414 to R424). -/
namespace Sys2Proof.Machine

def updMod (f : UpdSt → UpdSt) (s : State) : State := { s with upd := f s.upd }

/-- UPD_BLOCK_BAD, UPD_ACTIVATIONS and UPD_LATE (Table 17.10). -/
def aUPD_BLOCK_BAD : Nat := 0x0F002C
def aUPD_ACTIVATIONS : Nat := 0x0F0030
def aUPD_LATE : Nat := 0x0F0038

/-! Activation (R422, Table 17.8). -/

/-- Why ACTIVATE is refused (R422, Table 17.7). -/
def activateReason (s : State) : Option (BitVec 8) :=
  if s.upd.state ≠ .verified then some 8
  else if s.upd.ver.toNat < s.cfg.minFw.toNat then some 9
  else if isPair s && s.pair.ownHeld then some 10
  else none

/-- Step 4: what waits, a block record with the old and the new version, and the close marker. A rebuild that still runs is completed
first (log entry 35). -/
def activationLog (s : State) : State :=
  if s.rcd.running then
    closeLog (logBlock 1 aUPD_BASE aUPD_EVENT [s.upd.runVer, s.upd.ver] (drainQueue (effLogIndexRebuild s)))
  else s

/-- Steps 1 to 5; a node before end of start has nothing published, placed or evaluated to stop. -/
def activationSteps (s : State) : State :=
  let run := isRunning s
  let s := { s with afe := { s.afe with pause := true } }
  let s := arUpdateAll (whenS run publishHeld s)
  let c := ckptNow s
  let s := whenS run (putCkpt c) (whenS run stopPlanes s)
  saveCounters (sendNotices false (activationLog s))

/-- ACTIVATE is accepted, refused with a reason, or ignored while an activation runs. -/
def acceptActivate (s : State) : State :=
  if s.upd.state = .activating then s
  else match activateReason s with
    | some r => latch aUPD_EVENT 6 (updMod (fun u => { u with reason := r }) s)
    | none => activationSteps (bump aUPD_ACTIVATIONS (updMod (fun u => { u with state := .activating }) s))

/-- A write of 1 to UPD_CTRL.ACTIVATE, which is RWL; in recovery the lock does not refuse it (R417). -/
def writeActivate (s : State) : State := if s.sys.phase = .recovery then acceptActivate s else lockGuard acceptActivate s

/-- Steps 6 and 7: the commit, and the reset with cause ACTIVATE. -/
def commitActivation (s : State) : State :=
  if s.upd.state = .activating then
    nodeReset 8 0 (storeMod (fun x => { x with bankSel := !s.upd.bank, trial := true, trialStarts := 0 }) s)
  else s

/-- UPD_ACTIVATE: the acceptance, unless a write has brought it, and the steps; `cut`: something comes before the commit. -/
def effUpdActivate (cut : Bool) (s : State) : State :=
  let s := if s.upd.state = .activating then s else writeActivate s
  if cut then s else commitActivation s
def execUpdActivate (cut : Bool) (s : State) : Out := done (effUpdActivate cut s)

/-! Abort (R424). -/

/-- The loading bank becomes EMPTY. -/
def emptyLoading (s : State) : State := bankMod (!s.upd.bank) (fun b => { b with state := .empty, blocks := [], factory := false }) s

/-- The session and any load end; the request that waits for a verdict gets none. -/
def endLoad (s : State) : State :=
  emptyLoading (updMod (fun u => { u with state := .idle, sess := none, fin := none, ver := 0, blocks := 0 }) s)

def abortUpdate (s : State) : State :=
  match s.upd.state with
  | .loading => endLoad s
  | .verifying => endLoad s
  | .verified => endLoad s
  | .activating => cancelActivation s
  | _ => s

/-- UPD_ABORT: one that meets the completion of the verification or of the commit loses, and the completion stands (R47). -/
def effUpdAbort (coincident : Bool) (s : State) : State :=
  if coincident && (s.upd.state = .verifying || s.upd.state = .activating) then
    s |> bump aUPD_LATE |> latch aUPD_EVENT 5 |> latch aSYS_EVENT 6
  else abortUpdate s
def execUpdAbort (coincident : Bool) (s : State) : Out := done (effUpdAbort coincident s)

/-- UPD_SESSION_TIMEOUT (R419): acts as ABORT. -/
def effUpdSessionTimeout (s : State) : State := if s.upd.sess.isSome then abortUpdate s else s
def execUpdSessionTimeout (s : State) : Out := done (effUpdSessionTimeout s)

/-- TRIAL_CONFIRM (R416): the running image's bank is GOOD, and the settings as they stood before it are dropped (R418). -/
def effTrialConfirm (s : State) : State :=
  if s.store.trial && s.upd.confirmAt.isSome then
    s |> bankMod s.upd.bank (fun b => { b with state := .good }) |> storeMod (fun x => { x with trial := false, before := none })
      |> updMod (fun u => { u with confirmAt := none }) |> latch aUPD_EVENT 3
  else s
def execTrialConfirm (s : State) : Out := done (effTrialConfirm s)

/-! Blocks (R420, Tables 17.5 and 17.6). -/

/-- The bytes of a block with a run put in. -/
def putRun (b : List Byte) (off : Nat) (d : List Byte) : List Byte := b.take off ++ d ++ b.drop (off + d.length)

/-- The runs of a PATCH payload, offsets rising and apart, inside the block; nothing where the payload breaks this. -/
def patchGo (fuel : Nat) (from_ : Nat) (p b : List Byte) : Option (List Byte) :=
  match fuel with
  | 0 => none
  | f + 1 =>
    if p.isEmpty then some b
    else
      let off := fU p 0 2
      let n := fU p 2 2
      if p.length < 4 + n || off < from_ || off + n > 4096 then none
      else patchGo f (off + max n 1) (p.drop (4 + n)) (putRun b off ((p.drop 4).take n))

/-- The block that a method builds from a payload; nothing where the payload does not fit the method. -/
def buildBlock (run : Bank) (method src : Nat) (p : List Byte) : Option (List Byte) :=
  match method with
  | 1 => if p.isEmpty then some (bankBlock run src) else none
  | 2 => patchGo (p.length + 1) 0 p (bankBlock run src)
  | 3 => if p.length = 4096 then some p else none
  | 4 => if p.length = 1 then some (List.replicate 4096 (p.headD 0)) else none
  | _ => none

/-- The block in the loading bank, and counted as written. -/
def writeBlock (k : Nat) (b : List Byte) (x : Session) (s : State) : State :=
  let s := bankMod (!s.upd.bank) (fun n => { n with blocks := tabPut n.blocks k b }) s
  updMod (fun u => { u with sess := some { x with written := k :: x.written.filter (fun j => j ≠ k), partialRec := none } }) s

/-- A block that failed its CRC or its read-back stays unwritten. -/
def failBlock (k : Nat) (x : Session) (s : State) : State :=
  bump aUPD_BLOCK_BAD
    (updMod (fun u => { u with sess := some { x with written := x.written.filter (fun j => j ≠ k), partialRec := none } }) s)

/-! The checks of an image (R421). -/

/-- The signature of an image of n blocks, bytes 0x40 to 0x7F taken as zero, under the release key (R414). -/
def imageSigOk (b : Bank) (n : Nat) : Bool :=
  let b0 := bankBlock b 0
  let msg := b0.take 0x40 ++ List.replicate 0x40 0 ++ b0.drop 0x80 ++ (List.range (n - 1)).flatMap (fun i => bankBlock b (i + 1))
  edVerify (leBytes 32 Config.releaseKey.toNat) (shaBytes msg) ((b0.drop 0x40).take 64)

/-- The check of R421 that fails, as its reason. -/
def imageReason (s : State) : BitVec 8 :=
  let b := bankOf s (!s.upd.bank)
  let b0 := bankBlock b 0
  if b0.take 4 ≠ [0x4D, 0x55, 0x46, 0x57] || fU b0 4 4 ≠ s.upd.ver.toNat || fU b0 8 2 ≠ s.upd.blocks then 4
  else if !tableCrcOk b0 || !blocksOk b b0 s.upd.blocks then 5
  else if fU b0 0xA 2 > fld s.hwIssue 0 16 then 6
  else if !imageSigOk b s.upd.blocks then 7
  else 0

end Sys2Proof.Machine
end

