-- ==== Sys2Proof/Machine/RegsWrite.lean ====
section
/-! DEFINITION. Machine/RegsWrite.lean: a write of one register word: its effect by block (R36, R38 to R40, R48, and the register tables). -/
namespace Sys2Proof.Machine

/-- The fields with access RWL (R48). -/
def isRwl (a : Nat) (v : Word) : Bool :=
  let o := a % 0x10000
  match a / 0x10000 with
  | 0x03 => o = 0x2C
  | 0x04 => o < 0x4000 && (o % 0x100 = 0x40 || o % 0x100 = 0x44)
  | 0x05 => o < 0x200 && o % 0x40 = 0x34
  | 0x06 => 0x400 ≤ o && o < 0x800 && (o % 0x40 = 0x10 || o % 0x40 = 0x14)
  | 0x0C => o = 8 || o = 0xC
  | 0x0D => o = 0xC
  | 0x0F => o = 8 && v.getLsbD 0
  | _ => false

/-- The lock refuses this write; in recovery it refuses none (R48, R417). -/
def lockRefuses (a : Nat) (v : Word) (s : State) : Bool := s.sys.lock && s.sys.phase ≠ .recovery && isRwl a v

/-! Registers without a row of their own. -/

/-- SYS_SNAP (Table 2.7): both bits are judged against BUSY as it stood. -/
def writeSnap (v : Word) (s : State) : State :=
  let busy := s.sys.snap.busy
  whenS (busy && v.getLsbD 1) (effSnapshotAbort false) (whenS (v.getLsbD 0) effSnapshotStart s)

/-- ALM_CMD (Table 8.18). -/
def writeAlmCmd (v : Word) (s : State) : State :=
  let i := BitVec.ofNat 12 v.toNat
  match fld v 14 2 with
  | 0 => queueCmd i (.ack (v.extractLsb' 16 16)) s
  | 1 => queueCmd i (.shelve s.alm.cmdArg) s
  | 2 => queueCmd i .unshelve s
  | _ => undef 0x070000 s

/-- PB_ADMIT[p] (Table 10.11). -/
def writeAdmit (p : Fin 2) (v : Word) (s : State) : State :=
  let d : BitVec 6 := v.setWidth 6
  whenS (d = 0 || d.toNat > 32) (undef (aPB p 0)) (pbMod p (fun t => { t with depth := d }) s)

/-- PAIR_ROLE (RWL and RWT). -/
def writeRole (v : Word) : State → State :=
  lockGuard (fun s =>
    let r : BitVec 2 := v.setWidth 2
    let s := triSet aPAIR_ROLE (r.setWidth 32) (voteUse aPAIR_ROLE 0x0C0000 s)
    whenS (r = 3) (undef 0x0C0000)
      { s with cfg := { s.cfg with guarded := { s.cfg.guarded with rolePref := r.setWidth 8 } } })

/-- TIME_TRIM (RWL): the value in use, and the one the settings save (R350). -/
def writeTrim (v : Word) : State → State :=
  lockGuard (fun s =>
    let t : BitVec 8 := v.setWidth 8
    whenS (t = 0x80) (undef timBase) (timMod (fun x => { x with trim := t }) (storeMod (fun x => { x with trim := t }) s)))

/-- DISP_VCOM (RWL). -/
def writeVcom (v : Word) : State → State :=
  lockGuard (fun s =>
    let c : BitVec 8 := v.setWidth 8
    whenS (c.toNat < 30 || c.toNat > 250) (undef aDISP) (storeMod (fun x => { x with vcom := c }) s))

/-- UPD_CTRL (Table 17.10): ABORT, then ACTIVATE. -/
def writeUpdCtrl (v : Word) (s : State) : State :=
  let s := whenS (v.getLsbD 1) abortUpdate s
  whenS (v.getLsbD 0) writeActivate s

/-! By block. A register that only reads takes nothing. -/

def writeSys (o : Nat) (v : Word) (s : State) : State :=
  match o with
  | 0x08 => effLockSet v s
  | 0x0C => writeSnap v s
  | _ => s

def writeTime (o : Nat) (v : Word) (s : State) : State :=
  if 0x80 ≤ o ∧ o < 0xC0 then timMod (fun t => { t with backup := tabSet 0 t.backup ((o - 0x80) / 4) v }) s
  else match o with
    | 0x1C => effTimeSetWrite v s
    | 0x20 => effTimeAdjWrite v s
    | 0x24 => timeSetDateWrite v s
    | 0x28 => effTimeSetTodWrite v s
    | 0x2C => writeTrim v s
    | 0x38 => timMod (fun t => { t with conv := v }) s
    | 0x60 => effTalmWrite 0 0 v s
    | 0x64 => effTalmWrite 0 1 v s
    | 0x68 => effTalmWrite 0 2 v s
    | 0x70 => effTalmWrite 1 0 v s
    | 0x74 => effTalmWrite 1 1 v s
    | 0x78 => effTalmWrite 1 2 v s
    | _ => s

def writeAfe (n : Fin 64) (o : Nat) (v : Word) (s : State) : State :=
  match o with
  | 0x00 => effAfeCfgWrite n v s
  | 0x04 => effAfeExcWrite n v s
  | 0x08 => effAfeRateWrite n v s
  | 0x0C => afeWordWrite n 0x0C v s
  | 0x10 => afeWordWrite n 0x10 v s
  | 0x14 => afeWordWrite n 0x14 v s
  | 0x18 => afeWordWrite n 0x18 v s
  | 0x1C => afeWordWrite n 0x1C v s
  | 0x20 => afeWordWrite n 0x20 v s
  | 0x24 => effAfeHealthWrite n false v s
  | 0x28 => effAfeHealthWrite n true v s
  | 0x40 => effCalGainWrite n v s
  | 0x44 => effCalOffsetWrite n v s
  | _ => s

def writeAr (k : Fin 8) (o : Nat) (v : Word) (s : State) : State :=
  match o with
  | 0x00 => arWordWrite k 0x00 v s
  | 0x04 => arWordWrite k 0x04 v s
  | 0x08 => arWordWrite k 0x08 v s
  | 0x0C => arWordWrite k 0x0C v s
  | 0x34 => arForceWrite k v s
  | _ => s

def writeDio (o : Nat) (v : Word) (s : State) : State :=
  if o < 0x400 then if o % 0x20 = 0 then effDiCfgWrite (Fin.ofNat 32 (o / 0x20)) v s else s
  else
    let k := Fin.ofNat 16 ((o - 0x400) / 0x40)
    match o % 0x40 with
    | 0x00 => doCfgWrite k v s
    | 0x04 => doFixWrite k v s
    | 0x10 => doFailWrite k v s
    | 0x14 => doForceWrite k v s
    | _ => s

def writeAlm (o : Nat) (v : Word) (s : State) : State :=
  if 0x40 ≤ o ∧ o < 0x80 then recWrite ((o - 0x40) / 4) v s
  else match o with
    | 0x20 => { s with alm := { s.alm with sel := v.setWidth 12 } }
    | 0x24 => writeAlmCmd v s
    | 0x28 => { s with alm := { s.alm with cmdArg := v.setWidth 15 } }
    | _ => s

/-- In safe idle the block does nothing, and its registers keep their reset values (R234). -/
def writeCall (o : Nat) (v : Word) (s : State) : State :=
  if s.sys.phase = .safeIdle then s
  else match o with
  | 0x30 => { s with call := { s.call with accSel := v.setWidth 16 } }
  | 0x34 => { s with call := { s.call with rosSel := v } }
  | _ => s

/-- In safe idle the block does nothing, and its registers keep their reset values (R317). -/
def writePlace (o : Nat) (v : Word) (s : State) : State :=
  if s.sys.phase = .safeIdle then s
  else match o with
  | 0x40 => { s with plc := { s.plc with sel := v } }
  | 0x60 => effPlaceCalcWrite false v s
  | 0x64 => effPlaceCalcWrite true v s
  | _ => s

def writePair (o : Nat) (v : Word) (s : State) : State :=
  match o with
  | 0x08 => writeRole v s
  | 0x0C => effPairForceWrite v s
  | 0x10 => if isPair s then pairSet (fun p => { p with holdoff := v.setWidth 16 }) s else s
  | _ => s

def writeDisp (o : Nat) (v : Word) (s : State) : State :=
  match o with
  | 0x0C => writeVcom v s
  | 0x10 => effDispAbortWrite (v.setWidth 8) 0 s
  | _ => s

/-- The effect of a write that is mapped. -/
def writeBlk (a : Nat) (v : Word) (s : State) : State :=
  let o := a % 0x10000
  match a / 0x10000 with
  | 0x01 => writeSys o v s
  | 0x03 => writeTime o v s
  | 0x04 => writeAfe (Fin.ofNat 64 (o / 0x100)) (o % 0x100) v s
  | 0x05 => writeAr (Fin.ofNat 8 (o / 0x40)) (o % 0x40) v s
  | 0x06 => writeDio o v s
  | 0x07 => writeAlm o v s
  | 0x08 => writeCall o v s
  | 0x09 => if o = 0x10 then writeAdmit 0 v s else if o = 0x110 then writeAdmit 1 v s else s
  | 0x0A => if o = 8 then effFabAddrWrite v s else s
  | 0x0B => writePlace o v s
  | 0x0C => writePair o v s
  | 0x0D => writeDisp o v s
  | 0x0E => if o = 0x30 then effLogSelWrite v s else s
  | 0x0F => if o = 8 then writeUpdCtrl v s else s
  | _ => s

/-- One write of an aligned address of the register space: whether the lock refuses it, and the state after it. -/
def writeReg (a : Nat) (v : Word) (s : State) : Bool × State :=
  if mute s a then (false, s)
  else if inHold a then (false, undef 0x200000 s)
  else if (peek s a).isNone then (false, addrMiss s)
  else if isRsq a then (false, effRsqClearWrite a v false s)
  else (lockRefuses a v s, writeBlk a v s)

/-- The register file serves accesses (R406, R417): not while the islands are in reset or in Drydown. -/
def regsUp (s : State) : Bool :=
  s.sys.phase = .safeIdle || s.sys.phase = .live || s.sys.phase = .running || s.sys.phase = .recovery

/-- REGISTER_WRITE (R40): an unaligned access is refused and writes nothing (R36). -/
def effRegisterWrite (a : Nat) (v : Word) (s : State) : State :=
  if regsUp s && a % 4 = 0 then (writeReg a v s).2 else s
def execRegisterWrite (addr : BitVec 24) (value : Word) (s : State) : Out := done (effRegisterWrite addr.toNat value s)

end Sys2Proof.Machine
end

