-- ==== Sys2Proof/Machine/Service.lean ====
section
/-! DEFINITION. Machine/Service.lean: port S, the gateway and the management operations but those of the update session (R406 to R413). -/
namespace Sys2Proof.Machine

def svcMod (f : SvcSt → SvcSt) (s : State) : State := { s with svc := f s.svc }

/-- SVC_RX, SVC_BAD, SVC_DROPPED and SVC_AUTH_FAIL (Table 17.10). -/
def aSVC_RX : Nat := 0x0F0044
def aSVC_BAD : Nat := 0x0F0048
def aSVC_DROPPED : Nat := 0x0F004C
def aSVC_AUTH_FAIL : Nat := 0x0F0050

/-! Replies (R408, R410). -/

/-- What an operation answers: STATUS, DETAIL and the body. -/
structure Answer where
  status : BitVec 8
  detail : BitVec 8 := 0
  body : List Byte := []
  deriving DecidableEq, Repr

def ansOk : Answer := { status := 0 }
def ansBad : Answer := { status := 1 }
/-- STATE with a reason of Table 17.7. -/
def ansState (r : BitVec 8) : Answer := { status := 8, detail := r }

/-- The message that carries an answer: the OP with 0x80 added, the TAG echoed, and the address of this node. -/
def mkReply (s : State) (op : BitVec 8) (tag : BitVec 16) (a : Answer) : MgmtReply :=
  ⟨op + 0x80, tag, a.status, a.detail, !s.fab.addressed, if s.fab.addressed then ownAddr s else 0, a.body⟩

/-- Send a reply to the origin of its request. -/
def sendReply (o : SvcOrigin) (m : MgmtReply) (s : State) : State :=
  match o with
  | .portS ip port => svcMod (fun v => { v with sent := some (.reply ip port m) }) s
  | .gateway g => sendUni g 9 (.mgmtReply m) s

/-- Keep a reply: the last 16 stand (R410). -/
def keepReply (o : SvcOrigin) (tag : BitVec 16) (m : MgmtReply) (s : State) : State :=
  svcMod (fun v => { v with kept := ((o, tag, m) :: v.kept.filter (fun x => !(x.1 = o && x.2.1 = tag))).take 16 }) s

def keptReply (s : State) (o : SvcOrigin) (tag : BitVec 16) : Option MgmtReply :=
  (s.svc.kept.find? (fun x => x.1 = o && x.2.1 = tag)).map (fun x => x.2.2)

/-- Answer a request that was executed here. -/
def answer (o : SvcOrigin) (op : BitVec 8) (tag : BitVec 16) (a : Answer) (s : State) : State :=
  let m := mkReply s op tag a
  keepReply o tag m (sendReply o m s)

/-! Where a request goes (R409, R410, R417). -/

/-- An operation as it runs here: its answer, where it answers at once, and the state after it. -/
abbrev Op := State → Option Answer × State

/-- The operations that recovery does not run (R417). -/
def notInRecovery (op : BitVec 8) : Bool := [0x03, 0x04, 0x05, 0x10, 0x11, 0x12].contains op

/-- Run an operation for an origin and answer it. -/
def runOp (o : SvcOrigin) (op : BitVec 8) (tag : BitVec 16) (f : Op) (s : State) : State :=
  let s := bump aSVC_RX s
  if s.sys.phase = .recovery && notInRecovery op then answer o op tag (ansState 0) s
  else match f s with
    | (some a, t) => answer o op tag a t
    | (none, t) => t

/-- The request is for this node. -/
def forMe (s : State) (q : SvcReq) : Bool := q.self || (s.fab.addressed && q.target = ownAddr s)

/-- Forward a request as its gateway, or answer that there is no route (R409). -/
def forward (q : SvcReq) (op : BitVec 8) (g : MgmtOp) (s : State) : State :=
  let o := SvcOrigin.portS q.ip q.port
  if (routeTo s q.target).isNone then sendReply o (mkReply s op q.tag { status := 5 }) s
  else
    let w := (o, q.tag, q.target, op)
    let s := svcMod (fun v => { v with waiting := if v.waiting.contains w then v.waiting else v.waiting ++ [w] }) s
    sendUni q.target 9 (.mgmtRequest q.tag g) (bump aSVC_RX s)

/-- A request goes to the queue: it is not executed at once, or an earlier one waits (R410). -/
def svcWaits (q : SvcReq) (s : State) : Bool := !s.svc.taking && (q.waits || !s.svc.queue.isEmpty)

/-- The queue holds 16 requests; a further one is discarded and counted (R410). -/
def svcQueue (cmd : Instr) (s : State) : State :=
  if s.svc.queue.length ≥ 16 then bump aSVC_DROPPED s else svcMod (fun v => { v with queue := v.queue ++ [cmd] }) s

/-- A request at port S, which is the command given. `selfOnly`: the operation takes SELF alone, not the node's address. -/
def svcRequest (cmd : Instr) (q : SvcReq) (op : BitVec 8) (selfOnly : Bool) (g : MgmtOp) (f : Op) (s : State) : State :=
  let o := SvcOrigin.portS q.ip q.port
  if !regsUp s then s
  else if svcWaits q s then svcQueue cmd s
  else match keptReply s o q.tag with
    | some m => sendReply o m s
    | none =>
      if !forMe s q then forward q op g s
      else if selfOnly && !q.self then answer o op q.tag { status := 4 } (bump aSVC_RX s)
      else runOp o op q.tag f s

/-! The operations (R411, R412). -/

def opDiscover : Op := fun s =>
  let ws : List Word := [(peek s 0).getD 0, s.serial, s.upd.runVer, fabAddr s, startStatus s]
  let name := (s.cfg.nodeName ++ List.replicate 16 0).take 16
  (some { status := 0, body := wordsBytes ws ++ name }, s)

/-- Read n words from an address up. -/
def readWords (n a : Nat) (s : State) : List Word × State :=
  match n with
  | 0 => ([], s)
  | m + 1 =>
    let (v, s) := readReg a s
    let (l, s) := readWords m (a + 4) s
    (v :: l, s)

/-- Write words from an address up, to the first that the lock refuses; its index. -/
def writeWords (l : List Word) (a i : Nat) (s : State) : Option Nat × State :=
  match l with
  | [] => (none, s)
  | v :: r =>
    let (refused, s) := writeReg a v s
    if refused then (some i, s) else writeWords r (a + 4) (i + 1) s

/-- ADDR and COUNT: malformed, unaligned, or good. -/
def accessBad (addr : Word) (n : Nat) : Option Answer :=
  if n = 0 || n > 64 || addr.toNat + 4 * n > 0x1000000 then some ansBad
  else if addr.toNat % 4 ≠ 0 then some { status := 2 }
  else none

def opRead (addr : Word) (count : BitVec 16) : Op := fun s =>
  match accessBad addr count.toNat with
  | some a => (some a, s)
  | none =>
    let (l, s) := readWords count.toNat addr.toNat s
    (some { status := 0, body := wordsBytes l }, s)

def opWrite (addr : Word) (words : List Word) : Op := fun s =>
  match accessBad addr words.length with
  | some a => (some a, s)
  | none =>
    match writeWords words addr.toNat 0 s with
    | (some i, s) => (some { status := 3, detail := BitVec.ofNat 8 i }, s)
    | (none, s) => (some ansOk, s)

def opLogRead (first : Word) (count : BitVec 8) : Op := fun s =>
  if count = 0 || count.toNat > 7 then (some ansBad, s)
  else
    let (l, skipped) := logTake s first count.toNat
    (some { status := 0, body := [BitVec.ofNat 8 l.length, 0] ++ leBytes 2 (min skipped 65535) ++ [0, 0, 0, 0] ++
              l.flatMap (fun r => wordsBytes r.words) }, s)

/-- One period as TREND_READ gives it: PERIOD, START, the means and the qualities. -/
def trendBytes (p : TrendPeriod) : List Byte :=
  wordBytes p.period ++ leBytes 8 p.start.toNat ++ wordsBytes ((p.means ++ List.replicate 64 0).take 64) ++
    (p.quals ++ List.replicate 64 0).take 64

def opTrendRead (item period : Word) (count : BitVec 8) : Op := fun s =>
  if count = 0 || count.toNat > 2 then (some ansBad, s)
  else if itemKind item ≠ 4 || roleOf s item = .none then (some (ansState 0), s)
  else
    let l := ((tabGet [] s.plc.rings item.toNat).filter (fun p => period.toNat ≤ p.period.toNat)).take count.toNat
    (some { status := 0, body := [BitVec.ofNat 8 l.length, 0, 0, 0] ++ l.flatMap trendBytes }, s)

/-- The serial that RESET must name (R411). -/
def resetOk (serial : Word) (s : State) : Bool := serial = s.serial

/-- Whether RESET is answered OK; the reset follows the reply. -/
def opReset (serial : Word) : Op := fun s => (some (if resetOk serial s then ansOk else ansBad), s)

/-- The reset that a RESET just executed brings, with cause SERVICE; its reply has left port S before. -/
def afterResetOp (fresh : Bool) (serial : Word) (s : State) : State :=
  if fresh && resetOk serial s then svcMod (fun v => { v with sent := s.svc.sent }) (nodeReset 9 0 s) else s

/-! Rows at port S. -/

/-- A broadcast is answered by every node on the segment, whatever its TARGET (R407). -/
def effDiscover (q : SvcReq) (broadcast : Bool) (s : State) : State :=
  svcRequest (.discover q broadcast) { q with self := q.self || broadcast } 0x00 false .discover opDiscover s
/-- DISCOVER (R407): the delay of a broadcast's answer is not modelled. -/
def execDiscover (q : SvcReq) (broadcast : Bool) (s : State) : Out := done (effDiscover q broadcast s)

def effRead (q : SvcReq) (addr : Word) (count : BitVec 16) (s : State) : State :=
  svcRequest (.read q addr count) q 0x01 false (.read addr count) (opRead addr count) s
def execRead (q : SvcReq) (addr : Word) (count : BitVec 16) (s : State) : Out := done (effRead q addr count s)

def effWrite (q : SvcReq) (addr : Word) (words : List Word) (s : State) : State :=
  svcRequest (.write q addr words) q 0x02 false (.write addr words) (opWrite addr words) s
def execWrite (q : SvcReq) (addr : Word) (words : List Word) (s : State) : Out := done (effWrite q addr words s)

def effLogRead (q : SvcReq) (first : Word) (count : BitVec 8) (s : State) : State :=
  svcRequest (.logRead q first count) q 0x03 false (.logRead first count) (opLogRead first count) s
def execLogRead (q : SvcReq) (first : Word) (count : BitVec 8) (s : State) : Out := done (effLogRead q first count s)

def effTrendRead (q : SvcReq) (item period : Word) (count : BitVec 8) (s : State) : State :=
  svcRequest (.trendRead q item period count) q 0x04 false (.trendRead item period count) (opTrendRead item period count) s
def execTrendRead (q : SvcReq) (item : Word) (period : Word) (count : BitVec 8) (s : State) : Out := done (effTrendRead q item period count s)

/-- Whether a request is executed here now. -/
def executedHere (q : SvcReq) (s : State) : Bool :=
  regsUp s && !svcWaits q s && (keptReply s (.portS q.ip q.port) q.tag).isNone && forMe s q && s.sys.phase ≠ .recovery

def effReset (q : SvcReq) (serial : Word) (s : State) : State :=
  afterResetOp (executedHere q s) serial (svcRequest (.reset q serial) q 0x05 false (.reset serial) (opReset serial) s)
def execReset (q : SvcReq) (serial : Word) (s : State) : Out := done (effReset q serial s)

/-! Keys (R413). -/

def opChallenge (nonce : BitVec 128) : Op := fun s =>
  (some { status := 0, body := leBytes 16 nonce.toNat }, svcMod (fun v => { v with nonce := some nonce }) s)

def effChallenge (q : SvcReq) (nonce : BitVec 128) (s : State) : State := svcRequest (.challenge q nonce) q 0x10 false (.sOnly 0x10) (opChallenge nonce) s
def execChallenge (q : SvcReq) (nonce : BitVec 128) (s : State) : Out := done (effChallenge q nonce s)

def effNonceExpiry (s : State) : State := svcMod (fun v => { v with nonce := none }) s
def execNonceExpiry (s : State) : Out := done (effNonceExpiry s)

/-- The key slots are all empty. -/
def noKeys (s : State) : Bool := s.store.keys.toList.all (fun k => k = 0)

/-- The signer is accepted: the key of a slot that holds one, or nobody with all slots empty and SERVICE shown. -/
def signerOk (op : BitVec 8) (k : KeyReq) (s : State) : Bool :=
  let signer := s.store.keys[Fin.ofNat 4 k.signer.toNat]
  if k.signer = 0xFF then noKeys s && shownPage s = .service
  else signer ≠ 0 && edVerify (leBytes 32 signer.toNat) (shaBytes (keyMsg op k s)) (leBytes 64 k.sig.toNat)
where
  /-- The 56 bytes whose digest SIG signs. -/
  keyMsg (op : BitVec 8) (k : KeyReq) (s : State) : List Byte :=
    [op, k.slot, k.signer, 0] ++ leBytes 4 s.serial.toNat ++ leBytes 16 k.nonce.toNat ++ leBytes 32 k.key.toNat

/-- KEY_INSTALL and KEY_REMOVE: the nonce is spent whatever comes of the request. -/
def opKey (install : Bool) (k : KeyReq) : Op := fun s =>
  let nonceOk : Bool := s.svc.nonce = some k.nonce
  let s := effNonceExpiry s
  if k.slot.toNat > 3 || (k.signer.toNat > 3 && k.signer ≠ 0xFF) || (k.key ≠ 0) ≠ install then (some ansBad, s)
  else if !nonceOk || !signerOk (if install then 0x11 else 0x12) k s then (some { status := 7 }, bump aSVC_AUTH_FAIL s)
  else
    let s := storeMod (fun x => { x with keys := x.keys.set (Fin.ofNat 4 k.slot.toNat) k.key }) s
    (some ansOk, updRec 2 [] (latch aUPD_EVENT 0 s))

def effKeyInstall (q : SvcReq) (k : KeyReq) (s : State) : State := svcRequest (.keyInstall q k) q 0x11 false (.sOnly 0x11) (opKey true k) s
def execKeyInstall (q : SvcReq) (k : KeyReq) (s : State) : Out := done (effKeyInstall q k s)

def effKeyRemove (q : SvcReq) (k : KeyReq) (s : State) : State := svcRequest (.keyRemove q k) q 0x12 false (.sOnly 0x12) (opKey false k) s
def execKeyRemove (q : SvcReq) (k : KeyReq) (s : State) : Out := done (effKeyRemove q k s)

/-! Requests over the fabric (R409). -/

/-- OP of a request over the fabric, and how it runs here: what only port S may carry answers ROUTE. -/
def mgmtRun (g : MgmtOp) : BitVec 8 × Op :=
  match g with
  | .discover => (0x00, fun s => (some { status := 4 }, s))
  | .read a n => (0x01, opRead a n)
  | .write a l => (0x02, opWrite a l)
  | .logRead f n => (0x03, opLogRead f n)
  | .trendRead i p n => (0x04, opTrendRead i p n)
  | .reset w => (0x05, opReset w)
  | .sOnly op => (op, fun s => (some { status := 4 }, s))
  | .bad op => (op, fun s => (some ansBad, s))

/-- MGMT_REQUEST: the target executes it once and replies to the gateway. The reset that a RESET orders follows within 10 ms, once the
reply has had its time to leave (R411, log entry 135). -/
def effMgmtRequest (rx : Rx) (tag : BitVec 16) (g : MgmtOp) (s : State) : State :=
  let (ok, s) := receive rx (.mgmtRequest tag g) s
  if !ok then s
  else
    let o := SvcOrigin.gateway rx.hdr.src
    match keptReply s o tag with
    | some m => sendReply o m s
    | none =>
      let (op, f) := mgmtRun g
      let s := runOp o op tag f s
      match g with | .reset w => whenS (resetOk w s) (svcMod (fun v => { v with resetDue := true })) s | _ => s
def execMgmtRequest (rx : Rx) (tag : BitVec 16) (op : MgmtOp) (s : State) : Out := done (effMgmtRequest rx tag op s)

/-- The request that a reply from a node ends. -/
def waitingFor (s : State) (a : Addr) (tag : BitVec 16) : Option (SvcOrigin × BitVec 16 × Addr × BitVec 8) :=
  s.svc.waiting.find? (fun w => w.2.2.1 = a && w.2.1 = tag)

/-- A forwarded request ends with a reply to its origin, which is kept. -/
def endWaiting (w : SvcOrigin × BitVec 16 × Addr × BitVec 8) (m : MgmtReply) (s : State) : State :=
  svcMod (fun v => { v with waiting := v.waiting.filter (fun x => x ≠ w) }) (keepReply w.1 w.2.1 m (sendReply w.1 m s))

/-- MGMT_REPLY: the gateway passes it back; one that nobody waits for is dropped. -/
def effMgmtReply (rx : Rx) (m : MgmtReply) (s : State) : State :=
  let (ok, s) := receive rx (.mgmtReply m) s
  if !ok then s
  else match waitingFor s rx.hdr.src m.tag with
    | some w => endWaiting w m s
    | none => s
def execMgmtReply (rx : Rx) (m : MgmtReply) (s : State) : Out := done (effMgmtReply rx m s)

/-- MGMT_TIMEOUT: no reply within 1 s. -/
def effMgmtTimeout (o : SvcOrigin) (tag : BitVec 16) (s : State) : State :=
  match s.svc.waiting.find? (fun w => w.1 = o && w.2.1 = tag) with
  | some w => endWaiting w (mkReply s w.2.2.2 tag { status := 6 }) s
  | none => s
def execMgmtTimeout (origin : SvcOrigin) (tag : BitVec 16) (s : State) : Out := done (effMgmtTimeout origin tag s)

/-- REPLY_CACHE_EXPIRY (R410). -/
def effReplyCacheExpiry (o : SvcOrigin) (tag : BitVec 16) (s : State) : State :=
  svcMod (fun v => { v with kept := v.kept.filter (fun x => !(x.1 = o && x.2.1 = tag)) }) s
def execReplyCacheExpiry (origin : SvcOrigin) (tag : BitVec 16) (s : State) : Out := done (effReplyCacheExpiry origin tag s)

/-! Datagrams and the address (R407, R408). -/

/-- BAD_DATAGRAM: discarded and counted, or answered BAD_REQUEST; a reserved OP is a request like another. -/
def effBadDatagram (q : SvcReq) (op : BitVec 8) (fault : DgramFault) (s : State) : State :=
  if !regsUp s then s
  else match fault with
    | .short => bump aSVC_BAD s
    | .version => bump aSVC_BAD s
    | .length => sendReply (.portS q.ip q.port) (mkReply s op q.tag ansBad) s
    | .reservedOp => svcRequest (.badDatagram q op fault) q op false (.bad op) (fun t => (some ansBad, t)) s
def execBadDatagram (q : SvcReq) (op : BitVec 8) (fault : DgramFault) (s : State) : Out := done (effBadDatagram q op fault s)

/-- The address is defended at most once in 10 s (RFC 3927, R407). -/
def mayDefend (s : State) : Bool := match s.svc.defendedAt with | some t => decide (s.clock - t ≥ 10000000000) | none => true

/-- Another link-local candidate; RFC 3927 draws it, and the spec states no draw. -/
def nextIp (w : Word) : Word := wd (169 * 2 ^ 24 + 254 * 2 ^ 16 + (1 + fld w 8 8 % 254) * 256 + fld w 0 8)

/-- ARP: an answer; or, on a conflict, a defence or another address. -/
def effArp (conflict : Bool) (s : State) : State :=
  if !regsUp s then s
  else if !conflict then svcMod (fun v => { v with sent := some (.arp v.ip) }) s
  else if mayDefend s then svcMod (fun v => { v with sent := some (.arp v.ip), defendedAt := some s.clock }) s
  else
    let w := free s
    drawn 1 (svcMod (fun v => { v with ip := nextIp w, defendedAt := none }) s)
def execArp (conflict : Bool) (s : State) : Out := done (effArp conflict s)

def effIcmpEcho (s : State) : State := if regsUp s then svcMod (fun v => { v with sent := some .echo }) s else s
def execIcmpEcho (s : State) : Out := done (effIcmpEcho s)

end Sys2Proof.Machine
end

