-- ==== Sys2Proof/Machine/Update.lean ====
section
/-! DEFINITION. Machine/Update.lean: the update session at port S (R419 to R421). -/
namespace Sys2Proof.Machine

/-- STATE with a reason, which REASON then shows (Table 17.11). -/
def refuse (r : BitVec 8) (s : State) : Option Answer × State := (some (ansState r), updMod (fun u => { u with reason := r }) s)

def ansBusy : Answer := { status := 0x0A }

/-- Another origin holds the session. -/
def heldByOther (o : SvcOrigin) (s : State) : Bool := match s.upd.sess with | some x => decide (x.owner ≠ o) | none => false

/-! UPD_BEGIN (R419). -/

/-- The engine may open a session. -/
def mayBegin (s : State) : Bool := s.upd.state = .idle || s.upd.state = .verified || s.upd.state = .failed

/-- BASE_VER is the running image's, or 0 in recovery. -/
def baseOk (v : Word) (s : State) : Bool := if s.sys.phase = .recovery then v = 0 else v = s.upd.runVer

/-- The session opens: the bank not running is LOADING and erased once more. -/
def openSession (o : SvcOrigin) (ver : Word) (n : Nat) (s : State) : State :=
  let s := bankMod (!s.upd.bank) (fun b => { state := .loading, cycles := satAdd b.cycles 1 }) s
  updMod (fun u => { u with state := .loading, sess := some { owner := o, newVer := ver, count := n }, ver := ver, blocks := n, fin := none }) s

def opUpdBegin (o : SvcOrigin) (base new : Word) (n : Nat) : Op := fun s =>
  if heldByOther o s then (some ansBusy, s)
  else if n < 2 || n > 993 then (some ansBad, s)
  else if !mayBegin s then refuse 3 s
  else if s.store.trial && s.sys.phase ≠ .recovery then refuse 2 s
  else if !baseOk base s then refuse 1 s
  else (some ansOk, openSession o new n s)

def effUpdBegin (q : SvcReq) (base new : Word) (n : BitVec 16) (s : State) : State :=
  svcRequest (.updBegin q base new n) q 0x20 true (.sOnly 0x20) (opUpdBegin (.portS q.ip q.port) base new n.toNat) s
def execUpdBegin (q : SvcReq) (baseVer : Word) (newVer : Word) (blocks : BitVec 16) (s : State) : Out :=
  done (effUpdBegin q baseVer newVer blocks s)

/-! UPD_BLOCK (R420). -/

/-- A field of the fragment's header is out of range, or its method reserved. -/
def fragBad (f : UpdFrag) (x : Session) : Bool :=
  f.block.toNat ≥ x.count || f.method = 0 || f.method.toNat > 4 || f.frags = 0 || f.frags.toNat > 6 || f.frag.toNat ≥ f.frags.toNat ||
    f.data.length > 964

/-- Header fields that every fragment of a record shares. -/
def sameRecord (a b : UpdFrag) : Bool :=
  a.block = b.block && a.method = b.method && a.frags = b.frags && a.src = b.src && a.crc = b.crc

/-- The payload joined so far where this fragment is the next of its record. -/
def joined (f : UpdFrag) (x : Session) : Option (List Byte) :=
  match x.partialRec with
  | none => if f.frag = 0 then some f.data else none
  | some (g, p) => if sameRecord f g && f.frag = g.frag + 1 then some (p ++ f.data) else none

/-- The incomplete record that the session holds. -/
def setPartial (r : Option (UpdFrag × List Byte)) (x : Session) (s : State) : State :=
  updMod (fun u => { u with sess := some { x with partialRec := r } }) s

/-- The record is whole: build the block, compare, program and read back. -/
def finishRecord (f : UpdFrag) (p : List Byte) (x : Session) (s : State) : Option Answer × State :=
  match buildBlock (bankOf s s.upd.bank) f.method.toNat f.src.toNat p with
  | none => (some ansBad, setPartial none x s)
  | some b =>
    if crc32 b ≠ f.crc || !f.readBack then (some { status := 9 }, failBlock f.block.toNat x s)
    else (some ansOk, writeBlock f.block.toNat b x s)

def opUpdBlock (o : SvcOrigin) (f : UpdFrag) : Op := fun s =>
  match s.upd.sess with
  | none => refuse 3 s
  | some x =>
    if x.owner ≠ o then (some ansBusy, s)
    else if s.upd.state ≠ .loading then refuse 3 s
    else if fragBad f x then (some ansBad, s)
    else if s.sys.phase = .recovery && f.method.toNat < 3 then (some (ansState 0), s)
    else match joined f x with
      | none => refuse 3 (setPartial none x s)
      | some p =>
        if f.frag.toNat + 1 = f.frags.toNat then finishRecord f p x s else (some ansOk, setPartial (some (f, p)) x s)

def effUpdBlock (q : SvcReq) (f : UpdFrag) (s : State) : State :=
  svcRequest (.updBlock q f) q 0x21 true (.sOnly 0x21) (opUpdBlock (.portS q.ip q.port) f) s
def execUpdBlock (q : SvcReq) (f : UpdFrag) (s : State) : Out := done (effUpdBlock q f s)

/-! UPD_FINISH and the verification (R421). -/

def allWritten (x : Session) : Bool := (List.range x.count).all (fun k => x.written.contains k)

def opUpdFinish (o : SvcOrigin) (tag : BitVec 16) : Op := fun s =>
  match s.upd.sess with
  | none => refuse 3 s
  | some x =>
    if x.owner ≠ o then (some ansBusy, s)
    else if s.upd.state = .verifying && s.upd.fin = some (o, tag) then (none, s)
    else if s.upd.state ≠ .loading || !allWritten x then refuse 3 s
    else (none, updMod (fun u => { u with state := .verifying, fin := some (o, tag) }) s)

def effUpdFinish (q : SvcReq) (s : State) : State :=
  svcRequest (.updFinish q) q 0x22 true (.sOnly 0x22) (opUpdFinish (.portS q.ip q.port) q.tag) s
def execUpdFinish (q : SvcReq) (s : State) : Out := done (effUpdFinish q s)

/-- The bank and the engine after the verdict. -/
def verdict (r : BitVec 8) (s : State) : State :=
  let ok := r = 0
  let s := setBank (!s.upd.bank) (if ok then .verified else .failed) s
  let s := updMod (fun u => { u with state := if ok then .verified else .failed, reason := r, sess := none, fin := none }) s
  latch aUPD_EVENT (if ok then 1 else 2) s

/-- UPD_VERIFY_DONE: the checks in order, and the reply that UPD_FINISH waits for. -/
def effUpdVerifyDone (s : State) : State :=
  if s.upd.state ≠ .verifying then s
  else
    let r := imageReason s
    let w := s.upd.fin
    let s := verdict r s
    match w with
    | some (o, tag) => answer o 0x22 tag (if r = 0 then ansOk else ansState r) s
    | none => s
def execUpdVerifyDone (s : State) : Out := done (effUpdVerifyDone s)

end Sys2Proof.Machine
end

