-- ==== Sys2Proof/Machine/Dispatch.lean ====
section
/-! DEFINITION. Machine/Dispatch.lean: one arm per command, each one direct call of that command's meaning. -/
namespace Sys2Proof.Machine

def exec (i : Instr) (s : State) : Host.Outcome State Fault Refusal :=
  match i with
  | .partitionViolation window area => Sys2Proof.Machine.execPartitionViolation window area s
  | .clockFailure isl => Sys2Proof.Machine.execClockFailure isl s
  | .watchdogService ch value => Sys2Proof.Machine.execWatchdogService ch value s
  | .watchdogExpiry ch => Sys2Proof.Machine.execWatchdogExpiry ch s
  | .scrubRead m word data check clientWrite passEnds => Sys2Proof.Machine.execScrubRead m word data check clientWrite passEnds s
  | .scrubBehind m => Sys2Proof.Machine.execScrubBehind m s
  | .rsqClearWrite addr value coincident => Sys2Proof.Machine.execRsqClearWrite addr value coincident s
  | .registerWrite addr value => Sys2Proof.Machine.execRegisterWrite addr value s
  | .lockSet value => Sys2Proof.Machine.execLockSet value s
  | .snapshotAbort coincident => Sys2Proof.Machine.execSnapshotAbort coincident s
  | .mainsLost since => Sys2Proof.Machine.execMainsLost since s
  | .mainsCycleEnd rms valid period => Sys2Proof.Machine.execMainsCycleEnd rms valid period s
  | .drydownTrigger since bus begun => Sys2Proof.Machine.execDrydownTrigger since bus begun s
  | .drydownGuard bus => Sys2Proof.Machine.execDrydownGuard bus s
  | .drydownAbandon saved => Sys2Proof.Machine.execDrydownAbandon saved s
  | .drydownComplete bus ms => Sys2Proof.Machine.execDrydownComplete bus ms s
  | .fieldSupplyMonitor sup cond set mv ma => Sys2Proof.Machine.execFieldSupplyMonitor sup cond set mv ma s
  | .startSequence o => Sys2Proof.Machine.execStartSequence o s
  | .flaconRetry o => Sys2Proof.Machine.execFlaconRetry o s
  | .flaconInserted jedec bytes => Sys2Proof.Machine.execFlaconInserted jedec bytes s
  | .plugAccepted b code => Sys2Proof.Machine.execPlugAccepted b code s
  | .plugRemoved b => Sys2Proof.Machine.execPlugRemoved b s
  | .excUnreg n on => Sys2Proof.Machine.execExcUnreg n on s
  | .loopLimit n on => Sys2Proof.Machine.execLoopLimit n on s
  | .excLimit n on => Sys2Proof.Machine.execExcLimit n on s
  | .blockDrawMeasure b ua => Sys2Proof.Machine.execBlockDrawMeasure b ua s
  | .foldback b on => Sys2Proof.Machine.execFoldback b on s
  | .excShed b => Sys2Proof.Machine.execExcShed b s
  | .shedRetry b => Sys2Proof.Machine.execShedRetry b s
  | .shedRetryCheck b => Sys2Proof.Machine.execShedRetryCheck b s
  | .calGainWrite n value => Sys2Proof.Machine.execCalGainWrite n value s
  | .calOffsetWrite n value => Sys2Proof.Machine.execCalOffsetWrite n value s
  | .afeCfgWrite n value => Sys2Proof.Machine.execAfeCfgWrite n value s
  | .afeExcWrite n value => Sys2Proof.Machine.execAfeExcWrite n value s
  | .afeRateWrite n value => Sys2Proof.Machine.execAfeRateWrite n value s
  | .cjMeasure b r1 r2 => Sys2Proof.Machine.execCjMeasure b r1 r2 s
  | .cjSpread b on => Sys2Proof.Machine.execCjSpread b on s
  | .restartPoint n bits => Sys2Proof.Machine.execRestartPoint n bits s
  | .outputSample n bits iexc vexc same => Sys2Proof.Machine.execOutputSample n bits iexc vexc same s
  | .spritzSlot k res => Sys2Proof.Machine.execSpritzSlot k res s
  | .coarseWindow n bits term iexc => Sys2Proof.Machine.execCoarseWindow n bits term iexc s
  | .afeHealthWrite n second value => Sys2Proof.Machine.execAfeHealthWrite n second value s
  | .repeatOutputTick meas => Sys2Proof.Machine.execRepeatOutputTick meas s
  | .diSample ins outs => Sys2Proof.Machine.execDiSample ins outs s
  | .diCfgWrite k value => Sys2Proof.Machine.execDiCfgWrite k value s
  | .doCurrentLimit k on => Sys2Proof.Machine.execDoCurrentLimit k on s
  | .doTsd k => Sys2Proof.Machine.execDoTsd k s
  | .doTsdCooled k => Sys2Proof.Machine.execDoTsdCooled k s
  | .doTsdLatchRelease k => Sys2Proof.Machine.execDoTsdLatchRelease k s
  | .doStale k => Sys2Proof.Machine.execDoStale k s
  | .doDiagnosticFilter k diag on => Sys2Proof.Machine.execDoDiagnosticFilter k diag on s
  | .fixKeepaliveLost k => Sys2Proof.Machine.execFixKeepaliveLost k s
  | .fixHoldEnd k => Sys2Proof.Machine.execFixHoldEnd k s
  | .fixSupplyRelease sup low => Sys2Proof.Machine.execFixSupplyRelease sup low s
  | .onDelayExpiry point => Sys2Proof.Machine.execOnDelayExpiry point s
  | .offDelayExpiry point => Sys2Proof.Machine.execOffDelayExpiry point s
  | .blockDelayExpiry point => Sys2Proof.Machine.execBlockDelayExpiry point s
  | .shelveExpiry point => Sys2Proof.Machine.execShelveExpiry point s
  | .almCmdAck index occ => Sys2Proof.Machine.execAlmCmdAck index occ s
  | .almCmdShelve index secs => Sys2Proof.Machine.execAlmCmdShelve index secs s
  | .almCmdUnshelve index => Sys2Proof.Machine.execAlmCmdUnshelve index s
  | .almRecWrite w value => Sys2Proof.Machine.execAlmRecWrite w value s
  | .memberReport rx m => Sys2Proof.Machine.execMemberReport rx m s
  | .alarmEvent rx item recs => Sys2Proof.Machine.execAlarmEvent rx item recs s
  | .firstOutWindowClose accord => Sys2Proof.Machine.execFirstOutWindowClose accord s
  | .groupDelayExpiry accord => Sys2Proof.Machine.execGroupDelayExpiry accord s
  | .mean rx item m => Sys2Proof.Machine.execMean rx item m s
  | .accordEvent rx item recs => Sys2Proof.Machine.execAccordEvent rx item recs s
  | .evaluatorRebuild accord => Sys2Proof.Machine.execEvaluatorRebuild accord s
  | .keyRelay rx panel k => Sys2Proof.Machine.execKeyRelay rx panel k s
  | .patrolWarn roster => Sys2Proof.Machine.execPatrolWarn roster s
  | .patrolCall roster => Sys2Proof.Machine.execPatrolCall roster s
  | .stageTimeout roster => Sys2Proof.Machine.execStageTimeout roster s
  | .deliveryReport rx d => Sys2Proof.Machine.execDeliveryReport rx d s
  | .itemState rx m => Sys2Proof.Machine.execItemState rx m s
  | .callManagerRebuild roster => Sys2Proof.Machine.execCallManagerRebuild roster s
  | .key id k sof => Sys2Proof.Machine.execKey id k sof s
  | .panelBeat id m sof => Sys2Proof.Machine.execPanelBeat id m sof s
  | .pageReq id set page sof => Sys2Proof.Machine.execPageReq id set page sof s
  | .panelLost port panel => Sys2Proof.Machine.execPanelLost port panel s
  | .canClash id sof => Sys2Proof.Machine.execCanClash id sof s
  | .clashClear port => Sys2Proof.Machine.execClashClear port s
  | .panelRefresh port panel code => Sys2Proof.Machine.execPanelRefresh port panel code s
  | .fifoAdmit port => Sys2Proof.Machine.execFifoAdmit port s
  | .callFrameWithdraw port frame begun => Sys2Proof.Machine.execCallFrameWithdraw port frame begun s
  | .canTxComplete port sof => Sys2Proof.Machine.execCanTxComplete port sof s
  | .canErrorFrame port err eights sof => Sys2Proof.Machine.execCanErrorFrame port err eights sof s
  | .busOff port => Sys2Proof.Machine.execBusOff port s
  | .busoffWaitExpiry port => Sys2Proof.Machine.execBusoffWaitExpiry port s
  | .busoffRecovered port => Sys2Proof.Machine.execBusoffRecovered port s
  | .phyUp k => Sys2Proof.Machine.execPhyUp k s
  | .phyDown k => Sys2Proof.Machine.execPhyDown k s
  | .hello rx m => Sys2Proof.Machine.execHello rx m s
  | .neighbourTimeout k => Sys2Proof.Machine.execNeighbourTimeout k s
  | .linkAlone k => Sys2Proof.Machine.execLinkAlone k s
  | .sync rx m => Sys2Proof.Machine.execSync rx m s
  | .lsa rx l => Sys2Proof.Machine.execLsa rx l s
  | .lsaTombstone addr serial => Sys2Proof.Machine.execLsaTombstone addr serial s
  | .tombstoneExpiry addr serial => Sys2Proof.Machine.execTombstoneExpiry addr serial s
  | .claim rx m => Sys2Proof.Machine.execClaim rx m s
  | .defend rx m => Sys2Proof.Machine.execDefend rx m s
  | .claimExclusionExpiry number => Sys2Proof.Machine.execClaimExclusionExpiry number s
  | .frameForward rx b => Sys2Proof.Machine.execFrameForward rx b s
  | .zoneUpdate rx l => Sys2Proof.Machine.execZoneUpdate rx l s
  | .zonePathExpiry zone neigh => Sys2Proof.Machine.execZonePathExpiry zone neigh s
  | .zoneSummary rx m => Sys2Proof.Machine.execZoneSummary rx m s
  | .nodeState rx m => Sys2Proof.Machine.execNodeState rx m s
  | .drydownNotice rx addr serial => Sys2Proof.Machine.execDrydownNotice rx addr serial s
  | .linkFrameEnd k => Sys2Proof.Machine.execLinkFrameEnd k s
  | .frameAgeDrop k q rx => Sys2Proof.Machine.execFrameAgeDrop k q rx s
  | .timeMark rx m => Sys2Proof.Machine.execTimeMark rx m s
  | .windowIdleFree key stream => Sys2Proof.Machine.execWindowIdleFree key stream s
  | .subscribe rx mask => Sys2Proof.Machine.execSubscribe rx mask s
  | .subscriberExpiry node => Sys2Proof.Machine.execSubscriberExpiry node s
  | .publication rx l => Sys2Proof.Machine.execPublication rx l s
  | .subscriptionTimeout entry => Sys2Proof.Machine.execSubscriptionTimeout entry s
  | .fabAddrWrite value => Sys2Proof.Machine.execFabAddrWrite value s
  | .outputCommand rx item c => Sys2Proof.Machine.execOutputCommand rx item c s
  | .alarmCommand rx item tag op => Sys2Proof.Machine.execAlarmCommand rx item tag op s
  | .callCommand rx item c => Sys2Proof.Machine.execCallCommand rx item c s
  | .pageContent rx m => Sys2Proof.Machine.execPageContent rx m s
  | .catalogue rx c => Sys2Proof.Machine.execCatalogue rx c s
  | .catalogueRelay rx c => Sys2Proof.Machine.execCatalogueRelay rx c s
  | .catalogueRequest rx held => Sys2Proof.Machine.execCatalogueRequest rx held s
  | .candidateHealthy by_ => Sys2Proof.Machine.execCandidateHealthy by_ s
  | .candidateExpiry origin => Sys2Proof.Machine.execCandidateExpiry origin s
  | .itemStarved item => Sys2Proof.Machine.execItemStarved item s
  | .trend rx m => Sys2Proof.Machine.execTrend rx m s
  | .placeCalcWrite addr value => Sys2Proof.Machine.execPlaceCalcWrite addr value s
  | .ownLoopReleased held => Sys2Proof.Machine.execOwnLoopReleased held s
  | .ownLoopOpen loopOpen => Sys2Proof.Machine.execOwnLoopOpen loopOpen s
  | .beat rx m => Sys2Proof.Machine.execBeat rx m s
  | .pairPathLost path => Sys2Proof.Machine.execPairPathLost path s
  | .listenEnd loopHeld => Sys2Proof.Machine.execListenEnd loopHeld s
  | .probe rx m => Sys2Proof.Machine.execProbe rx m s
  | .probeReply rx m => Sys2Proof.Machine.execProbeReply rx m s
  | .seizeEnd loopHeld => Sys2Proof.Machine.execSeizeEnd loopHeld s
  | .handoverReq rx m => Sys2Proof.Machine.execHandoverReq rx m s
  | .grant rx m => Sys2Proof.Machine.execGrant rx m s
  | .released rx m => Sys2Proof.Machine.execReleased rx m s
  | .checkpoint rx c complete crcOk => Sys2Proof.Machine.execCheckpoint rx c complete crcOk s
  | .eventMirror rx fmt e => Sys2Proof.Machine.execEventMirror rx fmt e s
  | .tickMirror rx m => Sys2Proof.Machine.execTickMirror rx m s
  | .doubleSendEnd early => Sys2Proof.Machine.execDoubleSendEnd early s
  | .pairForceWrite value => Sys2Proof.Machine.execPairForceWrite value s
  | .calTest block missed => Sys2Proof.Machine.execCalTest block missed s
  | .timeSecondTick vcap => Sys2Proof.Machine.execTimeSecondTick vcap s
  | .crystalStop stopped => Sys2Proof.Machine.execCrystalStop stopped s
  | .timeIslandPowerUp vcap => Sys2Proof.Machine.execTimeIslandPowerUp vcap s
  | .vcapLow vcap => Sys2Proof.Machine.execVcapLow vcap s
  | .timeSetWrite value => Sys2Proof.Machine.execTimeSetWrite value s
  | .timeAdjWrite value => Sys2Proof.Machine.execTimeAdjWrite value s
  | .timeSetTodWrite value => Sys2Proof.Machine.execTimeSetTodWrite value s
  | .timeConvWrite value => Sys2Proof.Machine.execTimeConvWrite value s
  | .talmWrite j reg value => Sys2Proof.Machine.execTalmWrite j reg value s
  | .updateRequest x8 w8 y0 h clean => Sys2Proof.Machine.execUpdateRequest x8 w8 y0 h clean s
  | .regionComplete slot => Sys2Proof.Machine.execRegionComplete slot s
  | .dispAbortWrite slots coincident => Sys2Proof.Machine.execDispAbortWrite slots coincident s
  | .frontAckPress down => Sys2Proof.Machine.execFrontAckPress down s
  | .frontSilencePress down => Sys2Proof.Machine.execFrontSilencePress down s
  | .touchKey key down => Sys2Proof.Machine.execTouchKey key down s
  | .touchStuck key => Sys2Proof.Machine.execTouchStuck key s
  | .panelTempRead tenths broken => Sys2Proof.Machine.execPanelTempRead tenths broken s
  | .pageRenderSend item every => Sys2Proof.Machine.execPageRenderSend item every s
  | .logSelWrite value => Sys2Proof.Machine.execLogSelWrite value s
  | .discover q broadcast => Sys2Proof.Machine.execDiscover q broadcast s
  | .read q addr count => Sys2Proof.Machine.execRead q addr count s
  | .write q addr words => Sys2Proof.Machine.execWrite q addr words s
  | .logRead q first count => Sys2Proof.Machine.execLogRead q first count s
  | .trendRead q item period count => Sys2Proof.Machine.execTrendRead q item period count s
  | .reset q serial => Sys2Proof.Machine.execReset q serial s
  | .challenge q nonce => Sys2Proof.Machine.execChallenge q nonce s
  | .keyInstall q k => Sys2Proof.Machine.execKeyInstall q k s
  | .keyRemove q k => Sys2Proof.Machine.execKeyRemove q k s
  | .updBegin q baseVer newVer blocks => Sys2Proof.Machine.execUpdBegin q baseVer newVer blocks s
  | .updBlock q f => Sys2Proof.Machine.execUpdBlock q f s
  | .updFinish q => Sys2Proof.Machine.execUpdFinish q s
  | .mgmtRequest rx tag op => Sys2Proof.Machine.execMgmtRequest rx tag op s
  | .mgmtReply rx m => Sys2Proof.Machine.execMgmtReply rx m s
  | .mgmtTimeout origin tag => Sys2Proof.Machine.execMgmtTimeout origin tag s
  | .updActivate cut => Sys2Proof.Machine.execUpdActivate cut s
  | .updAbort coincident => Sys2Proof.Machine.execUpdAbort coincident s
  | .arbitrationLost port sof => Sys2Proof.Machine.execArbitrationLost port sof s
  | .meanOffsetReport rx offset => Sys2Proof.Machine.execMeanOffsetReport rx offset s
  | .rendererCallStateSend roster => Sys2Proof.Machine.execRendererCallStateSend roster s
  | .rendererCallState rx item stage call part parts points => Sys2Proof.Machine.execRendererCallState rx item stage call part parts points s
  | .replyCacheExpiry origin tag => Sys2Proof.Machine.execReplyCacheExpiry origin tag s
  | .badDatagram q op fault => Sys2Proof.Machine.execBadDatagram q op fault s
  | .arp conflict => Sys2Proof.Machine.execArp conflict s
  | .lockstepFailure => Sys2Proof.Machine.execLockstepFailure s
  | .eccUncorrReset => Sys2Proof.Machine.execEccUncorrReset s
  | .checkpointSecond => Sys2Proof.Machine.execCheckpointSecond s
  | .eventRegisterLatch => Sys2Proof.Machine.execEventRegisterLatch s
  | .lockPolicyTimer => Sys2Proof.Machine.execLockPolicyTimer s
  | .snapshotStart => Sys2Proof.Machine.execSnapshotStart s
  | .snapshotComplete => Sys2Proof.Machine.execSnapshotComplete s
  | .voteFailReset => Sys2Proof.Machine.execVoteFailReset s
  | .mainsLostClear => Sys2Proof.Machine.execMainsLostClear s
  | .rideThroughEnd => Sys2Proof.Machine.execRideThroughEnd s
  | .restartRelease => Sys2Proof.Machine.execRestartRelease s
  | .supplyCollapse => Sys2Proof.Machine.execSupplyCollapse s
  | .opSecondsTick => Sys2Proof.Machine.execOpSecondsTick s
  | .flaconRemoved => Sys2Proof.Machine.execFlaconRemoved s
  | .freezeLine => Sys2Proof.Machine.execFreezeLine s
  | .alarmCycleTick => Sys2Proof.Machine.execAlarmCycleTick s
  | .eventCopyRelease => Sys2Proof.Machine.execEventCopyRelease s
  | .eventCopyDiscard => Sys2Proof.Machine.execEventCopyDiscard s
  | .memberReportSend => Sys2Proof.Machine.execMemberReportSend s
  | .meanPeriod => Sys2Proof.Machine.execMeanPeriod s
  | .meanRequestSend => Sys2Proof.Machine.execMeanRequestSend s
  | .accordStateReport => Sys2Proof.Machine.execAccordStateReport s
  | .summaryOutputPeriod => Sys2Proof.Machine.execSummaryOutputPeriod s
  | .itemStateSend => Sys2Proof.Machine.execItemStateSend s
  | .dutyReportSend => Sys2Proof.Machine.execDutyReportSend s
  | .nodeBeatSend => Sys2Proof.Machine.execNodeBeatSend s
  | .helloSend => Sys2Proof.Machine.execHelloSend s
  | .lsaOriginate => Sys2Proof.Machine.execLsaOriginate s
  | .routeCompute => Sys2Proof.Machine.execRouteCompute s
  | .claimStart => Sys2Proof.Machine.execClaimStart s
  | .claimRetransmit => Sys2Proof.Machine.execClaimRetransmit s
  | .claimWin => Sys2Proof.Machine.execClaimWin s
  | .addrRetry => Sys2Proof.Machine.execAddrRetry s
  | .zoneUpdateSend => Sys2Proof.Machine.execZoneUpdateSend s
  | .zoneSummarySend => Sys2Proof.Machine.execZoneSummarySend s
  | .nodeStateSend => Sys2Proof.Machine.execNodeStateSend s
  | .timeMarkSend => Sys2Proof.Machine.execTimeMarkSend s
  | .zoneOffsetReport => Sys2Proof.Machine.execZoneOffsetReport s
  | .subscribeSend => Sys2Proof.Machine.execSubscribeSend s
  | .publicationSend => Sys2Proof.Machine.execPublicationSend s
  | .catalogueSend => Sys2Proof.Machine.execCatalogueSend s
  | .placementRecompute => Sys2Proof.Machine.execPlacementRecompute s
  | .refusalWithdraw => Sys2Proof.Machine.execRefusalWithdraw s
  | .trendSend => Sys2Proof.Machine.execTrendSend s
  | .ownSeized => Sys2Proof.Machine.execOwnSeized s
  | .pairBeatSend => Sys2Proof.Machine.execPairBeatSend s
  | .healthWordUpdate => Sys2Proof.Machine.execHealthWordUpdate s
  | .standbyFaulted => Sys2Proof.Machine.execStandbyFaulted s
  | .probeTimeout => Sys2Proof.Machine.execProbeTimeout s
  | .grantTimeout => Sys2Proof.Machine.execGrantTimeout s
  | .handoverComplete => Sys2Proof.Machine.execHandoverComplete s
  | .handoverOutEnd => Sys2Proof.Machine.execHandoverOutEnd s
  | .checkpointSend => Sys2Proof.Machine.execCheckpointSend s
  | .revertRequest => Sys2Proof.Machine.execRevertRequest s
  | .timeFracRead => Sys2Proof.Machine.execTimeFracRead s
  | .timeSecHiRead => Sys2Proof.Machine.execTimeSecHiRead s
  | .fabricTimeAdopt => Sys2Proof.Machine.execFabricTimeAdopt s
  | .ftDiffUpdate => Sys2Proof.Machine.execFtDiffUpdate s
  | .displayFrameBoundary => Sys2Proof.Machine.execDisplayFrameBoundary s
  | .panelTest => Sys2Proof.Machine.execPanelTest s
  | .pinEntry => Sys2Proof.Machine.execPinEntry s
  | .pinLockoutEnd => Sys2Proof.Machine.execPinLockoutEnd s
  | .imageCheck => Sys2Proof.Machine.execImageCheck s
  | .railsSleep => Sys2Proof.Machine.execRailsSleep s
  | .railFault => Sys2Proof.Machine.execRailFault s
  | .railRetry => Sys2Proof.Machine.execRailRetry s
  | .recorderTakeEvent => Sys2Proof.Machine.execRecorderTakeEvent s
  | .logIndexRebuild => Sys2Proof.Machine.execLogIndexRebuild s
  | .logWindowLoaded => Sys2Proof.Machine.execLogWindowLoaded s
  | .nonceExpiry => Sys2Proof.Machine.execNonceExpiry s
  | .updVerifyDone => Sys2Proof.Machine.execUpdVerifyDone s
  | .updSessionTimeout => Sys2Proof.Machine.execUpdSessionTimeout s
  | .trialConfirm => Sys2Proof.Machine.execTrialConfirm s
  | .crystalRestart => Sys2Proof.Machine.execCrystalRestart s
  | .busMonitoringExit => Sys2Proof.Machine.execBusMonitoringExit s
  | .selectHeld => Sys2Proof.Machine.execSelectHeld s
  | .handoverReqSend => Sys2Proof.Machine.execHandoverReqSend s
  | .icmpEcho => Sys2Proof.Machine.execIcmpEcho s

end Sys2Proof.Machine
end

