-- ==== Sys2Proof/Machine/Idle.lean ====
section
/-! DEFINITION. Machine/Idle.lean: what a step does when no command waits. -/
namespace Sys2Proof.Machine

/-- The reset that a RESET over the fabric ordered comes (R411), or time passes: 1 µs for each idle step. -/
def idle (s : State) : State := if s.svc.resetDue then nodeReset 9 0 s else { s with clock := s.clock + 1000 }

/-- The next request that waits at port S, where the port runs, and the state that executes it (R410). -/
def svcNext (s : State) : Option (Instr × State) :=
  match s.svc.queue with
  | c :: r => some (c, { s with svc := { s.svc with queue := r, taking := true } })
  | [] => none

/-- The request has been executed. -/
def svcTaken (s : State) : State := { s with svc := { s.svc with taking := false } }

end Sys2Proof.Machine
end

