-- ==== Sys2Proof/Machine/Step.lean ====
section
/-! DEFINITION. Machine/Step.lean: one step of the block: the command at the front of the queue, or idling. -/
namespace Sys2Proof.Machine

/-- A frame out of its receive queue runs as its command; nothing is being taken afterwards. -/
def takeStep (x : RxFrame) (s : State) : Host.Outcome State Fault Refusal :=
  match exec x.cmd { s with taking := some (s.clock - x.at_) } with
  | .next t => .next { t with taking := none }
  | o => o

/-- A request out of the queue of port S runs as its command. -/
def svcStep (c : Instr) (s : State) : Host.Outcome State Fault Refusal :=
  match exec c s with
  | .next t => .next (svcTaken t)
  | o => o

/-- One step: run the command at the front of the queue with the queue's rest; with no command waiting, run what the node
delivers to itself, then what waits in a receive queue, then a request that waits at port S, or let time pass. -/
def step (s : State) : Host.Outcome State Fault Refusal :=
  match s.pending with
  | c :: r => exec c { s with pending := r }
  | [] =>
    match s.selfQ with
    | c :: r => exec c { s with selfQ := r }
    | [] =>
      match rxNext s with
      | some (x, t) => takeStep x t
      | none =>
        match svcNext s with
        | some (c, t) => svcStep c t
        | none => .next (idle s)

/-- The state with the command that a table word spells at the front of the queue; no word spells one. -/
def State.withFetchWord (s : State) (nbits w : Nat) : State :=
  match decodeTableWord nbits w with
  | some c => { s with pending := c :: s.pending }
  | none => s

end Sys2Proof.Machine
end

