-- ==== Sys2Proof/Safety.lean ====
section
/-! DEFINITION. Safety.lean: the terms in which statements speak of the machine. -/
namespace Sys2Proof

open Sys2Proof.Machine

/-- The command runs to completion in this state, and the next state has the property. -/
def Does (c : Instr) (s : State) (P : State → Prop) : Prop := ∃ t, exec c s = .next t ∧ P t

/-- The islands are released, and no Drydown runs. -/
def Released (s : State) : Prop := s.sys.phase ≠ .held ∧ s.sys.phase ≠ .drydown

/-- A counter register goes up by one, or stays at 0xFFFF_FFFF (R44). -/
def Counted (a : Nat) (s t : State) : Prop := ctrGet t a = if ctrGet s a = 0xFFFFFFFF then 0xFFFFFFFF else ctrGet s a + 1

/-- An event of a latched event register has arisen and waits for the end of its frame (R42). -/
def Latched (a : Nat) (b : Fin 24) (t : State) : Prop := (rsqGet t a).pend.getLsbD b.val = true

/-- One event of this kind and severity has been offered to the event queue: queued behind the others, or, with 1,024 held, lost (R20). -/
def Offered (kind : BitVec 8) (sev : BitVec 2) (s t : State) : Prop :=
  (s.rcd.queue.length < 1024 →
    ∃ e, t.rcd.queue = s.rcd.queue ++ [e] ∧ e.kind = kind ∧ e.sev = sev ∧ e.queuedAt = s.clock) ∧
  (1024 ≤ s.rcd.queue.length → t.rcd.queue = s.rcd.queue ∧ t.rcd.lostSince = s.rcd.lostSince + 1)

/-- A reset of the node with its cause (Table 2.11): OWN is released, the queue is lost with main SRAM while the supervisor keeps its
length, the islands are released 1 ms on, and the saved settings stand. -/
def ResetWith (cause wd_ : BitVec 8) (s t : State) : Prop :=
  t.sys.resetCause = cause ∧ t.sys.wdSource = wd_ ∧ t.sys.phase = .released ∧ t.sys.releasedAt = s.clock + 1000000 ∧
  t.pair.ownHeld = false ∧ t.sys.lock = false ∧ t.rcd.queue = [] ∧ t.sup.evqKept = s.sup.evqKept + s.rcd.queue.length ∧
  t.store = s.store ∧ t.clock = s.clock ∧ t.pending = s.pending

/-- The bounds that the spec sets to what waits or is kept: the event queue (R20), the alarm commands (R187), the duplicate windows (R287),
the pending entries of the display (R381, R383) and the kept replies (R410). -/
def Bounded (s : State) : Prop :=
  s.rcd.queue.length ≤ 1024 ∧ s.alm.cmds.length ≤ 256 ∧ s.fab.windows.length ≤ 2048 ∧ s.disp.pend.length ≤ 8 ∧ s.svc.kept.length ≤ 16

end Sys2Proof
end

