-- ==== Sys2Proof/Certificates/Slice0/Obligations.lean ====
section
/-! DEFINITION. Certificates/Slice0/Obligations.lean: the statements for the provers. -/

open Sys2Proof Sys2Proof.Machine

/-- A step with a command at the front of the queue is that command's meaning on the state with the queue's rest. -/
def Obligations.StepRunsFront : Prop :=
  ∀ (c : Instr) (s : State), step { s with pending := c :: s.pending } = exec c s

/-- The model's own choice (log entries 2, 3, 131 and 135): what a step does when no command waits. -/
def Obligations.EmptyQueueStep : Prop :=
  ∀ s : State, s.pending = [] →
    (∀ (c : Instr) (r : List Instr), s.selfQ = c :: r → step s = exec c { s with selfQ := r }) ∧
    (s.selfQ = [] →
      (∀ (x : RxFrame) (t u : State), rxNext s = some (x, t) → exec x.cmd { t with taking := some (t.clock - x.at_) } = .next u →
        step s = .next { u with taking := none }) ∧
      (rxNext s = none →
        (∀ (c : Instr) (r : List Instr) (u : State), s.svc.queue = c :: r →
          exec c { s with svc := { s.svc with queue := r, taking := true } } = .next u →
          step s = .next { u with svc := { u.svc with taking := false } }) ∧
        (s.svc.queue = [] →
          step s = .next (if s.svc.resetDue then nodeReset 9 0 s else { s with clock := s.clock + 1000 }))))

/-- R16, R26, R27, R30, R51, R54: the six failures that reset the node, each with its cause of Table 2.11. -/
def Obligations.ResetsTakeTheirCause : Prop :=
  ∀ s : State, Released s →
    Does .lockstepFailure s (ResetWith 4 0 s) ∧
    (∀ w a, ownArea w a = false → Does (.partitionViolation w a) s (ResetWith 4 0 s)) ∧
    (∀ i : Island, i ≠ .time → i ≠ .supervisor → Does (.clockFailure i) s (ResetWith 5 0 s)) ∧
    (∀ ch, wdArmed s ch = true → Does (.watchdogExpiry ch) s (ResetWith 3 (wdCode ch) s)) ∧
    (s.sys.eccReset.isSome → Does .eccUncorrReset s (ResetWith 6 0 s)) ∧
    (s.sys.voteFail.isSome → Does .voteFailReset s (ResetWith 7 0 s))

/-- R20, R51, R54: the record that goes straight into the log before a reset the node makes itself. -/
def Obligations.FailureRecordGoesStraightIntoLog : Prop :=
  ∀ (c : Instr) (s : State), Released s → s.rcd.index.fill < 16384 →
    ((c = .eccUncorrReset ∧ s.sys.eccReset.isSome) ∨ (c = .voteFailReset ∧ s.sys.voteFail.isSome)) →
    Does c s (fun t => t.rcd.index.next = s.rcd.index.next + 1 ∧ t.rcd.index.fill = s.rcd.index.fill + 1 ∧
      t.rcd.index.sev3 = s.rcd.index.sev3 + 1 ∧
      ∃ r, tabLook t.rcd.slots s.rcd.index.fill = some r ∧ recSeq r = s.rcd.index.next ∧ recSev r = 3 ∧ r.bad = false)

/-- R27: serving a channel of the watchdog. -/
def Obligations.WatchdogServiceRestartsChannel : Prop :=
  ∀ (s : State) (v : BitVec 16),
    let served := fun (w : Wd) => if v = w.last + 1 then (⟨v, s.clock⟩ : Wd) else { w with last := v }
    Does (.watchdogService .control v) s (fun t => t = { s with sys := { s.sys with wdControl := served s.sys.wdControl } }) ∧
    Does (.watchdogService .data v) s (fun t => t = { s with sys := { s.sys with wdData := served s.sys.wdData } }) ∧
    Does (.watchdogService .management v) s (fun t => t = { s with sys := { s.sys with wdMgmt := served s.sys.wdMgmt } }) ∧
    Does (.watchdogService .engine v) s (fun t => t = { s with sys := { s.sys with wdEngine := ⟨v, s.clock⟩ } })

/-- R43: an event and a matching clear write on the same cycle. -/
def Obligations.EventAndClearOnOneCycle : Prop :=
  ∀ (s : State) (a : BitVec 24) (v : Word), isRsq a.toNat = true → (rsqGet s a.toNat).pend ≠ 0 →
    fld v 24 8 = (rsqGet s a.toNat).seq.toNat →
    Does (.rsqClearWrite a v true) s (fun t =>
      (rsqGet t a.toNat).bits = (rsqGet s a.toNat).bits ||| (rsqGet s a.toNat).pend ∧
      (rsqGet t a.toNat).seq = (if (rsqGet s a.toNat).seq = 0xFF then 1 else (rsqGet s a.toNat).seq + 1) ∧
      (rsqGet t a.toNat).pend = 0 ∧ t = { s with rsq := t.rsq })

/-- R42: the latch at the end of a frame, and the clear write. -/
def Obligations.LatchAndClearOfEventRegisters : Prop :=
  (∀ s : State, Does .eventRegisterLatch s (fun t => t = { s with rsq := t.rsq } ∧ ∀ a,
    let r := rsqGet s a
    rsqGet t a = if r.pend = 0 then r
      else { seq := if r.seq = 0xFF then 1 else r.seq + 1, bits := r.bits ||| r.pend, pend := 0 })) ∧
  (∀ (s : State) (a : BitVec 24) (v : Word), isRsq a.toNat = true →
    Does (.rsqClearWrite a v false) s (fun t => t = { s with rsq := t.rsq } ∧
      (rsqGet t a.toNat = if fld v 24 8 = (rsqGet s a.toNat).seq.toNat then { rsqGet s a.toNat with bits := 0 } else rsqGet s a.toNat) ∧
      ∀ a', a' ≠ a.toNat → rsqGet t a' = rsqGet s a'))

/-- R48, R49: what sets the lock. -/
def Obligations.LockSetByWriteAndPolicy : Prop :=
  ∀ (s : State) (v : Word),
    Does (.lockSet v) s (fun t => t = if v.getLsbD 0 then { s with sys := { s.sys with lock := true } } else s) ∧
    Does .lockPolicyTimer s (fun t => t = if s.sys.policy = 2 then { s with sys := { s.sys with lock := true } } else s)

/-- R45 to R47: SYS_SNAP. -/
def Obligations.SnapshotCommands : Prop :=
  ∀ s : State,
    (s.sys.snap.busy = false → Does .snapshotStart s (fun t => t.sys.snap.busy = true ∧ t.sys.snap.aborted = false ∧
      t.sys.snap.late = false ∧ t.sys.snap.hold = s.sys.snap.hold ∧ t.sys.snap.num = s.sys.snap.num ∧
      t = { s with sys := t.sys, fresh := t.fresh })) ∧
    (s.sys.snap.busy = true → Does .snapshotStart s (fun t => Counted aSYS_SNAP_OVERRUN s t ∧ Latched aSYS_EVENT 7 t ∧
      t = { s with ctr := t.ctr, rsq := t.rsq })) ∧
    (s.sys.snap.busy = true → Does .snapshotComplete s (fun t => t.sys.snap.busy = false ∧ t.sys.snap.hold.valid = true ∧
      t.sys.snap.hold.entries = s.sys.snap.work.entries ∧ t.sys.snap.num = s.sys.snap.num + 1 ∧ t = { s with sys := t.sys })) ∧
    (s.sys.snap.busy = true → Does (.snapshotAbort false) s (fun t => t.sys.snap.busy = false ∧ t.sys.snap.aborted = true ∧
      t.sys.snap.hold.valid = false ∧ t.sys.snap.hold.entries = [] ∧ t.sys.snap.num = s.sys.snap.num ∧ t = { s with sys := t.sys })) ∧
    (s.sys.snap.busy = true → Does (.snapshotAbort true) s (fun t => t.sys.snap.busy = false ∧
      t.sys.snap.aborted = s.sys.snap.aborted ∧ t.sys.snap.hold.valid = true ∧ t.sys.snap.late = true ∧ Latched aSYS_EVENT 6 t ∧
      t = { s with sys := t.sys, rsq := t.rsq })) ∧
    (s.sys.snap.busy = false → ∀ b, Does (.snapshotAbort b) s (fun t => t = s))

/-- R53, R54: one read of the scrubber, in the middle of a pass and at its end. -/
def Obligations.ScrubReadCountsAndActs : Prop :=
  ∀ (s : State) (m : Fin 8) (w : BitVec 24) (d : Word) (k : BitVec 12) (b : Bool),
    (eccRead d k = .clean → Does (.scrubRead m w d k b false) s (fun t => t = s)) ∧
    (∀ i x, eccRead d k = .fixed i x → Does (.scrubRead m w d k b false) s (fun t => Counted (aECC m 0) s t ∧
      t.sys.eccLast[m] = wd (i * 2 ^ 28 + w.toNat) ∧ Latched aSYS_EVENT 4 t ∧
      (b = false → m = 7 → w.toNat < 16 → tabGet 0 t.tim.backup w.toNat = x) ∧
      t = { (if b then s else writeBack m w.toNat x s) with sys := t.sys, ctr := t.ctr, rsq := t.rsq })) ∧
    (eccRead d k = .uncorrectable → Does (.scrubRead m w d k b false) s (fun t => Counted (aECC m 4) s t ∧
      t.sys.eccLast[m] = wd (15 * 2 ^ 28 + w.toNat) ∧ Latched aSYS_EVENT 5 t ∧
      (m = 0 → t.sys.eccReset = some w) ∧ (m = 1 → (pointGet t (w.toNat / 16)).memFault = true) ∧
      (m = 2 → ∀ r, tabLook s.rcd.slots (w.toNat / 32) = some r → ∃ r', tabLook t.rcd.slots (w.toNat / 32) = some r' ∧ r'.bad = true) ∧
      (m = 3 → if w.toNat < 0x20000 then t.store.ckptA = none else t.store.ckptB = none) ∧
      (m = 6 → t.disp.wave = s.disp.waveCopy) ∧ (m = 7 → t.tim.backup = []))) ∧
    Does (.scrubRead m w d k b true) s (fun t => t.sys.scrubBehind[m] = false ∧ Counted (aECC m 0xC) s t) ∧
    Does (.scrubBehind m) s (fun t => t.sys.scrubBehind[m] = true ∧ t = { s with sys := t.sys })

/-- R60 to R62: the mains monitors and the end of a ride-through. -/
def Obligations.MainsMonitorsAndRideThrough : Prop :=
  ∀ s : State,
    (∀ n, s.sys.phase ≠ .held → s.sup.mainsLost = false → Does (.mainsLost n) s (fun t =>
      t.sup.mainsLost = true ∧ t.sup.riding = true ∧ t.sup.freqValid = false ∧ t.sup.freq = s.sup.freq ∧
      t.sup.lastHalf = s.clock - n ∧ Latched aSUP_EVENT 0 t ∧ Offered 0x10 1 s t)) ∧
    Does .mainsLostClear s (fun t => t = { s with sup := { s.sup with mainsLost := false } }) ∧
    (∀ rms p, Does (.mainsCycleEnd rms false p) s (fun t => t.sup.mainsV = rms ∧ t.sup.freq = s.sup.freq ∧
      t.sup.freqOut = s.sup.freqOut ∧ t.sup.periods = s.sup.periods)) ∧
    (∀ rms v p, rms.toNat < 850 → s.sup.lowCnt = 2 → s.sup.mainsLow = false → s.sys.phase ≠ .held →
      Does (.mainsCycleEnd rms v p) s (fun t => t.sup.mainsLow = true ∧ Latched aSUP_EVENT 1 t)) ∧
    (∀ rms p, (1000000000000 < p * 45000 ∨ p * 66000 < 1000000000000) → s.sup.freqCnt = 3 → s.sup.freqOut = false →
      s.sys.phase ≠ .held →
      Does (.mainsCycleEnd rms true p) s (fun t => t.sup.freqOut = true ∧ t.sup.freqValid = false ∧ t.sup.freq = s.sup.freq ∧
        Latched aSUP_EVENT 2 t)) ∧
    (∀ rms p, p * 45000 ≤ 1000000000000 → 1000000000000 ≤ p * 66000 → s.sup.freqCnt = 3 → s.sup.freqOut = true →
      Does (.mainsCycleEnd rms true p) s (fun t => t.sup.freqOut = false ∧ t.sup.freqValid = !s.sup.mainsLost)) ∧
    (Released s → s.sup.riding = true → Does .rideThroughEnd s (fun t => t.sup.riding = false ∧ Counted aSUP_RIDE_COUNT s t ∧
      Latched aSUP_EVENT 3 t ∧ Offered 0x10 0 s t))

/-- R63, R66, R67: the trigger and the save of Table 3.3. -/
def Obligations.DrydownTriggerSavesAndReleases : Prop :=
  ∀ (s : State) (n : Nat) (bus : BitVec 16) (begun : BitVec 2),
    (s.sys.phase = .running → Does (.drydownTrigger n bus begun) s (fun t =>
      t.sys.phase = .drydown ∧ t.store.rideLast.toNat = min (n / 1000000) 65535 ∧
      (∃ c, (t.store.ckptA = some c ∨ t.store.ckptB = some c) ∧
        c.gen = (match latestCkpt s with | some k => k.gen + 1 | none => 1) ∧ c.cfgId = s.cfg.id ∧ c.cfgIssue = s.cfg.issue) ∧
      (∀ k, (dout t k).fix ≠ .track) ∧ t.pair.ownHeld = false ∧ t.fab.up = false ∧ t.alm.running = false ∧
      (∀ k, (linkGet t k).phyUp = false ∧ ((linkGet s k).phyUp = true → ∀ q, rxQueue (linkGet t k) q = [] ∧ txQueue (linkGet t k) q = [])) ∧
      (∀ p, (pbPort t p).up = true → (pbPort t p).callq = [] ∧ (pbPort t p).otherq = [] ∧ ∃ l,
        (pbPort t p).fifo = (if begun.getLsbD p.val then (pbPort s p).fifo.take 1 else []) ++ l ∧
        l.length = (if canSend s p none 0x0020 then 1 else 0) ∧ ∀ f ∈ l, f.panel = none ∧ f.msg = .nodeBeat (ownSource s) 2) ∧
      (s.rcd.running = true → t.rcd.queue = [] ∧ t.rcd.index.closed = true) ∧
      t.store.evqLost = ctrGet t aEVQ_LOST)) ∧
    (s.sys.phase = .drydown → Does (.drydownTrigger n bus begun) s (fun t => t = s))

/-- R67, R68, R72, R75: the ends of a Drydown, the release, and a supply that collapses. -/
def Obligations.DrydownEndsAndRestart : Prop :=
  ∀ s : State,
    (s.sys.phase = .drydown →
      (∀ bus ms, Does (.drydownComplete bus ms) s (fun t => t.sys.phase = .held ∧ t.sup.prior = .drydown ∧
        t.store = { s.store with ddLast := ddWord 1 s.sup.ddPanel bus ms } ∧ ctrGet t aSUP_DD_COUNT = 1 ∧ t.pair.ownHeld = false)) ∧
      (∀ ms, Does (.drydownAbandon ms) s (fun t => t.sys.phase = .held ∧ t.sup.prior = .abandoned ∧ t.sup.ddCause = none ∧
        t.sup.busEnd = 210 ∧ t.sup.ddMs = ms ∧ t.store = s.store)) ∧
      (∀ bus, Does (.drydownGuard bus) s (fun t => t.sys.phase = .drydown ∧ t.sup.busV = bus ∧ t.store = s.store))) ∧
    (s.sys.phase = .held → Does .restartRelease s (fun t => t.sys.phase = .released ∧ t.sys.releasedAt = s.clock ∧
      t.sup.riding = false ∧
      t.sys.resetCause = (if s.sup.prior = .drydown then 2 else match s.sup.ddCause with | some c => c | none => 1) ∧
      t = { s with sys := t.sys, sup := t.sup })) ∧
    (¬(s.sys.phase = .held ∧ s.sup.prior = .drydown) → Does .supplyCollapse s (fun t => t.sys.phase = .held ∧
      t.sup.prior = (if s.sys.phase = .drydown ∨ s.sup.prior = .abandoned then .abandoned else .powerOn) ∧ t.sup.evqKept = 0 ∧ t.sys.starts = 0 ∧ t.pair.ownHeld = false ∧ t.store = s.store))

/-- R86: what the removal of the Flacon does to a running node. -/
def Obligations.FlaconRemovalEffects : Prop :=
  ∀ s : State, s.sys.phase = .running → s.flacon.present = true →
    Does .flaconRemoved s (fun t => t.flacon = { s.flacon with present := false } ∧ Latched aSYS_EVENT 1 t ∧ Offered 0x10 1 s t ∧
      t = { s with flacon := t.flacon, rsq := t.rsq, ctr := t.ctr,
                   rcd := { s.rcd with queue := t.rcd.queue, lostSince := t.rcd.lostSince } } ∧
      (∀ a, a ≠ aSYS_EVENT → a ≠ aLOG_EVENT → rsqGet t a = rsqGet s a) ∧ ∀ a, a ≠ aEVQ_LOST → ctrGet t a = ctrGet s a)

/-- R29, R76, R83, R85: counts of a second, and a plug that is put in. -/
def Obligations.SecondsCheckpointsAndFlaconInserted : Prop :=
  ∀ s : State,
    Does .opSecondsTick s (fun t => t = if s.sys.phase = .held then s
      else { s with store := { s.store with opSeconds := s.store.opSeconds + 1 } }) ∧
    (s.sys.phase = .running → s.afe.pause = false → Does .checkpointSecond s (fun t =>
      t = { s with store := { s.store with ckptA := t.store.ckptA, ckptB := t.store.ckptB } } ∧
      ∃ c, c.gen = (match latestCkpt s with | some k => k.gen + 1 | none => 1) ∧
        ((latestIsB s = false ∧ s.store.ckptA.isSome ∧ t.store.ckptB = some c ∧ t.store.ckptA = s.store.ckptA) ∨
         (¬(latestIsB s = false ∧ s.store.ckptA.isSome) ∧ t.store.ckptA = some c ∧ t.store.ckptB = s.store.ckptB)))) ∧
    ∀ j l, Does (.flaconInserted j l) s (fun t => t = { s with flacon := { s.flacon with present := true, jedec := j, bytes := l } })

/-- R77: the monitors of Table 3.5. -/
def Obligations.FieldSupplyMonitorSetsAndClears : Prop :=
  ∀ (s : State) (x : Supply) (c : SupplyCond) (on : Bool) (mv ma : BitVec 16),
    Does (.fieldSupplyMonitor x c on mv ma) s (fun t =>
      fsBit (supplyGet t x) c = on ∧ (∀ c', c' ≠ c → fsBit (supplyGet t x) c' = fsBit (supplyGet s x) c') ∧
      (supplyGet t x).mv = mv ∧ (supplyGet t x).ma = ma ∧ (∀ y, y ≠ x → supplyGet t y = supplyGet s y) ∧
      (on = true → fsBit (supplyGet s x) c = false → s.sys.phase ≠ .held → Latched aSUP_EVENT 4 t ∧ Offered 0x10 1 s t) ∧
      (¬(on = true ∧ fsBit (supplyGet s x) c = false) → t.rcd = s.rcd) ∧
      (on = true → c = .absent → ∀ k ∈ outputsOf x, doOn t k = false))

/-- R76, R79, R84, R90, R99: the start sequence and the retry in safe idle. -/
def Obligations.StartCountsAndReadsTheFlacon : Prop :=
  let outcome := fun (o : StartObs) (s : State) (v : Word) (t : State) =>
    let r := readFlacon s.flacon.jedec s.flacon.bytes (keyBytes s) v o.removed
    (∀ f, r.fail = some f → t.sys.phase = .safeIdle ∧ t.flacon.reason = f.1 ∧ t.flacon.detail = f.2) ∧
    (∀ c, r.fail = none → r.good = some c → t.sys.phase = (if o.stop then .live else .running) ∧ t.cfg.live = true ∧ t.cfg.id = c.1.id ∧
      t.cfg.issue = c.1.issue ∧ t.flacon.reason = 0)
  ∀ (o : StartObs) (s : State),
    (s.sys.phase = .released → Does (.startSequence o) s (fun t =>
      ((o.stop = false ∧ t.sys.phase = .running) ∨ (o.stop = true ∧ t.sys.phase = .live) ∨ t.sys.phase = .safeIdle ∨ t.sys.phase = .recovery) ∧
      (s.sys.resetCause = 1 ∨ s.sys.resetCause = 2 → t.sys.starts = 0 ∧
        t.store.powerCycles = if s.store.powerCycles = 0xFFFFFF then 0xFFFFFF else s.store.powerCycles + 1) ∧
      (s.sys.resetCause ≠ 1 → s.sys.resetCause ≠ 2 → t.store.powerCycles = s.store.powerCycles ∧
        t.sys.starts = if s.sys.starts = 0xFF then 0xFF else s.sys.starts + 1) ∧
      (bankPasses s s.store.bankSel o.fwBad = true → s.store.trial = false →
        (s.flacon.present = false → t.sys.phase = .safeIdle ∧ t.flacon.reason = 1) ∧
        ((bankOf s s.store.bankSel).state ≠ .loading → s.flacon.present = true →
          outcome o s (bankVer (bankOf s s.store.bankSel)) t)))) ∧
    (s.sys.phase = .live → Does (.startSequence o) s (fun t => t.sys.phase = .running ∧ t.sys.endOfStart = some s.clock ∧
      t.flacon.startMs = o.ms ∧ t.cfg = s.cfg ∧ t.fab.up = true)) ∧
    (s.sys.phase = .safeIdle → s.flacon.present = true → Does (.flaconRetry o) s (outcome o s s.upd.runVer))

/-- R111: plugs. -/
def Obligations.PlugsOfABlock : Prop :=
  ∀ (s : State) (b : Fin 8) (code : BitVec 3),
    ((blk s b).plug = none → Does (.plugAccepted b code) s (fun t => (blk t b).plug = some code ∧
      Counted (aAFE (chOf b 0) 0xBC) s t ∧ (∀ k, Latched (aAFE (chOf b k) 0x9C) 0 t) ∧
      (code.toNat = b.val → Offered 0x10 1 s t) ∧
      (code.toNat ≠ b.val → Offered 0x10 2 s t ∧ miscoded t b = true ∧ ∀ k, excOn t (chOf b k) = false))) ∧
    ((blk s b).plug.isSome → Does (.plugRemoved b) s (fun t => (blk t b).plug = none ∧ (blk t b).foldback = false ∧
      (blk t b).excLimit = false ∧ (∀ k, Latched (aAFE (chOf b k) 0x9C) 0 t) ∧ Offered 0x10 1 s t ∧
      ∀ k, excOn t (chOf b k) = false))

/-- R118, R119, R125: the conditions of a channel's source. -/
def Obligations.ExcitationConditionsOfAChannel : Prop :=
  ∀ (s : State) (n : Fin 64),
    (excOn s n = true →
      ((chType s n = 0x20 ∨ (chType s n = 0x50 ∧ wiresOf (cfgWord s n) = 5)) → (chan s n).excUnreg = false →
        Does (.excUnreg n true) s (fun t => (chan t n).excUnreg = true ∧ Latched (aAFE n 0x9C) 4 t ∧ excOn t n = true)) ∧
      (chType s n = 0x30 → (chan s n).loopLimit = false →
        Does (.loopLimit n true) s (fun t => (chan t n).loopLimit = true ∧ Latched (aAFE n 0x9C) 3 t ∧ excOn t n = true)) ∧
      (isVexc (chType s n) = true → (chan s n).excLimit = false →
        Does (.excLimit n true) s (fun t => (chan t n).excLimit = true ∧ Latched (aAFE n 0x9C) 1 t ∧ excOn t n = true))) ∧
    Does (.excUnreg n false) s (fun t => (chan t n).excUnreg = false) ∧
    Does (.loopLimit n false) s (fun t => (chan t n).loopLimit = false) ∧
    Does (.excLimit n false) s (fun t => (chan t n).excLimit = false) ∧
    Does (.excUnreg n (chan s n).excUnreg) s (fun t => t = useType n s) ∧
    Does (.loopLimit n (chan s n).loopLimit) s (fun t => t = useType n s) ∧
    Does (.excLimit n (chan s n).excLimit) s (fun t => t = useType n s)

/-- R126 to R128: the budget of a block. -/
def Obligations.BlockBudgetShedsAndRestores : Prop :=
  ∀ (s : State) (b : Fin 8),
    (∀ ua : List Nat,
      let sum := ((List.finRange 8).map (fun k =>
        if excOn s (chOf b k) then railOf (chType s (chOf b k)) * ua.getD k.val 0 else 0)).sum
      Does (.blockDrawMeasure b ua) s (fun t => ((blk t b).excLimit = true ↔ 1200000 < sum) ∧
        (blk t b).excP.toNat = min (sum / 1000) 65535 ∧
        ((blk s b).excLimit = false → 1200000 < sum → Counted (aAFE (chOf b 0) 0xB4) s t))) ∧
    (∀ on, Does (.foldback b on) s (fun t => (blk t b).foldback = on)) ∧
    (∀ n, (blk s b).excLimit = true → shedPick s b = some n → Does (.excShed b) s (fun t =>
      (chan t n).shed = true ∧ excOn t n = false ∧ Latched (aAFE n 0x9C) 2 t ∧ Counted (aAFE (chOf b 0) 0xB8) s t ∧ Offered 0x10 1 s t ∧
      (blk t b).retry = (if (blk s b).observing then some (s.clock + 600000000000)
        else if (blk s b).retry = none then some (s.clock + 10000000000) else (blk s b).retry))) ∧
    (∀ n, (blk s b).retry.isSome → (blkChans b).find? (fun n => (chan s n).shed) = some n → Does (.shedRetry b) s (fun t =>
      (chan t n).shed = false ∧ (blk t b).observing = true ∧ (blk t b).retry = (blk s b).retry)) ∧
    ((blk s b).observing = true → (blk s b).excLimit = false → Does (.shedRetryCheck b) s (fun t =>
      (blk t b).observing = false ∧ (blk t b).retry = (if blkShed s b = 0 then none else some (s.clock + 10000000000)) ∧
      t = { s with afe := t.afe }))

/-- R48, R123: the calibration registers. -/
def Obligations.CalibrationWrites : Prop :=
  let put := fun (n : Fin 64) (clamped : Bool) (c : F32 × F32 × Word) (s : State) =>
    let u := calSet n c s
    if clamped then latch (aAFE n 0x9C) 6 u else u
  ∀ (s : State) (n : Fin 64) (v : Word),
    (s.sys.lock = false → (isPair s = false ∨ s.pair.ownHeld = true) →
      Does (.calGainWrite n v) s (fun t => t = put n (clampGain v ≠ v) (clampGain v, (calGet s n).2.1, s.store.opSeconds) s ∧
        calGet t n = (clampGain v, (calGet s n).2.1, s.store.opSeconds) ∧ (clampGain v ≠ v → Latched (aAFE n 0x9C) 6 t)) ∧
      Does (.calOffsetWrite n v) s (fun t =>
        t = put n (clampOffset (cfgWord s n) v ≠ v) ((calGet s n).1, clampOffset (cfgWord s n) v, s.store.opSeconds) (useType n s) ∧
        calGet t n = ((calGet s n).1, clampOffset (cfgWord s n) v, s.store.opSeconds) ∧
        (clampOffset (cfgWord s n) v ≠ v → Latched (aAFE n 0x9C) 6 t))) ∧
    (∀ c, c = .calGainWrite n v ∨ c = .calOffsetWrite n v →
      (s.sys.lock = false → isPair s = true → s.pair.ownHeld = false → Does c s (fun t =>
        calGet t n = (Config.freeWord s.fresh, Config.freeWord (s.fresh + 1), (calGet s n).2.2) ∧
        t = { s with store := { s.store with cal := t.store.cal }, fresh := s.fresh + 2 })) ∧
      (s.sys.lock = true → Does c s (fun t => Counted aSYS_LOCK_REFUSED s t ∧ Latched aSYS_EVENT 2 t ∧
        t = { s with ctr := t.ctr, rsq := t.rsq })))

/-- R135: the writes of Table 5.20 that restart a filter. -/
def Obligations.ChannelConfigurationWrites : Prop :=
  ∀ (s : State) (n : Fin 64) (v : Word),
    ((isPair s = false ∨ s.pair.ownHeld = true) →
      Does (.afeCfgWrite n v) s (fun t => triGet t (aAFE n 0) = ⟨v &&& 0x3FFF, v &&& 0x3FFF, v &&& 0x3FFF⟩ ∧
        (chan t n).shed = false ∧ (typeOf v ≠ chType s n → Latched (aAFE n 0x9C) 5 t) ∧
        (typeOf v ≠ chType s n → typeOf v ≠ 0 → frontClosed s = true → (chan t n).pending = true) ∧
        (typeOf v = 0 → converting t n = false)) ∧
      Does (.afeExcWrite n v) s (fun t => regGet t (aAFE n 4) = v &&& 0xC3FF ∧ (chan t n).shed = false ∧
        (converting s n = true → (chan t n).pending = true)) ∧
      Does (.afeRateWrite n v) s (fun t => regGet t (aAFE n 8) = v &&& 7 ∧ (converting s n = true → (chan t n).pending = true))) ∧
    (isPair s = true → s.pair.ownHeld = false →
      Does (.afeCfgWrite n v) s (fun t => t = { triSet (aAFE n 0) (Config.freeWord s.fresh) s with fresh := s.fresh + 1 }) ∧
      Does (.afeExcWrite n v) s (fun t => t = { regSet (aAFE n 4) (Config.freeWord s.fresh) s with fresh := s.fresh + 1 }) ∧
      Does (.afeRateWrite n v) s (fun t => t = { regSet (aAFE n 8) (Config.freeWord s.fresh) s with fresh := s.fresh + 1 }))

/-- R129, R130: the housekeeping converter. -/
def Obligations.ColdJunctionMeasurement : Prop :=
  ∀ (s : State) (b : Fin 8),
    (∀ r1 r2 : CjReading, Does (.cjMeasure b r1 r2) s (fun t => (blk t b).cj1 = r1.temp ∧ (blk t b).cj2 = r2.temp ∧
      (blk t b).cj1Fail = (r1.broken || !(fLe (fOfInt (-40)) r1.temp && fLe r1.temp (fOfInt 105))) ∧
      (blk t b).cj2Fail = (r2.broken || !(fLe (fOfInt (-40)) r2.temp && fLe r2.temp (fOfInt 105))) ∧
      ((blk t b).cjApart = true ↔ r1.broken = false ∧ r2.broken = false ∧ fLt (fOfInt 5) (fAbs (fSub r1.temp r2.temp)) = true) ∧
      (blk t b).cjSpread = ((blk s b).cjSpread && (blk t b).cjApart) ∧
      t = { s with afe := t.afe, vals := t.vals, alm := { s.alm with instants := t.alm.instants }, fresh := t.fresh,
                   tri := t.tri, ctr := t.ctr, rsq := t.rsq, sys := { s.sys with voteFail := t.sys.voteFail } } ∧
      (∀ b', b' ≠ b → blk t b' = blk s b') ∧ ∀ n, blkOf n ≠ b → chan t n = chan s n ∧ valGet t n.val = valGet s n.val)) ∧
    ∀ on, Does (.cjSpread b on) s (fun t => (blk t b).cjSpread = ((blk s b).cjApart && (on || (blk s b).cjSpread)) ∧
      t = { s with afe := { s.afe with blks := t.afe.blks } } ∧ ∀ b', b' ≠ b → blk t b' = blk s b')

/-- R121, R138 to R142, R156: restart points and samples. -/
def Obligations.OutputSampleAndRestartPoint : Prop :=
  ∀ (s : State) (n : Fin 64) (bits : List Bool),
    let taken := takeBits bits (chan s n).filt
    let raw := (filterOut (rateCode s n) (endPeriod (chan s n).freq taken)).getD ((Config.freeWord s.fresh).setWidth 24)
    (converting s n = true → (chan s n).pending = true → Does (.restartPoint n bits) s (fun t =>
      (chan t n).pending = false ∧ (chan t n).remain = 3 ∧ (chan t n).filt = clearStage2 taken ∧ Counted (aAFE n 0xE4) s t ∧
      t = { useType n s with afe := t.afe, ctr := t.ctr })) ∧
    (¬(converting s n = true ∧ (chan s n).pending = true) → Does (.restartPoint n bits) s (fun t => t = takeMods n bits (useType n s))) ∧
    (∀ i v same,
      (converting s n = true → (chan s n).pending = false → Does (.outputSample n bits i v same) s (fun t =>
        (valGet t n.val).seq = (valGet s n.val).seq + 1 ∧ (chan t n).raw = raw ∧ (chan t n).remain = (chan s n).remain - 1 ∧
        ((chan s n).remain ≤ 1 → (chan t n).latest = scaled s n (calibrated s n (primary s n raw i v).p)) ∧
        (1 < (chan s n).remain → chanQuality s n = qSETTLING → poisoned s (aAFE n 0) = false → same = false →
          (valGet t n.val).quality = qSETTLING ∧ (valGet t n.val).value = (chan s n).lastGood))) ∧
      (¬(converting s n = true ∧ (chan s n).pending = false) → Does (.outputSample n bits i v same) s (fun t => t.vals = s.vals)))

/-- R152: one window of the coarse detector. -/
def Obligations.CoarseDetectorWindow : Prop :=
  ∀ (s : State) (n : Fin 64) (bits : List Bool) (term : Bool) (i : Nat),
    let m := coarseMean (takeBits bits (chan s n).filt)
    (converting s n = true → Does (.coarseWindow n bits term i) s (fun t =>
      ((chan t n).modRange = true ↔ m < -95 / 100 ∨ 95 / 100 < m) ∧ (chan t n).termRange = term ∧
      ((chan t n).excLost = true ↔ isRtd (chType s n) = true ∧ excOn s n = true ∧ 2 * i < setCurrent s n) ∧
      ((chan t n).loopOpen = true ↔ isLoop (chType s n) = true ∧ m * fullScale s n < 25000) ∧
      ((chan t n).modRange = true → (chan s n).modRange = false → Latched (aAFE n 0xC4) 4 t) ∧
      ((chan t n).excLost = true → (chan s n).excLost = false → Latched (aAFE n 0xC4) 2 t) ∧
      ((chan t n).loopOpen = true → (chan s n).loopOpen = false → Latched (aAFE n 0xC4) 3 t) ∧
      ((chan s n).modRange = true → (chan t n).modRange = false → (chan t n).pending = true) ∧
      ((chan s n).termRange = true → term = false → (chan t n).pending = true) ∧
      ((chan s n).excLost = true → (chan t n).excLost = false → (chan t n).pending = true) ∧
      ((chan s n).loopOpen = true → (chan t n).loopOpen = false → (chan t n).pending = true))) ∧
    (converting s n = false → Does (.coarseWindow n bits term i) s (fun t => t = useType n s))

/-- R148 to R151, R162: the spritz. -/
def Obligations.SpritzResultsAndHealthWrites : Prop :=
  let shown := fun (s t : State) (n : Fin 64) (r : SpritzRes) =>
    let need := max 1 (fld (regGet s (aAFE n 0x28)) 0 4)
    let above := fun (x : Option Nat) => match x with | some y => fLt (fOfInt y) (reportRp r.rp) | none => false
    let below := fun (x : Option Nat) => match x with | some y => fLt (reportRp r.rp) (fOfInt y) | none => false
    let h := regGet s (aAFE n 0x24)
    (chan t n).zp = reportRp r.rp ∧ (chan t n).zc = r.cp ∧ Counted (aAFE n 0xD8) s t ∧
    (chan t n).open_ = (confirm (chan s n).open_ (chan s n).openCnt (above (threshOf (fld h 24 8) (openDefault (chType s n)))) need).1 ∧
    (chan t n).short = (confirm (chan s n).short (chan s n).shortCnt (below (threshOf (fld h 16 8) (shortDefault (chType s n)))) need).1 ∧
    ((chan t n).open_ = true → (chan s n).open_ = false → Latched (aAFE n 0xC4) 0 t) ∧
    ((chan t n).short = true → (chan s n).short = false → Latched (aAFE n 0xC4) 1 t)
  ∀ s : State,
    (∀ (k : Fin 8) (res : List SpritzRes), (res.map (fun r => r.block)).Nodup → Does (.spritzSlot k res) s (fun t =>
      (∀ r ∈ res, served s (chOf r.block k) = true → shown s t (chOf r.block k) r) ∧
      (∀ r ∈ res, served s (chOf r.block k) = false → chan t (chOf r.block k) = chan s (chOf r.block k)) ∧
      ∀ n, (∀ r ∈ res, chOf r.block k ≠ n) → chan t n = chan s n)) ∧
    (∀ (c : Fin 64) (v : Word),
      ((isPair s = false ∨ s.pair.ownHeld = true) →
        Does (.afeHealthWrite c false v) s (fun t => regGet t (aAFE c 0x24) = v &&& 0xFFFF0003 ∧
          (fld v 0 2 = 0 → (chan t c).open_ = false ∧ (chan t c).short = false ∧ (chan t c).await = false) ∧
          (fld v 0 2 ≠ 0 → (chan t c).open_ = (chan s c).open_ ∧ (chan t c).short = (chan s c).short)) ∧
        Does (.afeHealthWrite c true v) s (fun t => regGet t (aAFE c 0x28) = v &&& 0xF ∧ t.afe = s.afe)) ∧
      (isPair s = true → s.pair.ownHeld = false → ∀ second, Does (.afeHealthWrite c second v) s (fun t =>
        t = { regSet (aAFE c (if second then 0x28 else 0x24)) (Config.freeWord s.fresh) s with fresh := s.fresh + 1 })))

/-- R164 to R167: one tick of the repeat outputs. -/
def Obligations.RepeatOutputsFollowTable : Prop :=
  ∀ (s : State) (m : List (Nat × Nat)), Does (.repeatOutputTick m) s (fun t =>
    t.vals = s.vals ∧ t.io.dis = s.io.dis ∧ t.io.dos = s.io.dos ∧
    ∀ k : Fin 8, poisoned s (aAR k 0) = false →
      let q := (valGet s (arSource s k)).quality
      let ref := (m.getD k.val (0, 0)).1
      ((ar t k).refLow = true ↔ ref < 900) ∧ ((ar t k).refHigh = true ↔ 12500 < ref) ∧
      (arHighz s = true → (ar t k).code = 0) ∧
      (arForced s k = true → arHighz s = false → (ar t k).code = (regGet s (aAR k 0x34)).setWidth 16) ∧
      (arForced s k = false → arHighz s = false → (regGet s (aAR k 0)).getLsbD 8 = false → (ar t k).code = 0) ∧
      (arForced s k = false → arHighz s = false → isRunning s = true → (regGet s (aAR k 0)).getLsbD 8 = true →
        (q = qGOOD → (ar t k).code = (arConvert s k (valGet s (arSource s k)).value).1 ∧ (ar t k).driven = true) ∧
        ((q = qSETTLING ∨ q = qHELD) → (ar s k).driven = true →
          (ar t k).code = (arConvert s k ((ar s k).held.getD (valGet s (arSource s k)).value)).1 ∧ (ar t k).holding = true) ∧
        (q = qSUBSTITUTED ∨ q = qBAD_RANGE ∨ q = qBAD_BREAK ∨ q = qBAD_EXC ∨ q = qOUT_OF_SERVICE →
          (ar t k).code = arFaultCode s k ∧ (ar t k).fault = true)))

/-- R168 to R172: the digital inputs. -/
def Obligations.DigitalInputFilterAndConfig : Prop :=
  ∀ (s : State) (ins outs : List (Nat × Nat)),
    ((isRunning s = true ∨ s.sys.phase = .safeIdle) → Does (.diSample ins outs) s (fun t =>
      (∀ k : Fin 32, (valGet t (64 + k.val)).seq = (valGet s (64 + k.val)).seq + 1) ∧
      (∀ k : Fin 16, (valGet t (96 + k.val)).seq = (valGet s (96 + k.val)).seq + 1) ∧
      ∀ k : Fin 32, poisoned s (aDI k 0) = false → regGet s (aDI k 0) = (di s k).cfg → 0 < fld (di s k).cfg 6 10 → (di s k).count.toNat ≤ fld (di s k).cfg 6 10 →
        let mv := (ins.getD k.val (0, 0)).1
        let n := fld (di s k).cfg 6 10
        (9000 ≤ mv → (di t k).count.toNat = min ((di s k).count.toNat + 1) n) ∧
        (mv ≤ 8000 → (di t k).count.toNat = (di s k).count.toNat - 1) ∧
        (di t k).out = (if (di t k).count.toNat = 0 then false else if (di t k).count.toNat = n then true else (di s k).out))) ∧
    (isRunning s = false → s.sys.phase ≠ .safeIdle → Does (.diSample ins outs) s (fun t => t = s)) ∧
    (∀ (k : Fin 32) (v : Word), (isPair s = false ∨ s.pair.ownHeld = true) →
      Does (.diCfgWrite k v) s (fun t => regGet t (aDI k 0) = v &&& 0xFFC7 ∧ (∀ a, a ≠ aDI k 0 → regGet t a = regGet s a) ∧
        t = { s with reg := t.reg, unspec := t.unspec } ∧ (fld v 6 10 = 0 → poisoned t (aDI k 0) = true) ∧
        (fld v 6 10 ≠ 0 → t.unspec = s.unspec))) ∧
    (∀ (k : Fin 32) (v : Word), isPair s = true → s.pair.ownHeld = false → Does (.diCfgWrite k v) s (fun t =>
      t = { regSet (aDI k 0) (Config.freeWord s.fresh) s with fresh := s.fresh + 1 }))

/-- R174, R177, R179: what an output's switch reports. -/
def Obligations.OutputProtectionAndDiagnostics : Prop :=
  ∀ (s : State) (k : Fin 16),
    (doOn s k = true →
      ((dout s k).limit = false → Does (.doCurrentLimit k true) s (fun t => (dout t k).limit = true ∧ doOn t k = true ∧
        Counted (aDO k 0x28) s t ∧ Latched (aDO k 0x1C) 1 t)) ∧
      Does (.doTsd k) s (fun t => (dout t k).tsd = true ∧ doOn t k = false ∧ (dout t k).tsdLatched = tsdLatches s k ∧
        Counted (aDO k 0x2C) s t ∧ Latched (aDO k 0x1C) 2 t ∧ doCmd t k = doCmd s k) ∧
      ((dout s k).openOn = false → (doCfg s k).getLsbD 3 = true → Does (.doDiagnosticFilter k .openOn true) s (fun t =>
        (dout t k).openOn = true ∧ Latched (aDO k 0x1C) 3 t ∧ doOn t k = true))) ∧
    (doOn s k = false →
      ((dout s k).openOff = false → (doCfg s k).getLsbD 4 = true → Does (.doDiagnosticFilter k .openOff true) s (fun t =>
        (dout t k).openOff = true ∧ Latched (aDO k 0x1C) 4 t)) ∧
      ((dout s k).extDrive = false → isPair s = false → Does (.doDiagnosticFilter k .extDrive true) s (fun t =>
        (dout t k).extDrive = true ∧ Latched (aDO k 0x1C) 5 t)) ∧
      (isPair s = true → partnerOn s k = true → Does (.doDiagnosticFilter k .extDrive true) s (fun t => t = s))) ∧
    Does (.doCurrentLimit k false) s (fun t => (dout t k).limit = false ∧ t = { s with io := t.io }) ∧
    Does (.doTsdCooled k) s (fun t => (dout t k).tsd = false ∧ (dout t k).tsdLatched = (dout s k).tsdLatched ∧
      t = { whenS (dout s k).stale (useFail k) s with io := t.io }) ∧
    (doCmd s k = false → Does (.doTsdLatchRelease k) s (fun t => (dout t k).tsdLatched = false ∧
      t = { whenS (dout s k).stale (useFail k) s with io := t.io })) ∧
    Does (.doDiagnosticFilter k .openOn false) s (fun t => (dout t k).openOn = false ∧ t = { s with io := t.io }) ∧
    Does (.doDiagnosticFilter k .openOff false) s (fun t => (dout t k).openOff = false ∧ t = { s with io := t.io }) ∧
    Does (.doDiagnosticFilter k .extDrive false) s (fun t => (dout t k).extDrive = false ∧ t = { s with io := t.io })

/-- R175, R176: commands of the control plane, and their lack. -/
def Obligations.OutputCommandsAndStale : Prop :=
  ∀ (s : State),
    (∀ (rx : Rx) (item : Word) (c : OutCommand), (receive rx (.outputCommand item c) s).1 = true → isRunning s = true →
      isActiveUnit s = true → s.afe.pause = false → doSource s c.output = 1 →
      Does (.outputCommand rx item c) s (fun t => (dout t c.output).cmd = c.on ∧ (dout t c.output).cmdAt = s.clock ∧
        (dout t c.output).stale = false ∧ ∀ k, k ≠ c.output → dout t k = dout s k)) ∧
    (∀ k : Fin 16, staleCounts s = true → doSource s k = 1 → (dout s k).stale = false →
      Does (.doStale k) s (fun t => (dout t k).stale = true ∧ Latched (aDO k 0x1C) 6 t ∧
        (doForced s k = false → (dout s k).fix ≠ .hold → poisoned s (aDO k 0) = false →
          doCmd t k = (if doFail s k = 0 then false else if doFail s k = 1 then true else (dout s k).cmd))))

/-- R180, R181: the phases of Table 7.7. -/
def Obligations.FixativePhases : Prop :=
  let frozen := fun (s : State) (ago : Nat) (k : Fin 16) =>
    if (dout s k).fix = .track then
      { dout s k with fix := .hold, fixState := doCmd s k, holdFrom := s.clock - ago, holdLen := doHold s k,
                      latchTsd := (doCfg s k).getLsbD 2 }
    else dout s k
  let only := fun (s t : State) =>
    t = { s with io := { s.io with dos := t.io.dos }, tri := t.tri, ctr := t.ctr, rsq := t.rsq,
                 sys := { s.sys with voteFail := t.sys.voteFail } } ∧
    ((∀ k, (dout s k).stale = false) → t = { s with io := { s.io with dos := t.io.dos } })
  ∀ s : State,
    Does .freezeLine s (fun t => (∀ k, dout t k = frozen s 0 k) ∧ only s t) ∧
    (∀ k, Does (.fixKeepaliveLost k) s (fun t => dout t k = frozen s 2000000 k ∧ only s t ∧ ∀ j, j ≠ k → dout t j = dout s j)) ∧
    (∀ k, (dout s k).fix = .hold → Does (.fixHoldEnd k) s (fun t => (dout t k).fix = .released ∧ (dout t k).holdEnd = true ∧
      doOn t k = false ∧ ∀ j, j ≠ k → dout t j = dout s j)) ∧
    (∀ x, Does (.fixSupplyRelease x true) s (fun t => (supplyGet t x).below12 = true ∧
      ∀ k ∈ outputsOf x, (dout t k).fix = .released ∧ doOn t k = false))

/-- R186 to R203: one cycle. -/
def Obligations.AlarmCycleRunsEverySlot : Prop :=
  ∀ s : State,
    (s.alm.running = true ∧ isActiveUnit s = true →
      Does .alarmCycleTick s (fun t => t.alm.cycle = s.alm.cycle + 1 ∧ t.alm.inVals = s.vals ∧ t.alm.inMeans = s.alm.means ∧
        t.alm.inDo = doCmdWord s ∧ t.alm.inCauses = sysCauses s ∧ t.alm.cmds = s.alm.cmds.drop 128 ∧
        t.vals = s.vals ∧ t.reg = s.reg ∧ t.clock = s.clock ∧
        (s.alm.cmds = [] → tabSorted s.alm.points = true → (∀ i < 4096, pointFree s i = false) →
          (s.alm.points.all (fun p => p.1 < 4096)) = true →
          ∀ i < 4096, pointGet t i = (slot (latchInputs s) (pointGet s i)).1) ∧
        (t.alm.points.length < 65536 → fld t.alm.countA 16 16 = (t.alm.points.filter (fun p => isActive p.2.st)).length))) ∧
    (s.alm.running = false ∨ isActiveUnit s = false → Does .alarmCycleTick s (fun t => t = s))

/-- R201 to R203, R205: the slots in which a delay, a block or a shelve ends. -/
def Obligations.AlarmDelaysBlocksAndShelvesEnd : Prop :=
  ∀ (s : State) (i : Fin 4096),
    let p := pointGet s i
    let same := fun (t : State) => (∀ j, j ≠ i.val → pointGet t j = pointGet s j) ∧ t.vals = s.vals ∧ t.reg = s.reg ∧ t.io = s.io
    let active := fun (t : State) => (pointGet t i).st = .activeUnack ∧ (pointGet t i).occ = p.occ + 1
    s.alm.running = true → pEnabled p = true → p.memFault = false → pointFree s i = false →
    (p.raw = true → p.cond = false → p.frozen = false → Does (.onDelayExpiry i) s (fun t => same t ∧ (pointGet t i).cond = true ∧
      (p.shelveLeft = 0 → p.blockNow = false → p.st = .normal ∨ p.st = .clearedUnack → active t))) ∧
    (p.raw = false → p.cond = true → p.frozen = false → Does (.offDelayExpiry i) s (fun t => same t ∧ (pointGet t i).cond = false ∧
      (pointGet t i).occ = p.occ ∧ (p.shelveLeft = 0 → p.blockNow = false →
        (p.st = .activeUnack → (pointGet t i).st = .clearedUnack) ∧ (p.st = .activeAck → (pointGet t i).st = .normal)))) ∧
    (p.blockNow = true → p.shelveLeft = 0 → p.st = .blocked → Does (.blockDelayExpiry i) s (fun t => same t ∧
      (pointGet t i).blockNow = false ∧ (p.cond = true → active t) ∧ (p.cond = false → (pointGet t i).st = .normal))) ∧
    (p.shelveLeft ≠ 0 → p.st = .shelved → Does (.shelveExpiry i) s (fun t => same t ∧ (pointGet t i).shelveLeft = 0 ∧
      (p.blockNow = true → (pointGet t i).st = .blocked) ∧ (p.blockNow = false → p.cond = true → active t) ∧
      (p.blockNow = false → p.cond = false → (pointGet t i).st = .normal)))

/-- R187, R191, R204, R208: commands and window writes. -/
def Obligations.AlarmCommandsWaitAndActByTable : Prop :=
  (∀ (s : State) (i : BitVec 12) (k : BitVec 16) (secs : BitVec 15) (c : Instr) (op : AlmOp),
    (c = .almCmdAck i k ∧ op = .ack k) ∨ (c = .almCmdShelve i secs ∧ op = .shelve secs) ∨ (c = .almCmdUnshelve i ∧ op = .unshelve) →
    (s.alm.cmds.length < 256 → Does c s (fun t => t.alm.cmds = s.alm.cmds ++ [(i, op)] ∧ t = { s with alm := t.alm } ∧
      t.alm.points = s.alm.points)) ∧
    (256 ≤ s.alm.cmds.length → Does c s (fun t => t.alm = s.alm ∧ Counted aALM_CMD_LOST s t ∧ Latched aALM_EVENT 0 t ∧
      t = { s with ctr := t.ctr, rsq := t.rsq }))) ∧
  (∀ (s : State) (i : BitVec 12) (k : BitVec 16) (secs : BitVec 15) (l : List (Word × AlmEvent)),
    let p := pointGet s i.toNat
    let after := fun (op : AlmOp) => (applyCmd (i, op) (l, s)).2
    (k ≠ p.occ → (after (.ack k)).alm = s.alm ∧ Counted aALM_ACK_STALE s (after (.ack k)) ∧ Latched aALM_EVENT 1 (after (.ack k))) ∧
    (p.st = .activeUnack → (pointGet (after (.ack p.occ)) i.toNat).st = .activeAck) ∧
    (p.st = .clearedUnack → (pointGet (after (.ack p.occ)) i.toNat).st = .normal) ∧
    (p.st ≠ .activeUnack → p.st ≠ .clearedUnack → after (.ack p.occ) = s) ∧
    (pShelvable (evPoint p) = true → p.st ≠ .outOfService → secs ≠ 0 →
      (pointGet (after (.shelve secs)) i.toNat).shelveLeft.toNat = 100 * min secs.toNat 28800 ∧
      (pointGet (after (.shelve secs)) i.toNat).st = p.st) ∧
    (pShelvable (evPoint p) = false ∨ p.st = .outOfService ∨ secs = 0 →
      (after (.shelve secs)).alm = s.alm ∧ Latched aALM_EVENT 2 (after (.shelve secs))) ∧
    (pointGet (after .unshelve) i.toNat).shelveLeft = 0) ∧
  (∀ (s : State) (w : Fin 16) (v : Word), Does (.almRecWrite w v) s (fun t =>
    (∀ j, j ≠ s.alm.sel.toNat → pointGet t j = pointGet s j) ∧ (∀ a, a ≠ pointBase s.alm.sel.toNat → poisoned t a = poisoned s a) ∧
    t = { s with alm := t.alm, unspec := t.unspec } ∧ (pointGet t s.alm.sel.toNat).st = (pointGet s s.alm.sel.toNat).st ∧
    (w.val = 0 → pEnabled (pointGet t s.alm.sel.toNat) = v.getLsbD 25) ∧
    (w.val = 1 → pEnabled (pointGet t s.alm.sel.toNat) = v.getLsbD 15) ∧
    (w.val = 2 → pEnabled (pointGet t s.alm.sel.toNat) = v.getLsbD 31) ∧
    (w.val = 4 → isNaN v = true → poisoned t (pointBase s.alm.sel.toNat) = true) ∧ (8 ≤ w.val → t = s)))

/-- R206: the copies that waited. -/
def Obligations.CopiesHeldBeforeTheWinGoOutOrAreCounted : Prop :=
  ∀ s : State,
    (s.fab.addressed = false → Does .eventCopyRelease s (fun t => t = s) ∧ Does .eventCopyDiscard s (fun t => t = s)) ∧
    (s.fab.addressed = true →
      Does .eventCopyRelease s (fun t => t.alm.held = s.alm.held.filter (fun h => !heldReady s h) ∧ t.alm.points = s.alm.points ∧
        t.rcd.queue = s.rcd.queue ∧ t.vals = s.vals ∧ t.call = s.call) ∧
      Does .eventCopyDiscard s (fun t => t.alm.held = s.alm.held.filter (heldReady s) ∧ t.fab = s.fab ∧ t.selfQ = s.selfQ ∧
        ctrGet t aFAB_NOROUTE_DROP = satAdd (ctrGet s aFAB_NOROUTE_DROP) (s.alm.held.filter (fun h => !heldReady s h)).length ∧
        (∀ a, a ≠ aFAB_NOROUTE_DROP → ctrGet t a = ctrGet s a) ∧ t = { s with alm := { s.alm with held := t.alm.held }, ctr := t.ctr }))

/-- R212, R214, R218: the moves of an Accord. -/
def Obligations.AccordsFollowTheirMembers : Prop :=
  ∀ (s : State) (id : BitVec 16) (e : AccItem), accGet s id = some e →
    (e.state = 1 → accActive e ≠ 0 → accUnacked e ≠ 0 → Does (.groupDelayExpiry id) s (fun t => ∃ e', accGet t id = some e' ∧
      e'.state = 2 ∧ e'.groupAt = none ∧ e'.raiseT = fabMs s ∧ e'.members = e.members)) ∧
    (e.state ≠ 1 → Does (.groupDelayExpiry id) s (fun t => t = s)) ∧
    Does (.firstOutWindowClose id) s (fun t => accGet t id = some { e with winOpen := false } ∧
      (∀ j, j ≠ id → accGet t j = accGet s j) ∧ t = { s with call := { s.call with accords := t.call.accords } }) ∧
    (e.rebuilding = true → Does (.evaluatorRebuild id) s (fun t => Counted aACC_REBUILD s t ∧ Latched aCALL_EVENT 0 t ∧
      ∃ e', accGet t id = some e' ∧ e'.rebuilding = false ∧ e'.winOpen = false ∧ e'.groupAt = none ∧ e'.members = e.members ∧
        e'.state = (if accUnacked e ≠ 0 then 2 else if accActive e ≠ 0 then 3 else 0))) ∧
    (e.rebuilding = false → Does (.evaluatorRebuild id) s (fun t => t = s)) ∧
    (∀ (rx : Rx) (a : AlmEvent) (r : AccordRec), (receive rx (.alarmEvent (accordItem id) [a]) s).1 = true → accordRec s id = some r →
      let k := tabGet {} e.members a.tag.toNat
      (a.tag ∉ r.members → Does (.alarmEvent rx (accordItem id) [a]) s (fun t => t.call = s.call)) ∧
      (a.tag ∈ r.members → e.rebuilding = false → e.state = 0 → a.newState = 1 → k.known = false ∨ k.at_.toNat ≤ (frameTime s rx).toNat →
        Does (.alarmEvent rx (accordItem id) [a]) s (fun t => ∃ e', accGet t id = some e' ∧ e'.winOpen = true ∧ e'.foTag = a.tag ∧
          e'.foOnset = a.onset ∧ (r.groupDelay = 0 → e'.state = 2) ∧
          (0 < r.groupDelay → e'.state = 1 ∧ e'.groupAt = some (s.clock + r.groupDelay * 10000000))))) ∧
    (∀ (rx : Rx) (m : MemberReport) (x : MemberEntry) (r : AccordRec), (receive rx (.memberReport m) s).1 = true →
      m.key = id.setWidth 32 → m.entries = [x] → accordRec s id = some r →
      let tag := wd (rx.hdr.src.toNat * 4096 + x.index.toNat)
      let k := tabGet {} e.members tag.toNat
      tag ∈ r.members → k.known = false ∨ k.at_.toNat ≤ (frameTime s rx).toNat → k.repT.toNat ≤ (frameTime s rx).toNat → Does (.memberReport rx m) s (fun t =>
        ∃ e', accGet t id = some e' ∧ rx.hdr.src ∈ e'.reported ∧
          let k' := tabGet {} e'.members tag.toNat
          k'.known = true ∧ k'.st = x.state ∧ k'.occ = x.occ ∧ k'.value = x.value ∧ k'.quality = x.quality ∧ k'.reportAt = some s.clock))

/-- R198, R211, R216, R217, R228, R229: means and periodic reports. -/
def Obligations.MeansAndPeriodicReports : Prop :=
  let sends := fun (s t : State) => t.alm = s.alm ∧ t.rcd = s.rcd ∧ t.vals = s.vals ∧ t.reg = s.reg ∧
    (triAgrees aFAB_ADDR (triGet s aFAB_ADDR) = true → t.rsq = s.rsq ∧ t.tri = s.tri) ∧
    t.call.accords = s.call.accords ∧ t.call.rosters = s.call.rosters ∧ t.pb = s.pb ∧ t.io = s.io ∧ t.pair = s.pair ∧
    t.clock = s.clock ∧ (s.fab.addressed = false → t.fab = s.fab ∧ t.selfQ = s.selfQ ∧ t.ctr = s.ctr ∧ t.plc = s.plc ∧ t.tri = s.tri ∧ t.rsq = s.rsq)
  (∀ s : State, tabSorted s.call.accords = true → s.call.accords.all (fun x => x.1 < 65536) = true → Does .meanPeriod s (fun t =>
    ∀ id e, accGet s id = some e → (e.reported = [] → accGet t id = some e) ∧ (e.reported ≠ [] →
      ∃ e', accGet t id = some e' ∧ e'.state = e.state ∧ e'.members = e.members ∧ e'.foTag = e.foTag ∧
        let all := e.members.filter (fun x => x.2.known && meanCond x.2.cond)
        let n := (all.filter (fun x => isFresh s x.2 && x.2.quality = qGOOD)).length
        (e'.meanGood = true ↔ 2 ≤ n ∧ all.length ≤ 2 * n)))) ∧
  (∀ (s : State) (rx : Rx) (item : Word) (id : BitVec 16) (m : F32) (g : Bool), (receive rx (.mean item (.mean id m g)) s).1 = true →
    Does (.mean rx item (.mean id m g)) s (fun t => tabLook t.alm.means id.toNat = some ⟨m, g, s.clock⟩ ∧ t.call = s.call ∧
      t.alm.points = s.alm.points)) ∧
  (∀ (s : State) (rx : Rx) (item : Word) (id : BitVec 16) (e : AccItem), (receive rx (.mean item (.request id)) s).1 = true →
    accGet s id = some e → Does (.mean rx item (.request id)) s (fun t => t.alm = s.alm ∧
      ∃ e', accGet t id = some e' ∧ (rx.hdr.src, s.clock) ∈ e'.requesters ∧ e'.state = e.state)) ∧
  (∀ (s : State) (roster : Word), Does .meanRequestSend s (sends s) ∧ Does .accordStateReport s (sends s) ∧
    Does .summaryOutputPeriod s (sends s) ∧ Does .itemStateSend s (sends s) ∧ Does (.rendererCallStateSend roster) s (sends s) ∧
    (isPair s = false ∨ s.pair.ownHeld = true ∨ s.pair.doubleSend = true → s.alm.running = true → Does .memberReportSend s (fun t => sends s t ∧ t.call.reportNum = s.call.reportNum + 1)))

/-- R224, R229, R231: the timers of a call manager. -/
def Obligations.CallsRunThroughTheirStages : Prop :=
  ∀ (s : State) (r : RosterRec) (c : CallItem), rosterRec s r.id = some r → rosGet s r.id = some c → isPrimary s (rosterItem r.id) = true →
    (c.st.state = 1 → c.st.stage = 1 ∨ c.st.stage = 2 → stageDue r c (fabUs s) = true → Does (.stageTimeout r.id) s (fun t => ∃ c', rosGet t r.id = some c' ∧
      c'.st.state = 1 ∧ c'.st.stage = c.st.stage + 1 ∧ c'.st.callNum = c.st.callNum ∧ c'.st.sources = c.st.sources ∧
      c'.st.duty = c.st.duty ∧ (∀ p ∈ c.st.panels, p ∈ c'.st.panels) ∧
      (c.st.stage = 1 → (∀ e ∈ r.engineers, e.cabin ∈ c'.st.panels) ∧ Latched aCALL_EVENT 2 t) ∧
      (c.st.stage = 2 → (∀ b ∈ r.bridges, b ∈ c'.st.panels) ∧ Latched aCALL_EVENT 3 t))) ∧
    (c.st.state ≠ 1 ∨ c.st.stage = 3 ∨ stageDue r c (fabUs s) = false → Does (.stageTimeout r.id) s (fun t => t = s)) ∧
    (c.st.patrol = 1 → Does (.patrolWarn r.id) s (fun t => ∃ c', rosGet t r.id = some c' ∧ c'.st.patrol = 2 ∧
      c'.st.state = c.st.state ∧ c'.st.panels = c.st.panels ∧ c'.st.patrolAt = c.st.patrolAt)) ∧
    (c.st.patrol ≠ 1 → Does (.patrolWarn r.id) s (fun t => t = s)) ∧
    (c.st.patrol = 1 ∨ c.st.patrol = 2 → Does (.patrolCall r.id) s (fun t => Latched aCALL_EVENT 7 t ∧ ∃ c', rosGet t r.id = some c' ∧
      c'.st.patrol = 3 ∧ (c.st.state = 0 → c.rebuilding = false →
        c'.st.state = 1 ∧ c'.st.stage = 2 ∧ c'.st.callNum = c.st.callNum + 1 ∧ callPrio c'.st = 3))) ∧
    (c.rebuilding = true → Does (.callManagerRebuild r.id) s (fun t => Latched aCALL_EVENT 0 t ∧ ∃ c', rosGet t r.id = some c' ∧
      c'.rebuilding = false ∧ c'.accs = c.accs ∧ c'.st.duty = dutyOf r (c.duties.map (fun x => x.2)) ∧
      (c'.st.patrol = 1 ↔ (patrolOf r (c.duties.map (fun x => x.2))).isSome = true) ∧
      (c.accs = [] → c.points = [] → c'.st.state = c.st.state) ∧
      ((∃ x ∈ c.accs, x.2.newState = 2 ∧ x.2.prio ≠ 0) → c'.st.state = 1 ∧
        c'.st.callNum = topNum (c.duties.map (fun x => x.2)) (tabLook s.call.lastNums r.id.toNat) + 1))) ∧
    (c.rebuilding = false → Does (.callManagerRebuild r.id) s (fun t => t = s))

/-- R219 to R231: what reaches a call manager. -/
def Obligations.CallsTakeKeysSourcesAndReports : Prop :=
  ∀ (s : State) (rx : Rx) (r : RosterRec) (c : CallItem), rosterRec s r.id = some r → s.call.rosters = [(r.id.toNat, c)] →
    (∀ (ref : Word) (k : KeyMsg), isPrimary s (rosterItem r.id) = true → (receive rx (.keyRelay ref k) s).1 = true →
      (rosterRefs r).contains ref = true →
      (k.key = 1 → k.item = 0xFFFFFFFF → c.st.state = 1 → c.st.panels.contains ref = true →
        Does (.keyRelay rx ref k) s (fun t => ∃ c', rosGet t r.id = some c' ∧ c'.st.state = 2 ∧ c'.st.answer = ref ∧
          c'.st.stage = c.st.stage ∧ c'.st.callNum = c.st.callNum ∧ c'.st.sources = c.st.sources)) ∧
      (k.key = 1 → k.item = 0xFFFFFFFF → c.st.panels.contains ref = false → Does (.keyRelay rx ref k) s (fun t => t.call = s.call)) ∧
      (∀ i, k.key = 3 → dutyCabin r c.st ≠ some ref → engIdx r (fun e => e.cabin = ref && mayDuty e) = some i →
        Does (.keyRelay rx ref k) s (fun t => ∃ c', rosGet t r.id = some c' ∧ c'.st.duty = some (i, frameTime s rx) ∧
          c'.st.state = c.st.state ∧ c'.st.patrol = c.st.patrol)) ∧
      (k.key = 4 → k.action = 1 → r.pubs.contains ref = true → c.st.patrol = 0 → (srcUnacked c.st).isEmpty = false ∨ c.st.state = 0 →
        c.st.sources.all (fun x => x.1 ≠ patrolKey) = true → Does (.keyRelay rx ref k) s (fun t => ∃ c', rosGet t r.id = some c' ∧
          c'.st.patrol = 1 ∧ c'.st.patrolAt = frameTime s rx ∧ c'.st.patrolPanel = ref ∧ c'.st.state = c.st.state)) ∧
      (k.key = 4 → k.action = 2 → r.pubs.contains ref = true → c.st.patrol ≠ 0 →
        Does (.keyRelay rx ref k) s (fun t => ∃ c', rosGet t r.id = some c' ∧ c'.st.patrol = 0))) ∧
    (∀ (item : Word) (a : AccEvent) (ar : AccordRec), isPrimary s (rosterItem r.id) = true → accordRec s a.accord = some ar →
      (receive rx (.accordEvent item [a]) s).1 = true → ar.roster = r.id → tabLook c.accs a.accord.toNat = none → a.newState = 2 →
      a.prio = 1 ∨ a.prio = 2 ∨ a.prio = 3 → c.st.state = 0 → c.rebuilding = false → Does (.accordEvent rx item [a]) s (fun t =>
        ∃ c', rosGet t r.id = some c' ∧ c'.st.state = 1 ∧ c'.st.callNum = c.st.callNum + 1 ∧ (callPrio c'.st).toNat = a.prio.toNat ∧
          c'.st.stage = (if c.st.duty.isNone then 2 else 1))) ∧
    (∀ d : Delivery, isPrimary s (rosterItem r.id) = true → (receive rx (.deliveryReport d) s).1 = true → d.roster = r.id →
      (d.delivered = true → Does (.deliveryReport rx d) s (fun t => t.call = s.call)) ∧
      (d.delivered = false → Does (.deliveryReport rx d) s (fun t => Latched aCALL_EVENT 4 t ∧ Counted aCALL_UNDELIVERED s t ∧
        (c.st.state = 1 → c.st.stage = 1 → dutyCabin r c.st = some d.panel → d.callNum = c.st.callNum →
          ∃ c', rosGet t r.id = some c' ∧ c'.due = true ∧ c'.st = c.st)))) ∧
    (∀ (p d : Bool) (part parts : Nat) (st : CallState), isPrimary s (rosterItem r.id) = false → r.id.toNat < 2 ^ 28 →
      (receive rx (.itemState (.state (rosterItem r.id) p d part parts st)) s).1 = true →
      Does (.itemState rx (.state (rosterItem r.id) p d part parts st)) s (fun t => ∃ c', rosGet t r.id = some c' ∧
        (∀ c1 st1, wholeState c part parts st = (c1, some st1) → c'.st = st1 ∧ c'.held = true ∧ c'.rebuilding = false) ∧
        (∀ c1, wholeState c part parts st = (c1, none) → c' = c1) ∧ (parts ≤ 1 → c'.st = st)))

/-- R221, R239 to R242, R254, R376: what comes in. -/
def Obligations.PanelBusReceives : Prop :=
  ∀ (s : State) (id : CanId) (r : MsgRec) (q : Fin 64) (sof : Word), pbUp s id.port = true → matchRec s id = some r → r.panel = some q →
    let p := id.port
    (∀ k : KeyMsg, r.code = 0x0101 → (panelSt s p q).keySeq = some k.seq → Does (.key id k sof) s (fun t =>
      Counted (aPB p 0x40) s t ∧ Counted (aPB p 0x2C) s t ∧ t.pb.panels = s.pb.panels ∧ t.fab = s.fab ∧ t.call = s.call ∧
      (pbPort t p).rxSof = some sof)) ∧
    (∀ k : KeyMsg, r.code = 0x0101 → (panelSt s p q).keySeq ≠ some k.seq → k.key = 2 → k.action = 1 → (pbPort s p).monitor = false →
      (panelRec s p q).isSome = true → Does (.key id k sof) s (fun t => (panelSt t p q).silenced = true ∧ (panelSt t p q).keySeq = some k.seq ∧
        ∀ p' q', ¬(p' = p ∧ q' = q) → panelSt t p' q' = panelSt s p' q')) ∧
    (∀ m : PanelBeatMsg, r.code = 0x0102 → Does (.panelBeat id m sof) s (fun t => isPresent t p q = true ∧
      (panelSt t p q).beat = some (m.kind, m.set, m.page) ∧ (∀ q', q' ≠ q → isPresent t p q' = isPresent s p q') ∧ t.fab = s.fab)) ∧
    (isPresent s p q = true → Does (.panelLost p q) s (fun t => isPresent t p q = false ∧ Latched (aPB p 8) 0 t ∧ Offered 0x10 1 s t ∧
      ∀ q', q' ≠ q → isPresent t p q' = isPresent s p q')) ∧
    ((pbPort s p).monitor = false → id.ext = true → id.ident.getLsbD 13 = false → id.ident.extractLsb' 20 6 = s.cfg.station →
      Does (.canClash id sof) s (fun t => (pbPort t p).clash = true ∧ Counted (aPB p 0x38) s t ∧ Latched (aPB p 8) 4 t ∧
        ((pbPort s p).clash = false → Offered 0x10 2 s t) ∧ ((pbPort s p).clash = true → t.rcd = s.rcd) ∧
        (pbPort t p).callq = (pbPort s p).callq ∧ (pbPort t p).fifo = (pbPort s p).fifo)) ∧
    Does (.clashClear p) s (fun t => (pbPort t p).clash = false ∧ (∀ p', p' ≠ p → pbPort t p' = pbPort s p') ∧
      t = { s with pb := { s.pb with c1 := t.pb.c1, c2 := t.pb.c2 } }) ∧
    (∀ (set : BitVec 16) (page : BitVec 8), r.code = 0x0103 → (pbPort s p).monitor = false → s.sys.phase ≠ .drydown →
      pageLines s set page ≠ [] → canSend s p (some q) 0x0010 = true → canSend s p (some q) 0x0011 = true →
      (pbPort s p).otherq.length + (pageLines s set page).length + 1 ≤ 256 → Does (.pageReq id set page sof) s (fun t =>
        (pbPort t p).otherq.length = (pbPort s p).otherq.length + (pageLines s set page).length + 1 ∧
        (pbPort t p).callq = (pbPort s p).callq ∧ t.pb.lines = s.pb.lines)) ∧
    (∀ (rx : Rx) (item : Word) (roster ref : Word) (c : CallMsg), (receive rx (.callCommand item ⟨roster, ref, .call c⟩) s).1 = true →
      s.sys.phase = .running → refAddr ref = pairAddr s → refPort ref = p → refPanel ref = q → (panelRec s p q).isSome = true → c.state ≠ 0 →
      Does (.callCommand rx item ⟨roster, ref, .call c⟩) s (fun t => tabLook (panelSt t p q).calls c.roster.toNat = some c)) ∧
    (∀ (rx : Rx) (m : PageContent) (l : PageLine), (receive rx (.pageContent m) s).1 = true → s.sys.phase = .running →
      s.cfg.panels.any (fun x => x.set = m.set) = true → m.page.toNat ≤ m.pages.toNat → m.lines = [l] → Does (.pageContent rx m) s (fun t =>
        tabLook t.pb.lines (lineKey m.set m.page (l.line.toNat % 16)) = some l ∧ tabLook t.pb.pageCount m.set.toNat = some (m.pages.toNat + 1)))

/-- R243 to R253: what goes out. -/
def Obligations.PanelBusSendsAndRecovers : Prop :=
  ∀ (s : State) (p : Fin 2),
    let a := pbPort s p
    (pbUp s p = true →
      (poisoned s (aPB p 0) = false → a.monitor = false → a.fifo.length < a.depth.toNat → a.fifo.length < 32 →
        (∀ f r, a.callq = f :: r → Does (.fifoAdmit p) s (fun t => pbPort t p = { a with callq := r, fifo := a.fifo ++ [f] })) ∧
        (∀ f r, a.callq = [] → a.otherq = f :: r → Does (.fifoAdmit p) s (fun t => pbPort t p = { a with otherq := r, fifo := a.fifo ++ [f] }))) ∧
      (poisoned s (aPB p 0) = false → a.depth.toNat ≤ a.fifo.length → Does (.fifoAdmit p) s (fun t => t = s)) ∧
      (∀ f r sof, a.fifo = f :: r → Does (.canTxComplete p sof) s (fun t => (pbPort t p).fifo = r ∧ (pbPort t p).lastSof = sof ∧
        (pbPort t p).tec = a.tec - 1 ∧ Counted (aPB p 0x28) s t ∧ (s.sys.phase ≠ .drydown → (pbPort t p).up = true))) ∧
      (∀ f r sof, a.fifo = f :: r → f.late = true → Does (.arbitrationLost p sof) s (fun t => (∀ g ∈ (pbPort t p).fifo, g.num ≠ f.num) ∧
        Counted (aPB p 0x3C) s t ∧ (pbPort t p).otherq = a.otherq)) ∧
      (∀ f r sof, a.fifo = f :: r → f.late = false → Does (.arbitrationLost p sof) s (fun t =>
        pbPort t p = { a with fifo := { f with stamp := some sof, ftSof := sofFabric s sof } :: r } ∧
        ∀ p', p' ≠ p → pbPort t p' = pbPort s p')) ∧
      (∀ e n sof, Does (.canErrorFrame p e n sof) s (fun t => Counted (aPB p 0x30) s t ∧ (pbPort t p).otherq = a.otherq ∧
        (pbPort t p).tec = (match e with | .transmit => a.tec + 8 + 8 * n | .exempt => a.tec + 8 * n | .receive => a.tec) ∧
        (pbPort t p).rec_ = (match e with | .receive => min 255 (a.rec_ + 1 + 8 * n) | _ => a.rec_))) ∧
      (255 < a.tec → Does (.busOff p) s (fun t => (pbPort t p).busOff = true ∧ (pbPort t p).fifo = [] ∧ (pbPort t p).callq = [] ∧
        (pbPort t p).otherq = [] ∧ (pbPort t p).busOffAt = s.clock ∧ Latched (aPB p 8) 2 t ∧ Counted (aPB p 0x34) s t)) ∧
      (a.tec ≤ 255 → Does (.busOff p) s (fun t => t = s))) ∧
    (∀ n f, (a.callq ++ a.fifo).find? (fun f => f.num = n && isCallClass f.code) = some f →
      Does (.callFrameWithdraw p n none) s (fun t => Counted (aPB p 0x3C) s t ∧ (pbPort t p).otherq = a.otherq ∧
        ∀ g ∈ (pbPort t p).callq ++ (pbPort t p).fifo, g.num ≠ n) ∧
      ∀ sof, Does (.callFrameWithdraw p n (some sof)) s (fun t => (pbPort t p).callq = a.callq ∧
        (pbPort t p).fifo.length = a.fifo.length ∧
        ∀ g ∈ (pbPort t p).fifo, g.num = n → g.late = true ∧ g.stamp = some sof ∧ g.ftSof = sofFabric s sof)) ∧
    (a.up = true → a.busOff = true → Does (.busoffWaitExpiry p) s (fun t => pbPort t p = { a with recovering := true } ∧ t.fab = s.fab)) ∧
    (a.up = true → a.busOff = true → a.recovering = true → Does (.busoffRecovered p) s (fun t => (pbPort t p).busOff = false ∧
      (pbPort t p).tec = 0 ∧ (pbPort t p).rec_ = 0 ∧ Latched (aPB p 8) 3 t ∧ pbUp t p = true)) ∧
    (s.pair.ownHeld = true → a.up = true → a.monitor = true → Does .busMonitoringExit s (fun t => (pbPort t p).monitor = false ∧
      (pbPort t p).tec = 0 ∧ (pbPort t p).rec_ = 0)) ∧
    (s.pair.ownHeld = false → Does .busMonitoringExit s (fun t => t = s)) ∧
    (a.up = true → a.busOff = false → a.monitor = false → s.sys.phase ≠ .drydown → canSend s p none 0x0020 = true → a.otherq.length < 256 →
      Does .nodeBeatSend s (fun t => t.pb.panels = s.pb.panels ∧
        (a.fresh = false → ∃ f, (pbPort t p).otherq = a.otherq ++ [f] ∧ f.msg = .nodeBeat (ownSource s) 1 ∧ f.panel = none) ∧
        (a.fresh = true → poisoned s (aPB p 0) = false → a.callq = [] → a.otherq = [] → a.fifo = [] → 0 < a.depth.toNat →
          (pbPort t p).fresh = false ∧ ∃ f, (pbPort t p).fifo = [f] ∧ f.msg = .nodeBeat (ownSource s) 1 ∧ f.panel = none))) ∧
    (∀ q code, Does (.panelRefresh p q code) s (fun t => t.pb.panels = s.pb.panels ∧ t.pb.lines = s.pb.lines ∧ t.call = s.call ∧
      t.alm = s.alm ∧ ((panelRec s p q).isNone = true → t = s))) ∧
    Does .dutyReportSend s (fun t => t.pb = s.pb ∧ t.call = s.call ∧ t.alm = s.alm ∧ t.rcd = s.rcd ∧
      (s.fab.addressed = false ∨ (isPair s = true ∧ s.pair.ownHeld = false) → t = s))

/-- R14, R258 to R263, R273, R278, R279: links and queues. -/
def Obligations.LinksComeUpAndCarryFrames : Prop :=
  ∀ (s : State) (k : Link),
    let l := linkGet s k
    let others := fun (t : State) => ∀ j, j ≠ k → linkGet t j = linkGet s j
    (l.enabled = true → linksUp s k = true → Does (.phyUp k) s (fun t => linkGet t k = { l with phyUp := true } ∧ others t ∧ t.ctr = s.ctr)) ∧
    (l.enabled = false ∨ linksUp s k = false → Does (.phyUp k) s (fun t => t = s)) ∧
    (l.phyUp = true → Does (.phyDown k) s (fun t => others t ∧ (linkGet t k).phyUp = false ∧ (linkGet t k).twoWay = false ∧
      (∀ q, txQueue (linkGet t k) q = []) ∧
      ctrGet t (aLINK k 0x1C) = satAdd (ctrGet s (aLINK k 0x1C)) (l.urgent.length + l.routine.length) ∧
      ctrGet t (aLINK k 0x20) = satAdd (ctrGet s (aLINK k 0x20)) l.data.length ∧
      ctrGet t (aLINK k 0x24) = satAdd (ctrGet s (aLINK k 0x24)) l.mgmt.length)) ∧
    (k.val < 6 → l.enabled = true → l.phyUp = true → s.fab.up = true → l.routine.length < 64 → Does .helloSend s (fun t =>
      (linkGet t k).routine.length = l.routine.length + 1 ∧ (linkGet t k).helloNum = l.helloNum + 1 ∧ (linkGet t k).urgent = l.urgent)) ∧
    (∀ (rx : Rx) (m : HelloMsg), rx.link = some k → (receive rx (.hello m) s).1 = true → k.val < 6 → l.phyUp = true →
      (∃ n b, m.seen = some (s.serial, n, b)) → Does (.hello rx m) s (fun t => (linkGet t k).twoWay = true ∧
        (linkGet t k).neigh = some ⟨m.serial, mkAddr m.zone (m.member.setWidth 12), m.unaddr, m.border⟩ ∧
        (l.twoWay = false → Latched aFAB_EVENT 1 t) ∧
        (∀ n, l.twoWay = true → l.neigh = some n → n.serial ≠ m.serial → Latched aFAB_EVENT 0 t))) ∧
    (l.twoWay = true → Does (.neighbourTimeout k) s (fun t => (linkGet t k).twoWay = false ∧ (linkGet t k).neigh = none ∧ others t ∧
      Counted (aLINK k 0x28) s t ∧ Latched aFAB_EVENT 0 t)) ∧
    (l.twoWay = false → Does (.neighbourTimeout k) s (fun t => t = s)) ∧
    (k.val < 6 → l.enabled = true → isIntra s k = false → isBorder s k = false → Does (.linkAlone k) s (fun t =>
      linkGet t k = { l with alone := true } ∧ others t)) ∧
    (∀ (rx : Rx) (a : Addr) (w : Word), rx.link = some k → k ≠ linkP → (receive rx (.drydownNotice a w) s).1 = true → l.twoWay = true →
      Does (.drydownNotice rx a w) s (fun t => (linkGet t k).twoWay = false ∧
        (∀ n, isIntra s k = true → l.neigh = some n → n.addr = a → n.unaddr = false → a ∉ t.fab.view ∧ ∀ b ∈ t.fab.view, b ∈ s.fab.view) ∧
        (isIntra s k = false → ∀ b ∈ s.fab.view, zoneOf b = ownZone s → b ∈ t.fab.view) ∧
        Latched aFAB_EVENT 0 t ∧ Counted (aLINK k 0x28) s t)) ∧
    (∀ q, l.phyUp = true → l.onWire = some q → Does (.linkFrameEnd k) s (fun t => Counted (aLINK k 0x10) s t ∧ others t ∧
      (∀ u r, l.urgent = u :: r → (linkGet t k).urgent = r ∧ (linkGet t k).routine = l.routine ∧ (linkGet t k).data = l.data ∧
        (linkGet t k).onWire = some (atEgress s u)) ∧
      (∀ u r, l.urgent = [] → l.routine = u :: r → (linkGet t k).routine = r ∧ (linkGet t k).data = l.data ∧ (linkGet t k).mgmt = l.mgmt ∧
        (linkGet t k).onWire = some (atEgress s u)) ∧
      (∀ u r, l.urgent = [] → l.routine = [] → l.mgmt = [] → l.data = u :: r → (linkGet t k).data = r ∧
        (linkGet t k).onWire = some (atEgress s u)))) ∧
    (∀ q u r, txQueue l q = u :: r → Does (.frameAgeDrop k q false) s (fun t => txQueue (linkGet t k) q = r ∧
      (∀ p, p ≠ q → txQueue (linkGet t k) p = txQueue l p) ∧ others t ∧ Counted aFAB_AGE_DROP s t)) ∧
    (∀ q u r, rxQueue l q = u :: r → Does (.frameAgeDrop k q true) s (fun t => linkGet t k = setRxQueue q r l ∧ others t ∧
      Counted aFAB_AGE_DROP s t)) ∧
    (∀ q, (txQueue l q = [] → Does (.frameAgeDrop k q false) s (fun t => t = s)) ∧
      (rxQueue l q = [] → Does (.frameAgeDrop k q true) s (fun t => t = s))) ∧
    (∀ (rx : Rx) (b : Body), rx.link = some k → s.taking = none →
      let good := linkOn s k = true ∧ (rxCheck k rx b s).1 = true
      let passes := good ∧ rx.waits = false ∧ rxQueue l (queueOf rx.hdr) = [] ∧ k ≠ linkP ∧ isMismatch s k = false ∧ rx.hdr.group = false ∧
        s.fab.addressed = true ∧ rx.hdr.dst ≠ ownAddr s
      (linkOn s k = false → Does (.frameForward rx b) s (fun t => t = s)) ∧
      (linkOn s k = true → rx.fcsOk = false → Does (.frameForward rx b) s (fun t => Counted (aLINK k 0x18) s t ∧ t = { s with ctr := t.ctr })) ∧
      (linkOn s k = true → rx.fcsOk = true → rx.etherOk = false ∨ rx.hdr.ver ≠ 1 ∨ hdrOk rx.hdr = false → Does (.frameForward rx b) s (fun t =>
        Counted aFAB_BAD_HDR s t ∧ t = { s with ctr := t.ctr })) ∧
      (good → rx.waits = true → (rxQueue l (queueOf rx.hdr)).length < queueRoom (queueOf rx.hdr) → Does (.frameForward rx b) s (fun t =>
        linkGet t k = setRxQueue (queueOf rx.hdr) (rxQueue l (queueOf rx.hdr) ++ [⟨.frameForward rx b, s.clock⟩]) l ∧ others t)) ∧
      (passes → rx.hdr.hops = 63 → Does (.frameForward rx b) s (fun t => Counted aFAB_HOP_DROP s t ∧ t = { useZone s with ctr := t.ctr })) ∧
      (∀ j, passes → rx.hdr.hops ≠ 63 → rx.hdr.plane = 0 → rx.hdr.cls = 0 → routeTo s rx.hdr.dst = some j → (linkGet s j).urgent.length < 16 →
        Does (.frameForward rx b) s (fun t => (linkGet t j).urgent =
          (linkGet s j).urgent ++ [⟨⟨{ rx.hdr with hops := rx.hdr.hops + 1 }, b⟩, s.clock, true⟩])))

/-- R265 to R271, R294: numbers and LSAs. -/
def Obligations.NumbersAreClaimedAndLsasKept : Prop :=
  ∀ s : State,
    (mayClaim s = true → s.fab.lost = [] →
      (∀ n r, nextChoice s = some (n, r) → Does .claimStart s (fun t => t.fab.claim = some ⟨n, r, s.clock, 0, false⟩) ∧
        (s.fab.exhausted = true → Does .addrRetry s (fun t => t.fab.claim = some ⟨n, r, s.clock, 0, false⟩))) ∧
      (nextChoice s = none → Does .claimStart s (fun t => t.fab.claim = none ∧ t.fab.exhausted = true ∧
        (s.fab.exhausted = false → Latched aFAB_EVENT 2 t)))) ∧
    (∀ c, s.fab.claim = some c →
      (c.tx < 2 → Does .claimRetransmit s (fun t => t.fab.claim = some { c with tx := c.tx + 1 })) ∧
      Does .claimWin s (fun t => t.fab.addressed = true ∧ t.fab.member = c.number ∧ t.fab.claim = none ∧ t.fab.exhausted = false ∧
        (isStandbyNumber s = false → t.store.savedNum = some (ownZone s, c.number) ∧ t.store.savedStandby = s.store.savedStandby) ∧
        (isStandbyNumber s = true → t.store.savedStandby = some (ownZone s, c.number) ∧ t.store.savedNum = s.store.savedNum))) ∧
    (s.fab.claim = none → Does .claimWin s (fun t => t = s) ∧ Does .claimRetransmit s (fun t => t = s)) ∧
    (∀ (rx : Rx) (m : ClaimMsg), (receive rx (.claim m) s).1 = true → m.serial ≠ s.serial →
      (s.fab.addressed = true → s.fab.member = m.number → Does (.claim rx m) s (fun t => t.fab.addressed = true ∧
        t.fab.member = m.number ∧ (s.serial, m.number, 0, true) ∈ t.fab.claimCache)) ∧
      (∀ c, s.fab.addressed = false → s.fab.claim = some c → c.number = m.number →
        (rankLower c.rank s.serial m.rank m.serial = false → Does (.claim rx m) s (fun t => m.number ∈ t.fab.lost ∧
          Counted aFAB_CLAIM_LOST s t ∧ Latched aFAB_EVENT 3 t ∧ ∀ c', t.fab.claim = some c' → c'.number ≠ m.number)) ∧
        (rankLower c.rank s.serial m.rank m.serial = true → Does (.claim rx m) s (fun t => t.fab.claim = some c ∧ t.fab.lost = s.fab.lost))) ∧
      (s.fab.addressed = false → (∀ c, s.fab.claim = some c → c.number ≠ m.number) → Does (.claim rx m) s (fun t =>
        m.number ∈ t.fab.excluded ∧ t.fab.claim = s.fab.claim))) ∧
    (∀ (rx : Rx) (m : ClaimMsg) (c : ClaimSt), (receive rx (.defend m) s).1 = true → m.serial ≠ s.serial → s.fab.addressed = false →
      s.fab.claim = some c → c.number = m.number → Does (.defend rx m) s (fun t => m.number ∈ t.fab.lost ∧ Counted aFAB_CLAIM_LOST s t ∧
        t.fab.addressed = false ∧ ∀ c', t.fab.claim = some c' → c'.number ≠ m.number)) ∧
    (∀ n, Does (.claimExclusionExpiry n) s (fun t => n ∉ t.fab.excluded ∧ (∀ x ∈ s.fab.excluded, x ≠ n → x ∈ t.fab.excluded) ∧
      t = { s with fab := { s.fab with excluded := t.fab.excluded } })) ∧
    (∀ v, let z := BitVec.ofNat 6 (fld v 12 6)
      let n := BitVec.ofNat 12 (fld v 0 12)
      (fabLive s = true → Does (.fabAddrWrite v) s (fun t => poisoned t aFAB_ADDR = true ∧ t.fab.addressed = (free s).getLsbD 31 ∧
        t.fab.member = (free s).setWidth 12 ∧
          t = { s with unspec := t.unspec, fresh := s.fresh + 1, tri := t.tri,
                       fab := { s.fab with addressed := t.fab.addressed, member := t.fab.member } })) ∧
      (fabLive s = false → s.cfg.live = false → Does (.fabAddrWrite v) s (fun t => t = s)) ∧
      (fabLive s = false → s.cfg.live = true → s.fab.up = false → s.fab.claim = none → Does (.fabAddrWrite v) s (fun t =>
        t = { s with fab := { s.fab with lateZone := if z ≠ ownZone s then some z else s.fab.lateZone,
                                         lateMember := if n ≠ s.fab.member then some n else s.fab.lateMember } })) ∧
      (fabLive s = false → s.cfg.live = true → s.fab.up = true → z ≠ ownZone s → Does (.fabAddrWrite v) s (fun t =>
        t.fab.addressed = false ∧ t.fab.view = [] ∧ t.fab.fwd = [] ∧ ownZone t = z)) ∧
      (fabLive s = false → s.cfg.live = true → s.fab.up = true → s.fab.claim = none → z = ownZone s →
        n ≠ s.fab.member → Does (.fabAddrWrite v) s (fun t => t.fab.addressed = s.fab.addressed ∧
          t.fab.member = s.fab.member ∧ t.fab.claim = some ⟨n, 1, s.clock, 0, true⟩))) ∧
    (∀ (rx : Rx) (l : Lsa), (receive rx (.lsa [l]) s).1 = true → l.addr ≠ ownAddr s →
      (∀ e, lsaFind s l.addr l.serial = some e → l.seq.toNat ≤ e.lsa.seq.toNat → Does (.lsa rx [l]) s (fun t => t.fab.lsas = s.fab.lsas)) ∧
      (lsaFind s l.addr l.serial = none → s.fab.lsas.length < 8192 → Does (.lsa rx [l]) s (fun t =>
        (lsaFind t l.addr l.serial).map (fun e => e.lsa) = some l ∧ t.fab.lsas.length = s.fab.lsas.length + 1))) ∧
    (∀ (a : Addr) (w : Word) (e : LsaEnt), lsaFind s a w = some e → Does (.lsaTombstone a w) s (fun t =>
      (lsaFind t a w).map (fun x => (x.lsa, x.tomb)) = some (e.lsa, true) ∧ t = { s with fab := { s.fab with lsas := t.fab.lsas } }) ∧
      Does (.tombstoneExpiry a w) s (fun t => (∀ x ∈ t.fab.lsas, sameLsa a w x = true → x.tomb = false) ∧
        ∀ x ∈ s.fab.lsas, sameLsa a w x = false → x ∈ t.fab.lsas)) ∧
    (s.fab.addressed = true → (heldSeq s).toNat ≤ s.fab.ownSeq.toNat → Does .lsaOriginate s (fun t => t.fab.ownSeq = s.fab.ownSeq + 1)) ∧
    (s.fab.addressed = false → Does .lsaOriginate s (fun t => t = s)) ∧
    (∀ (rx : Rx) (k : Link), rx.link = some k → isIntra s k = true → (linkGet s k).want = [] → (linkGet s k).routine.length < 64 →
      ((receive rx (.sync (.sequences true [])) s).1 = true → Does (.sync rx (.sequences true [])) s (fun t =>
        (linkGet t k).synced = true ∧ t.fab.lsas = s.fab.lsas)) ∧
      (∀ x last, lsaFind s x.addr x.serial = none → (receive rx (.sync (.sequences last [x])) s).1 = true →
        Does (.sync rx (.sequences last [x])) s (fun t => (linkGet t k).want = [(x.addr, x.serial, x.tomb)] ∧
          (linkGet t k).synced = (linkGet s k).synced ∧ (linkGet t k).routine.length = (linkGet s k).routine.length + 1)) ∧
      (∀ a w e, s.fab.addressed = true → lsaFind s a w = some e → (receive rx (.sync (.request [(a, w)])) s).1 = true →
        Does (.sync rx (.request [(a, w)])) s (fun t => ∃ q, (linkGet t k).routine = (linkGet s k).routine ++ [q] ∧
          q.frame.body = .lsa [e.lsa])))

/-- R272 to R277, R286 to R288: routes, zones, windows. That a summary of path length 0 takes an exit back is the model's choice
(log entry 133). -/
def Obligations.RoutesZonesAndWindows : Prop :=
  ∀ s : State,
    Does .routeCompute s (fun t => Counted aFAB_SPF_RUNS s t ∧
      (s.fab.addressed = true → ownAddr s ∈ t.fab.view ∧ ∀ n k, tabLook t.fab.fwd n = some k → isIntra s k = true) ∧
      (s.fab.addressed = false → t.fab.fwd = [] ∧ t.fab.view = [] ∧ (s.fab.up = true → ownCount t = 1))) ∧
    (∀ (rx : Rx) (k : Link) (n : Neigh) (l : List ZonePath), rx.link = some k → (receive rx (.zoneUpdate l) s).1 = true → isBorder s k = true →
      (linkGet s k).neigh = some n → Does (.zoneUpdate rx l) s (fun t => (∀ p ∈ t.fab.zpaths, p ∈ s.fab.zpaths ∨
        (p.neigh = n.addr ∧ ownZone s ∉ p.path ∧ p.path.length ≤ 63 ∧ p.at_ = s.clock ∧ ∃ q ∈ l, q.zone = p.zone ∧ q.path = p.path)) ∧
        ∀ q, l = [q] → ownZone s ∉ q.path → q.path ≠ [] → q.path.length ≤ 63 → (s.fab.zpaths.filter (fun x => x.zone = q.zone)).length < 4 →
          ⟨q.zone, n.addr, q.path, s.clock⟩ ∈ t.fab.zpaths)) ∧
    (∀ (z : BitVec 6) (a : Addr), Does (.zonePathExpiry z a) s (fun t => t.fab.zpaths = s.fab.zpaths.filter (fun p => !(p.zone = z && p.neigh = a)) ∧
      t.fab.zexits = s.fab.zexits ∧ t.fab.links = s.fab.links)) ∧
    (∀ (rx : Rx) (m : ZoneSummary), (receive rx (.zoneSummary m) s).1 = true → Does (.zoneSummary rx m) s (fun t =>
      let old := s.fab.zexits.find? (fun e => e.zone = m.zone)
      let bits := putSegment (match old with | some e => e.bitmap | none => 0) m.segment m.bitmap
      (∀ e, e.zone ≠ m.zone → (e ∈ t.fab.zexits ↔ e ∈ s.fab.zexits)) ∧
      (m.pathLen ≠ 0 → ∀ e ∈ t.fab.zexits, e.zone = m.zone → e.bitmap = bits) ∧
      (m.pathLen ≠ 0 → (∀ e, old = some e → e.border = rx.hdr.src) → ⟨m.zone, rx.hdr.src, m.pathLen, bits⟩ ∈ t.fab.zexits) ∧
      (m.pathLen = 0 → (∀ e, old = some e → e.border = rx.hdr.src) → ∀ e ∈ t.fab.zexits, e.zone ≠ m.zone))) ∧
    (s.fab.addressed = false ∨ s.cfg.border = false → Does .zoneUpdateSend s (fun t => t = s) ∧ Does .zoneSummarySend s (fun t => t = s)) ∧
    (s.fab.addressed = true → s.cfg.border = true → Does .zoneUpdateSend s (fun t => t.fab.zpaths = s.fab.zpaths ∧ t.call = s.call ∧
      t.alm = s.alm ∧ (∀ k, isBorder s k = false → linkGet t k = linkGet s k) ∧
      ∀ k, isBorder s k = true → (linkGet s k).routine.length < 64 → (linkGet s k).routine.length < (linkGet t k).routine.length ∧
        ∀ q ∈ (linkGet t k).routine, q ∈ (linkGet s k).routine ∨ payloadLen q.frame.body ≤ 222) ∧
      ((∀ p ∈ s.fab.zpaths, p.path ≠ []) → Does .zoneSummarySend s (fun t => t.fab.zpaths = s.fab.zpaths ∧ t.call = s.call ∧ t.pb = s.pb ∧
        ∀ p ∈ s.fab.zpaths, ∃ e ∈ t.fab.zexits, e.zone = p.zone))) ∧
    (∀ (key : Word) (st : BitVec 12), Does (.windowIdleFree key st) s (fun t => (∀ w ∈ t.fab.windows, ¬(w.key = key ∧ w.stream = st)) ∧
      (∀ w ∈ s.fab.windows, ¬(w.key = key ∧ w.stream = st) → w ∈ t.fab.windows) ∧
      t = { s with fab := { s.fab with windows := t.fab.windows } })) ∧
    (∀ (key : Word) (st : BitVec 12) (q : BitVec 16),
      (st ≠ 0 → (dupCheck key st q (dupCheck key st q s).2).1 = false) ∧ dupCheck key 0 q s = (true, s) ∧
      (st ≠ 0 → (∀ w ∈ s.fab.windows, ¬(w.key = key ∧ w.stream = st)) → (dupCheck key st q s).1 = true))

/-- R282 to R285, R289, R290: fabric time and publications. -/
def Obligations.FabricTimeAndPublications : Prop :=
  ∀ s : State,
    (isRoot s = true → Does .timeMarkSend s (fun t => t.fab.markNum = s.fab.markNum + 1 ∧ t.fab.rootStep = false ∧
      t.pb.tsMarkFt = fabUs s ∧ t.pb.tsMark = tsNow s ∧ t.pb.tsPrev = s.pb.tsMark ∧ t.pb.tsPrevFt = s.pb.tsMarkFt ∧ fabNs t = fabNs s)) ∧
    (isRoot s = false → Does .timeMarkSend s (fun t => t = s)) ∧
    (∀ (rx : Rx) (k : Link) (m : TimeMark), rx.link = some k → (receive rx (.timeMark m) s).1 = true → isBorder s k = false →
      isRoot s = false → s.fab.root = some m.root → reversePath k m.root s = true →
      let o := markOffset k rx.hdr m s
      (1000000 < o.natAbs → s.fab.ftOn = true → Does (.timeMark rx m) s (fun t => t.fab.offset = satOffset o ∧ t.fab.goodMarks = 0 ∧
        fabNs t = ((fabNs s : Int) + o).toNat ∧ Counted aFAB_TIME_STEPS s t ∧ Latched aFAB_EVENT 6 t ∧ Offered 0x10 1 s t)) ∧
      (o.natAbs ≤ 1000000 → Does (.timeMark rx m) s (fun t => t.fab.offset = satOffset o ∧ t.fab.goodMarks = s.fab.goodMarks + 1 ∧
        fabNs t = fabNs s ∧ t.fab.slew = o ∧ t.fab.slewPpm = 100 ∧ (79 ≤ s.fab.goodMarks → t.fab.synced = true) ∧ t.rcd = s.rcd))) ∧
    (∀ (rx : Rx) (o : Int), (receive rx (.zoneOffset o) s).1 = true →
      (isRoot s = true → 10000000 < o.natAbs → s.fab.ftOn = true → Does (.meanOffsetReport rx o) s (fun t =>
        fabNs t = ((fabNs s : Int) + o).toNat ∧ t.fab.rootStep = true ∧ Counted aFAB_TIME_STEPS s t)) ∧
      (isRoot s = true → o.natAbs ≤ 10000000 → Does (.meanOffsetReport rx o) s (fun t => fabNs t = fabNs s ∧ t.fab.slew = o ∧
        t.fab.slewPpm = 50 ∧ t.fab.rootStep = s.fab.rootStep)) ∧
      (isRoot s = false → Does (.meanOffsetReport rx o) s (fun t => fabNs t = fabNs s ∧ t.fab.slew = s.fab.slew))) ∧
    (∀ r, isSysExit s = true → s.fab.borderOffsets ≠ [] → s.fab.root = some r → Does .zoneOffsetReport s (fun t => t.fab.borderOffsets = [] ∧
      ∀ k, r ≠ ownAddr s → routeTo s r = some k → (linkGet s k).urgent.length < 16 → ∃ q, (linkGet t k).urgent = (linkGet s k).urgent ++ [q] ∧
        q.frame.hdr.dst = r ∧ q.frame.body = .zoneOffset (s.fab.borderOffsets.sum / (s.fab.borderOffsets.length : Int)))) ∧
    (isSysExit s = false → Does .zoneOffsetReport s (fun t => t = s)) ∧
    (∀ (rx : Rx) (mask : BitVec 112), (receive rx (.subscribe mask) s).1 = true → Does (.subscribe rx mask) s (fun t =>
      ∃ x ∈ t.fab.subscribers, x.node = rx.hdr.src ∧ x.mask = mask ∧ x.heardAt = s.clock)) ∧
    (∀ a, Does (.subscriberExpiry a) s (fun t => (∀ x ∈ t.fab.subscribers, x.node ≠ a) ∧
      ∀ x ∈ s.fab.subscribers, x.node ≠ a → x ∈ t.fab.subscribers)) ∧
    (∀ (rx : Rx) (p : PubEntry) (b : Sub), (receive rx (.publication [p]) s).1 = true → s.cfg.subs = [b] → b.srcNode = rx.hdr.src →
      b.srcEntry.toNat = p.entry.val → 64 ≤ b.localEntry.toNat → Does (.publication rx [p]) s (fun t =>
        let e := b.localEntry.toNat
        valGet t e = ⟨if instGet s e ≠ p.instant then (valGet s e).seq + 1 else (valGet s e).seq, p.quality, p.value⟩ ∧
        instGet t e = p.instant ∧ ∀ j, j ≠ e → 64 ≤ j → valGet t j = valGet s j)) ∧
    (∀ e : Fin 1024, poisoned s (entryOwner e.val) = false →
      (s.cfg.subs.any (fun b => b.localEntry.toNat = e.val) = true → Does (.subscriptionTimeout e) s (fun t =>
        (valGet t e.val).quality = qOUT_OF_SERVICE ∧ (valGet t e.val).seq = (valGet s e.val).seq ∧ ∀ j, j ≠ e.val → valGet t j = valGet s j)) ∧
      (s.cfg.subs.any (fun b => b.localEntry.toNat = e.val) = false → Does (.subscriptionTimeout e) s (fun t => t = s))) ∧
    Does .publicationSend s (fun t => t.vals = s.vals ∧ t.alm = s.alm ∧ t.rcd = s.rcd ∧ (isStandbyNumber s = true → t = s) ∧
      ∀ x k, s.fab.subscribers = [x] → isStandbyNumber s = false → s.fab.addressed = true → x.node ≠ ownAddr s → routeTo s x.node = some k →
        (linkGet s k).data.length < 32 → dueOrder x s ≠ [] → ∃ q, (linkGet t k).data = (linkGet s k).data ++ [q] ∧ q.frame.hdr.dst = x.node ∧
          q.frame.body = .publication (((dueOrder x s).take 61).map (fun e =>
            ⟨Fin.ofNat 112 e, (valGet s e).quality, (valGet s e).value, instGet s e⟩))) ∧
    Does .subscribeSend s (fun t => t.vals = s.vals ∧ t.alm = s.alm ∧ t.cfg = s.cfg ∧ t.fab.subscribers = s.fab.subscribers ∧
      (s.fab.addressed = false → t = s) ∧
      ∀ b k, s.cfg.subs = [b] → s.fab.addressed = true → b.srcNode ≠ ownAddr s → routeTo s b.srcNode = some k → (linkGet s k).data.length < 32 →
        ∃ q, (linkGet t k).data = (linkGet s k).data ++ [q] ∧ q.frame.hdr.dst = b.srcNode ∧ q.frame.body = .subscribe (subMask s b.srcNode))

/-- R297 to R305, R318: catalogues, facts, the score. -/
def Obligations.CataloguesAndFactsAreKept : Prop :=
  ∀ s : State,
    let lists := fun (a : Addr) (t : State) => ∀ i ∈ listedItems s, (tabGet [] t.plc.cands i.toNat).length ≤ 64 ∧
      ((∀ c ∈ t.plc.cats, c.origin = a → catOffers t c i = false) → ∀ x ∈ tabGet [] t.plc.cands i.toNat, x.addr ≠ a)
    let kept := fun (f : Catalogue) (t : State) => (∃ c ∈ t.plc.cats, c.origin = f.origin ∧ c.version = f.version ∧ c.entries = f.entries ∧
      c.slots = f.slots) ∧ (∀ c ∈ t.plc.cats, c.origin = f.origin → c.version = f.version) ∧ lists f.origin t
    let newer := fun (f : Catalogue) => s.plc.up = true ∧ f.count = 1 ∧ s.plc.partialCats = [] ∧
      (s.fab.addressed = false ∨ f.origin ≠ ownAddr s) ∧ (∀ c, catOf s f.origin = some c → c.version.toNat < f.version.toNat)
    (∀ (rx : Rx) (f : Catalogue),
      ((receive rx (.catalogue f) s).1 = true → newer f → Does (.catalogue rx f) s (kept f)) ∧
      ((receive rx (.catalogueRelay f) s).1 = true → newer f → Does (.catalogueRelay rx f) s (kept f)) ∧
      (∀ c, catOf s f.origin = some c → f.version.toNat ≤ c.version.toNat →
        let same := fun (t : State) => t.plc = { s.plc with cats := t.plc.cats } ∧ ∀ x, x ∈ t.plc.cats ↔ x ∈ s.plc.cats
        Does (.catalogue rx f) s same ∧ Does (.catalogueRelay rx f) s same)) ∧
    (∀ (rx : Rx) (v : Word), Does (.catalogueRequest rx v) s (fun t => t.plc = s.plc ∧ t.call = s.call ∧ t.alm = s.alm ∧
      ∀ k, (receive rx (.catalogueRequest v) s).1 = true → s.plc.up = true → s.fab.addressed = true → rx.hdr.src ≠ ownAddr s →
        routeTo s rx.hdr.src = some k → k.val < 6 → (linkGet s k).routine.length < 64 →
        (linkGet s k).routine.length < (linkGet t k).routine.length)) ∧
    (s.fab.addressed = true → s.plc.up = true → Does .catalogueSend s (fun t => (∃ c ∈ t.plc.cats, c.origin = ownAddr s ∧
      c.version = s.plc.version ∧ c.entries = ownEntries s) ∧ t.plc.version = s.plc.version ∧ t.call = s.call)) ∧
    (s.fab.addressed = false ∨ s.plc.up = false → Does .catalogueSend s (fun t => t = s)) ∧
    (∀ (rx : Rx) (m : NodeState), (receive rx (.nodeState m) s).1 = true → s.plc.up = true → Does (.nodeState rx m) s (fun t =>
      factOf t m.addr = some ⟨m.addr, m.slots, m.eligible, m.trend, m.catVersion, m.configId⟩ ∧
      (∀ a, a ≠ m.addr → factOf t a = factOf s a) ∧ t.plc.cats = s.plc.cats)) ∧
    Does .nodeStateSend s (fun t => t.plc = s.plc ∧ t.call = s.call ∧ t.alm = s.alm ∧ (s.fab.addressed = false → t = s) ∧
      ∀ k, s.fab.addressed = true → isIntra s k = true → (linkGet s k).routine.length < 64 → ∃ q,
        (linkGet t k).routine = (linkGet s k).routine ++ [q] ∧ q.frame.body = .nodeState (nodeStateMsg s)) ∧
    (∀ a, (inView s a = true → Does (.candidateHealthy (.view a)) s (fun t => a ∈ t.plc.healthyNodes ∧
        ∀ b, b ≠ a → (b ∈ t.plc.healthyNodes ↔ b ∈ s.plc.healthyNodes))) ∧
      (inView s a = false → Does (.candidateHealthy (.view a)) s (fun t => t = s)) ∧
      (inView s a = false → Does (.candidateExpiry a) s (fun t =>
        (∀ c ∈ t.plc.cats, c.origin = a → c.expired = true) ∧ t.plc.cats.map (fun c => c.version) = s.plc.cats.map (fun c => c.version) ∧
        ∀ i ∈ listedItems s, ∀ x ∈ tabGet [] t.plc.cands i.toNat, x.addr ≠ a)) ∧
      (inView s a = true → Does (.candidateExpiry a) s (fun t => t = s))) ∧
    (∀ i, (quorumOf s i = true → Does (.candidateHealthy (.quorum i)) s (fun t => (itemGet t i).quorumOk = true ∧ (itemGet t i).role = (itemGet s i).role)) ∧
      (quorumOf s i = false → Does (.candidateHealthy (.quorum i)) s (fun t => t = s))) ∧
    (s.sys.phase = .safeIdle → ∀ b v, Does (.placeCalcWrite b v) s (fun t => t = s)) ∧
    (s.sys.phase ≠ .safeIdle → ∀ v, Does (.placeCalcWrite false v) s (fun t => t.plc.calcItem = v ∧ t.plc.calcH = scoreH s.cfg.k0 s.cfg.k1 v s.plc.calcAddr) ∧
      Does (.placeCalcWrite true v) s (fun t => t.plc.calcAddr = v.setWidth 18 ∧ t.plc.calcH = scoreH s.cfg.k0 s.cfg.k1 s.plc.calcItem (v.setWidth 18)))

/-- R306 to R310, R316, R317: roles and trends. -/
def Obligations.RolesFollowTheOwnComputation : Prop :=
  ∀ s : State,
    (s.plc.up = true → Does .placementRecompute s (fun t => Counted aPLACE_RECOMPUTE s t ∧ t.fab.view = s.fab.view ∧
      (∀ i, (itemGet t i).role = .primary → (itemGet t i).primary = some (ownAddr s) ∧ (itemGet t i).quorum = true) ∧
      (∀ i, (itemGet t i).role = .shadow → (itemGet t i).shadow = some (ownAddr s) ∧ (itemGet t i).quorum = true) ∧
      (s.fab.addressed = false → ∀ i, (itemGet t i).role = .none))) ∧
    (s.plc.up = false → Does .placementRecompute s (fun t => t = s) ∧ Does .refusalWithdraw s (fun t => t = s)) ∧
    (∀ i, s.plc.up = true → s.plc.lastWithdraw = none → ownRefused s = [i] → itemWeight s i + slotsUsed s ≤ s.cfg.slots →
      Does .refusalWithdraw s (fun t => (itemGet t i).refused = false ∧ t.plc.lastWithdraw = some s.clock ∧
        t.plc.version = if s.plc.version.toNat < s.store.opSeconds.toNat then s.store.opSeconds else s.plc.version + 1)) ∧
    (∀ w, s.plc.lastWithdraw = some w → s.clock - w < 10000000000 → Does .refusalWithdraw s (fun t => t = s)) ∧
    (∀ i, (knownItems s).contains i = true → (itemGet s i).primary = none → (itemGet s i).starved = false → canStarve s i = true →
      Does (.itemStarved i) s (fun t => (itemGet t i).starved = true ∧
        (anyStarved s = false → Counted aPLACE_STARVED_COUNT s t ∧ Latched aPLACE_EVENT 1 t ∧ Offered 0x10 3 s t) ∧
        (anyStarved s = true → t.rcd = s.rcd ∧ t.ctr = s.ctr))) ∧
    (∀ i, (itemGet s i).primary.isSome = true → Does (.itemStarved i) s (fun t => t = s)) ∧
    (∀ (rx : Rx) (m : TrendMsg), (receive rx (.trend m) s).1 = true →
      (roleOf s m.item ≠ .none → Does (.trend rx m) s (fun t => let r := tabGet [] t.plc.rings m.item.toNat
        r.length ≤ 180 ∧ r.getLast? = some ⟨m.period, m.start, m.means, m.quals⟩ ∧ t.plc.items = s.plc.items)) ∧
      (roleOf s m.item = .none → Does (.trend rx m) s (fun t => t.plc = s.plc))) ∧
    (s.fab.addressed = true → hasAnalogue s = true → isStandbyNumber s = false → Does .trendSend s (fun t =>
      t.plc.acc = [] ∧ t.vals = s.vals ∧ t.plc.rings = s.plc.rings ∧
      ∀ d k, itemTargets s (trendItem (pairAddr s)) = [d] → d ≠ ownAddr s → routeTo s d = some k → (linkGet s k).data.length < 32 → ∃ q m,
        (linkGet t k).data = (linkGet s k).data ++ [q] ∧ q.frame.hdr.dst = d ∧ q.frame.body = .trend m ∧ m.item = trendItem (pairAddr s) ∧
        m.period = wd ((fabUs s).toNat / 10000000 - 1) ∧ m.quals = (List.range 64).map (fun e => (tabGet {} s.plc.acc e).bad.getD 0) ∧
        m.means = (List.range 64).map (fun e => let a := tabGet ({} : TrendAcc) s.plc.acc e
          if a.vals.isEmpty then fNaN else fMean a.vals))) ∧
    (s.fab.addressed = false ∨ hasAnalogue s = false ∨ isStandbyNumber s = true → Does .trendSend s (fun t =>
      t = { s with plc := { s.plc with acc := [] } }))

/-- R324 to R330, R334: beats, health, paths and tests. -/
def Obligations.PairHeartbeatsAndHealth : Prop :=
  ∀ s : State, isPair s = true →
    let fails := fld (healthWord s) 30 2 = 2 ∧ ownVerdict s ≠ 2
    let alone := s.pair.state = .standby ∧ isRunning s = true ∧ s.pair.loopHeld = true ∧ s.pair.listening = false ∧ ownVerdict s ≠ 2 ∧ s.pair.seizing = false
    let seizes := fun (t : State) => t.pair.seizing = true ∧ Counted aPAIR_SEIZES s t ∧ Latched aPAIR_EVENT 5 t
    Does .healthWordUpdate s (fun t => t.pair = { s.pair with health := healthWord s } ∧ (fails → Offered 0x10 2 s t) ∧ (¬ fails → t.rcd = s.rcd)) ∧
    (s.pair.state ≠ .start → Does .pairBeatSend s (fun t => t.pair.state = s.pair.state ∧ t.pair.ownHeld = s.pair.ownHeld ∧
      ((linkGet s linkP).phyUp = false → t.pair.pathP.sent = s.pair.pathP.sent) ∧
      ((linkGet s linkP).phyUp = true → urgentRoom s linkP = true → peerLink s ≠ some linkP → t.pair.pathP.sent = s.pair.pathP.sent + 1 ∧
        ∃ q, (linkGet t linkP).urgent = (linkGet s linkP).urgent ++ [q] ∧ q.frame.body = .pair .beat (pairMsg s (s.pair.pathP.sent + 1))) ∧
      (peerLink s = none → t.pair.pathF.sent = s.pair.pathF.sent) ∧
      (∀ l, peerLink s = some l → l ≠ linkP → urgentRoom s l = true → t.pair.pathF.sent = s.pair.pathF.sent + 1))) ∧
    (s.pair.state = .start → Does .pairBeatSend s (fun t => t = s)) ∧
    (∀ (rx : Rx) (m : PairMsg), (receive rx (.pair .beat m) s).1 = true → s.pair.state ≠ .start → s.pair.state ≠ .faulted → s.pair.listening = false →
      (s.pair.ownHeld = false → Does (.beat rx m) s (fun t => t.pair.peer = some m ∧ t.pair.peerHealth = m.health ∧ t.pair.peerAt = s.clock ∧
        (rx.link = some linkP → t.pair.pathP.up = true ∧ t.pair.pathP.since = s.clock ∧ t.pair.pathF = s.pair.pathF ∧ t.pair.peerAddr = some m.addr ∧
          ctrGet t aPAIR_MISS_P = satAdd (ctrGet s aPAIR_MISS_P) (missedBeats s.pair.pathP s.clock)) ∧
        (rx.link ≠ some linkP → t.pair.pathF.up = true ∧ t.pair.pathF.since = s.clock ∧ t.pair.pathP = s.pair.pathP ∧
          ctrGet t aPAIR_MISS_F = satAdd (ctrGet s aPAIR_MISS_F) (missedBeats s.pair.pathF s.clock)) ∧
        (s.pair.state = .standby → fld m.health 30 2 = 2 → ownVerdict s < 2 → m.configId = s.cfg.id → m.configIssue = s.cfg.issue →
          fld m.health 27 3 ≠ 4 → s.pair.forHandover = false → t.pair.doubleSend = true ∧ t.pair.forHandover = true ∧ t.pair.wanted = 3) ∧
        (s.pair.state = .handoverOut → m.outputsDriven = true → t.pair.state = .standby ∧ ∀ k, (dout t k).fix = .released))) ∧
      (s.pair.ownHeld = true → s.pair.split = false → m.health.getLsbD 26 = true → Does (.beat rx m) s (fun t =>
        Counted aPAIR_SPLITS s t ∧ Latched aPAIR_EVENT 7 t ∧
        (s.pair.state = .handoverIn → fld m.health 27 3 ≠ 4 → t.pair.ownHeld = false ∧ Latched aPAIR_EVENT 1 t) ∧
        (s.pair.state = .active → fld m.health 27 3 = 4 → t.pair.ownHeld = true ∧ t.pair.split = true ∧ Offered 0x10 3 s t)))) ∧
    (s.pair.state ≠ .start → s.pair.state ≠ .faulted →
      (s.pair.pathP.up = true → Does (.pairPathLost .p) s (fun t => t.pair.pathP.up = false ∧
        ctrGet t aPAIR_MISS_P = satAdd (ctrGet s aPAIR_MISS_P) 5 ∧ Latched aPAIR_EVENT 3 t ∧ (alone → s.pair.pathF.up = false → seizes t))) ∧
      (s.pair.pathF.up = true → Does (.pairPathLost .fabric) s (fun t => t.pair.pathF.up = false ∧
        ctrGet t aPAIR_MISS_F = satAdd (ctrGet s aPAIR_MISS_F) 5 ∧ Latched aPAIR_EVENT 3 t ∧ (alone → s.pair.pathP.up = false → seizes t)))) ∧
    (s.pair.pathP.up = false → Does (.pairPathLost .p) s (fun t => t = s)) ∧
    (s.pair.pathF.up = false → Does (.pairPathLost .fabric) s (fun t => t = s)) ∧
    (∀ (b : Fin 8) (x : Bool), (s.pair.state = .standby → Does (.calTest b x) s (fun t => t.pair.calMiss[b] = x ∧
        t.pair.calFail = (s.pair.calFail || (x && s.pair.calMiss[b])) ∧ ∀ c : Fin 8, c ≠ b → t.pair.calMiss[c] = s.pair.calMiss[c])) ∧
      (s.pair.state ≠ .standby → Does (.calTest b x) s (fun t => t = s))) ∧
    (s.pair.state = .standby → ownVerdict s = 2 → Does .standbyFaulted s (fun t => t.pair.state = .faulted ∧ t.pair.doubleSend = false ∧
      Latched aPAIR_EVENT 2 t ∧ t.alm.running = false ∧ ∀ k, (dout t k).fix = .released)) ∧
    (ownVerdict s ≠ 2 → Does .standbyFaulted s (fun t => t = s))

/-- R321, R324, R329 to R333: taking and releasing OWN. -/
def Obligations.OwnIsTakenAndReleased : Prop :=
  ∀ s : State, isPair s = true →
    let may := isRunning s = true ∧ s.pair.state = .standby ∧ s.pair.ownHeld = false ∧ ownVerdict s ≠ 2
    let took := fun (c : BitVec 4) (t : State) => t.pair.ownHeld = true ∧ t.pair.state = .handoverIn ∧ t.pair.trigger = c ∧
      t.pair.takenAt = s.clock ∧ t.pair.probing = false ∧ t.pair.seizing = false ∧ Counted aPAIR_TAKEOVERS s t ∧
      Latched aPAIR_EVENT 0 t ∧ t.fab.addressed = true ∧ t.fab.claim = none ∧ t.alm.running = true
    let at_ := fun (t : State) => t.fab.member = memberOf (pairAddr s) ∧ ∀ k, (dout t k).cmd = takenCmd s k
    let onWireP := (linkGet s linkP).phyUp = true ∧ urgentRoom s linkP = true
    let seizes := fun (t : State) => t.pair.seizing = true ∧ Counted aPAIR_SEIZES s t ∧ Latched aPAIR_EVENT 5 t
    let cause : BitVec 4 := if s.pair.requested then s.pair.wanted else 2
    let said : BitVec 4 := if s.pair.requested then s.pair.wanted else 1
    let senses := { s.pair with loopHeld := true, listening := false, extended := false }
    (may → s.pair.listening = false → s.pair.seizing = false → announced s = true →
      Does (.ownLoopReleased false) s (fun t => took said t ∧ at_ t)) ∧
    (may → s.pair.listening = false → s.pair.seizing = false → announced s = false → Does (.ownLoopReleased false) s (fun t =>
      t.pair.probing = true ∧ t.pair.ownHeld = false ∧ t.pair.loopHeld = false ∧
      (onWireP → t.pair.pathP.sent = s.pair.pathP.sent + 1))) ∧
    (s.pair.ownHeld = false → s.pair.pathP.up = true ∨ s.pair.pathF.up = true → Does (.ownLoopReleased true) s (fun t => t = { s with pair := senses })) ∧
    (may → s.pair.pathP.up = false → s.pair.pathF.up = false → s.pair.seizing = false → Does (.ownLoopReleased true) s seizes) ∧
    (s.pair.ownHeld = true → ∀ b, Does (.ownLoopReleased b) s (fun t => t = s)) ∧
    (may → s.pair.listening = true → s.pair.extended = false → s.pair.seizing = false →
      (announced s = true → Does (.listenEnd false) s (took said)) ∧
      (announced s = false → Does (.listenEnd false) s (fun t => t.pair.probing = true ∧ t.pair.listening = false)) ∧
      Does (.listenEnd true) s (fun t => t = { s with pair := senses })) ∧
    (s.pair.listening = true → s.pair.extended = true → s.clock < s.pair.listenFrom + listenLen + listenMore → ∀ b,
      Does (.listenEnd b) s (fun t => t = s)) ∧
    (may → s.pair.probing = true → Does .probeTimeout s (fun t => took 1 t ∧ at_ t)) ∧
    (s.pair.probing = false → Does .probeTimeout s (fun t => t = s)) ∧
    (may → s.pair.listening = false → s.pair.seizing = true → Does (.seizeEnd false) s (took cause) ∧
      Does (.seizeEnd true) s (fun t => t.pair = { s.pair with loopHeld := true })) ∧
    (s.pair.seizing = false → ∀ b, Does (.seizeEnd b) s (fun t => t = s)) ∧
    (∀ (rx : Rx) (m : PairMsg), may →
      ((receive rx (.pair .grant m) s).1 = true → Does (.grant rx m) s (fun t => t.pair.announcedAt = some s.clock ∧
        (s.pair.probing = true → took said t) ∧ (s.pair.probing = false → t.pair.ownHeld = false))) ∧
      ((receive rx (.pair .released m) s).1 = true → Does (.released rx m) s (fun t => t.pair.announcedAt = some s.clock ∧
        (s.pair.probing = true → took 1 t) ∧ (s.pair.probing = false → t.pair.ownHeld = false))) ∧
      ((receive rx (.pair .probeReply m) s).1 = true → s.pair.probing = true → m.health.getLsbD 26 = true → Does (.probeReply rx m) s (fun t =>
        t.pair.probing = false ∧ t.pair.state = .standby ∧ t.pair.ownHeld = false ∧
        (m.health.getLsbD 25 = true → Counted aPAIR_LOOP_FAULTS s t ∧ Latched aPAIR_EVENT 6 t))) ∧
      ((receive rx (.pair .probe m) s).1 = true → Does (.probe rx m) s (fun t =>
        t.pair.pathP.sent = s.pair.pathP.sent ∧ t.pair.pathF.sent = s.pair.pathF.sent ∧ t.pair.ownHeld = false))) ∧
    (∀ (rx : Rx) (m : PairMsg), (receive rx (.pair .probe m) s).1 = true → s.pair.state = .active → s.pair.ownHeld = true →
      rx.link = some linkP → onWireP → Does (.probe rx m) s (fun t => t.pair.pathP.sent = s.pair.pathP.sent + 1 ∧ t.pair.ownHeld = true ∧
        ∃ q x, (linkGet t linkP).urgent = (linkGet s linkP).urgent ++ [q] ∧ q.frame.body = .pair .probeReply x ∧ x.health = s.pair.health)) ∧
    (s.pair.ownHeld = true → Does .ownSeized s (fun t => t.pair.ownHeld = false ∧ t.pair.state = .handoverOut ∧ Counted aPAIR_SEIZES s t ∧
      Latched aPAIR_EVENT 5 t ∧ Latched aPAIR_EVENT 1 t ∧ t.alm.running = false ∧ t.fab.addressed = false ∧
      (∀ k, (dout s k).fix = .track → (dout t k).fix = .hold ∧ (dout t k).fixState = doCmd s k) ∧ t.pb.c1.monitor = true ∧ t.pb.c2.monitor = true)) ∧
    (s.pair.ownHeld = false → Does .ownSeized s (fun t => t = s)) ∧
    (∀ b, Does (.ownLoopOpen b) s (fun t => t = if s.pair.ownHeld then { s with pair := { s.pair with loopOpen := b } } else s)) ∧
    (may → s.pair.requested = true → s.pair.loopHeld = true → s.pair.seizing = false → Does .grantTimeout s seizes) ∧
    (s.pair.requested = false ∨ s.pair.loopHeld = false → Does .grantTimeout s (fun t => t = s)) ∧
    (s.pair.state = .handoverIn → incomingDone s = true → Does .handoverComplete s (fun t => t.pair.state = .active ∧
      t.pair.ownHeld = s.pair.ownHeld ∧
      t.pair.doubleSend = false ∧
      t.pair.lastSwitch = wd (s.pair.trigger.toNat * 2 ^ 28 + min 65535 ((s.clock - s.pair.triggerAt) / 1000000)))) ∧
    (s.pair.state ≠ .handoverIn ∨ incomingDone s = false → Does .handoverComplete s (fun t => t = s)) ∧
    (s.clock ≥ s.pair.takenAt + 2000000000 → incomingDone s = true) ∧
    (s.pair.state = .handoverOut → Does .handoverOutEnd s (fun t => t.pair.state = .standby ∧
      t.pair.doubleSend = (!flaconDiff s && s.pair.pathP.up && s.pair.pathF.up) ∧ ∀ k, (dout t k).fix = .released)) ∧
    (s.pair.state ≠ .handoverOut → Does .handoverOutEnd s (fun t => t = s))

/-- R335 to R341: checkpoints, double-send, planned handovers. -/
def Obligations.CheckpointsMirrorsAndHandovers : Prop :=
  ∀ s : State, isPair s = true →
    let begun := fun (c : BitVec 4) (t : State) => t.pair.doubleSend = true ∧ t.pair.forHandover = true ∧ t.pair.wanted = c
    (s.pair.ownHeld = true → Does .checkpointSend s (fun t => t.pair = { s.pair with ckptGen := s.pair.ckptGen + 1 } ∧ t.alm = s.alm ∧
      ((configDiffs s).length > 256 → Latched aPAIR_EVENT 8 t))) ∧
    (s.pair.ownHeld = false → Does .checkpointSend s (fun t => t = s)) ∧
    let onWireP := (linkGet s linkP).phyUp = true ∧ urgentRoom s linkP = true
    (∀ (rx : Rx) (c : Checkpoint) (whole crc : Bool), (receive rx (.checkpoint c) s).1 = true → s.pair.ownHeld = false → s.pair.state ≠ .faulted →
      let ok := whole = true ∧ crc = true ∧ c.configId = s.cfg.id ∧ c.configIssue = s.cfg.issue ∧ fmtKnown s c.fmt = true
      Does (.checkpoint rx c whole crc) s (fun t =>
        (ok → t.pair.copy = some { c with runtime := [] } ∧ t.pair.ckptGen = c.gen ∧ t.pair.ckptAt = some s.clock ∧
          ∀ i, tabLook c.runtime i = none → tabLook t.pair.copyRuntime i = tabLook s.pair.copyRuntime i) ∧
        (¬ ok → t.pair = s.pair ∧ Counted aPAIR_CKPT_BAD s t ∧ Latched aPAIR_EVENT 4 t))) ∧
    (∀ (rx : Rx) (f : BitVec 16) (e : AlmEvent), (receive rx (.eventMirror f e) s).1 = true → s.pair.ownHeld = false → s.pair.state ≠ .faulted →
      fmtKnown s f = false → Does (.eventMirror rx f e) s (fun t => t.pair = s.pair ∧ Counted aPAIR_CKPT_BAD s t ∧ Latched aPAIR_EVENT 4 t)) ∧
    (∀ (rx : Rx) (f : BitVec 16) (e : AlmEvent) (w : Word) (r : List Word), (receive rx (.eventMirror f e) s).1 = true → s.pair.ownHeld = false →
      s.pair.state ≠ .faulted → fmtKnown s f = true → tabLook s.pair.copyRuntime (e.tag.toNat % 4096) = some (w :: r) →
      Does (.eventMirror rx f e) s (fun t =>
        tabLook t.pair.copyRuntime (e.tag.toNat % 4096) = some (((w &&& 0x1FFF0000) ||| wd (e.newState.toNat % 8 * 2 ^ 29 + e.occ.toNat)) :: r) ∧
        ∀ i, i ≠ e.tag.toNat % 4096 → tabLook t.pair.copyRuntime i = tabLook s.pair.copyRuntime i)) ∧
    (∀ (rx : Rx) (m : TickMirror), (receive rx (.tickMirror m) s).1 = true → s.pair.state = .standby → s.pair.doubleSend = true →
      (fmtKnown s m.fmt = false → Does (.tickMirror rx m) s (fun t => t.pair.doubleSend = false ∧ t.alm.running = false ∧
        Counted aPAIR_CKPT_BAD s t)) ∧
      (fmtKnown s m.fmt = true → m.complete = false → Does (.tickMirror rx m) s (fun t => t.pair.doubleSend = false ∧ t.pair.forHandover = false ∧ t.alm.running = false)) ∧
      (fmtKnown s m.fmt = true → m.complete = true → s.pair.halves = 3 → Does (.tickMirror rx m) s (fun t => t.alm.running = true ∧ t.alm.cycle = m.cycle ∧ t.alm.inVals = m.values)) ∧
      (fmtKnown s m.fmt = true → m.complete = true → s.pair.halves ≠ 3 → Does (.tickMirror rx m) s (fun t => t.alm = s.alm ∧ t.pair = s.pair))) ∧
    (∀ e, (s.pair.doubleSend = true → (e = true ∨ s.pair.forHandover = false) → Does (.doubleSendEnd e) s (fun t => t.pair.doubleSend = false ∧
        (s.pair.state = .standby → t.alm.running = false) ∧ (e = true → s.pair.state = .standby → t.pair.forHandover = false ∧ t.pair.requested = false))) ∧
      (s.pair.doubleSend = false → Does (.doubleSendEnd e) s (fun t => t = s))) ∧
    (∀ v, (s.sys.lock = false → Does (.pairForceWrite v) s (fun t => t.pair.force = v.setWidth 2 ∧
        (v.setWidth 2 = 1#2 → mayPlan s = true → s.pair.forHandover = false → begun 6 t) ∧
        (v.setWidth 2 = 2#2 → s.pair.state = .active → onWireP → t.pair.pathP.sent = s.pair.pathP.sent + 1 ∧ t.pair.ownHeld = s.pair.ownHeld) ∧
        (v.setWidth 2 = 3#2 → 0x0C0000 ∈ t.unspec) ∧ (v.setWidth 2 = 0#2 → t = { s with pair := { s.pair with force := 0 } }))) ∧
      (s.sys.lock = true → Does (.pairForceWrite v) s (fun t => t.pair = s.pair ∧ Counted aSYS_LOCK_REFUSED s t))) ∧
    (∀ (rx : Rx) (m : PairMsg), (receive rx (.pair .handoverReq m) s).1 = true → s.pair.state = .active → s.pair.ownHeld = true →
      let ok := m.configId = s.cfg.id ∧ m.configIssue = s.cfg.issue ∧ fld m.health 27 3 ≠ 4 ∧ fld m.health 30 2 ≠ 2
      Does (.handoverReq rx m) s (fun t =>
        (ok → t.pair.ownHeld = false ∧ t.pair.state = .handoverOut ∧ t.alm.running = false ∧ Latched aPAIR_EVENT 1 t ∧
          ∀ k, (dout s k).fix = .track → (dout t k).fix = .hold) ∧
        (¬ ok → t.pair.ownHeld = true ∧ t.pair.state = .active ∧ t.io = s.io))) ∧
    (mayPlan s = true → s.pair.forHandover = true → s.pair.doubleSend = true → s.pair.requested = false → s.pair.wanted ≠ 6 ∨ forceClash s = false →
      Does .handoverReqSend s (fun t => t.pair.requested = true ∧ t.pair.triggerAt = s.clock ∧
        (onWireP → t.pair.pathP.sent = s.pair.pathP.sent + 1))) ∧
    (mayPlan s = false ∨ s.pair.requested = true → Does .handoverReqSend s (fun t => t = s)) ∧
    (poisoned s 0x0C0000 = false →
      (s.cfg.guarded.rolePref = 1 → s.pair.holdoff ≠ 0 → holdoffLeft s = 0 → s.sys.endOfStart.isSome = true → ownVerdict s = 0 → s.pair.force = 0 →
        (∀ m, s.pair.peer = some m → m.forceActive = false) → mayPlan s = true → peerVerdict s ≠ 2 → s.pair.forHandover = false →
        Does .revertRequest s (begun 5)) ∧
      (s.cfg.guarded.rolePref ≠ 1 ∨ s.pair.holdoff = 0 ∨ holdoffLeft s ≠ 0 ∨ ownVerdict s ≠ 0 ∨ s.pair.force ≠ 0 ∨ peerState s = 4 →
        Does .revertRequest s (fun t => t = s))) ∧
    (poisoned s 0x0C0000 = true → Does .revertRequest s (fun t => t.fresh = s.fresh + 1))

/-- R346 to R363: the count and its trust. -/
def Obligations.CountTicksAndStepsKeepTrust : Prop :=
  ∀ s : State,
    let stepped := fun (new : Word) (src : BitVec 2) (t : State) => t.tim.sec = new ∧ t.tim.src = src ∧ Latched aTIME_EVENT 2 t ∧
      Counted aTIME_STEP_COUNT s t ∧ t.tim.shadow = s.tim.shadow ∧ t.store = s.store ∧
      (talmEn s.tim.a0 = false → talmEn s.tim.a1 = false → s.rcd.running = true → new ≠ 0xFFFFFFFF → Offered 0x10 1 s t)
    let whole := fun (new : Word) (t : State) => t.tim.frac = 0 ∧ t.tim.fracAt = s.clock ∧
      (new ≠ 0xFFFFFFFF → t.tim.osf = (s.tim.osf && (crystalBad s || s.tim.endOsf))) ∧ (new = 0xFFFFFFFF → t.tim.osf = true ∧ t.tim.endOsf = true)
    let falls := fun (v : BitVec 16) (t : State) => t.tim.vcap = v ∧ (2200 ≤ s.tim.vcap.toNat → v.toNat < 2200 → Latched aTIME_EVENT 1 t)
    let adj := fun (v : Word) => (s.tim.sec.toNat : Int) + v.toInt
    (∀ v, Does (.timeSecondTick v) s (fun t => falls v t ∧ t.tim.src = s.tim.src ∧ ctrGet t aTIME_STEP_COUNT = ctrGet s aTIME_STEP_COUNT ∧
      (s.tim.stopped = true → t.tim = { s.tim with vcap := v }) ∧
      (s.tim.stopped = false → s.tim.sec ≠ 0xFFFFFFFF → poisoned s timBase = false → t.tim.sec = s.tim.sec + 1 ∧ (t.tim.sec = 0xFFFFFFFF → t.tim.osf = true ∧ t.tim.endOsf = true)) ∧
      (s.tim.stopped = false → s.tim.sec = 0xFFFFFFFF → t.tim.sec = 0xFFFFFFFF ∧ t.tim.frac = 0))) ∧
    (∀ v, Does (.timeSetWrite v) s (fun t => stepped v 1 t ∧ whole v t)) ∧
    (∀ v, 0 ≤ adj v → adj v ≤ 0xFFFEFFFF → Does (.timeAdjWrite v) s (fun t => stepped (s.tim.sec + v) 1 t ∧ t.tim.osf = s.tim.osf ∧
      t.tim.frac = s.tim.frac ∧ t.tim.fracAt = s.tim.fracAt)) ∧
    (∀ v, adj v < 0 ∨ 0xFFFEFFFF < adj v → Does (.timeAdjWrite v) s (fun t => t.tim = s.tim ∧ t.ctr = s.ctr ∧ Latched aTIME_EVENT 4 t)) ∧
    (∀ n : Word, s.tim.setDate = dateWord n → Does (.timeSetTodWrite (todWord n)) s (fun t => stepped n 1 t ∧ whole n t ∧ t.tim.setTod = todWord n)) ∧
    (∀ b, Does (.crystalStop b) s (fun t => t.tim.osf = true ∧ crystalBad t = true ∧ t.tim.sec = s.tim.sec ∧
      (s.tim.osf = false → Latched aTIME_EVENT 0 t ∧ (s.rcd.running = true → Offered 0x10 2 s t)))) ∧
    Does .crystalRestart s (fun t => crystalBad t = false ∧ t.tim.osf = s.tim.osf ∧ t.tim.sec = s.tim.sec ∧ fracNow t = fracNow s) ∧
    (∀ v, Does (.timeIslandPowerUp v) s (fun t => t.tim.sec = 0 ∧ t.tim.frac = 0 ∧ t.tim.osf = true ∧ t.tim.vcap = v ∧ t.tim.backup = [] ∧
      t.tim.a0 = {} ∧ t.tim.a1 = {} ∧ ctrGet t aTIME_STEP_COUNT = 0 ∧ Latched aTIME_EVENT 0 t)) ∧
    (∀ v, Does (.vcapLow v) s (fun t => falls v t ∧ t.tim = { s.tim with vcap := v })) ∧
    (s.tim.osf = true → s.fab.synced = true → s.fab.rootTimeOk = true → Does .fabricTimeAdopt s (fun t =>
      stepped (wd (min 0xFFFFFFFF (fabNs s / 1000000000))) 2 t ∧ Latched aTIME_EVENT 3 t)) ∧
    (s.tim.osf = false ∨ s.fab.synced = false ∨ s.fab.rootTimeOk = false → Does .fabricTimeAdopt s (fun t => t = s)) ∧
    (s.fab.ftOn = true → Does .ftDiffUpdate s (fun t =>
      t = { s with tim := { s.tim with ftDiff := satDiff (((fabNs s / 1000000 : Nat) : Int) - countMs s) } })) ∧
    (s.fab.ftOn = false → Does .ftDiffUpdate s (fun t => t = s))

/-- R353, R357 to R360: helper, shadows, calendar alarms. -/
def Obligations.CalendarShadowsAndAlarms : Prop :=
  (∀ n : Word, helperSec (dateWord n) (todWord n) = some n ∧ dateReserved (dateWord n) = false ∧ todReserved (todWord n) = false) ∧
  ∀ s : State,
    Does .timeFracRead s (fun t => t.tim = { s.tim with shadow := some ⟨fracWord s, s.tim.sec, dateWord s.tim.sec, todWord s.tim.sec⟩ }) ∧
    Does .timeSecHiRead s (fun t => t.tim = { s.tim with shadow := none }) ∧
    (∀ v, Does (.timeConvWrite v) s (fun t => t.tim = { s.tim with conv := v } ∧ (s.sys.phase ≠ .recovery →
      peek t 0x03003C = some (dateWord v) ∧ peek t 0x030040 = some (todWord v)))) ∧
    ∀ j : Fin 2,
      let a := talm s j
      let fires := fun (sec : Word) => talmMatches a sec.toNat = true ∧ a.hwm.toNat < sec.toNat
      let passedOver := fun (new : Word) => ∃ m, s.tim.sec.toNat < m ∧ a.hwm.toNat < m ∧ m < new.toNat ∧ talmMatches a m = true
      let fired := fun (skip : Bool) (mark : Word) (t : State) => (talm t j).hwm = mark ∧ (talm t j).skipped = skip ∧ Counted (aTALM_COUNT j) s t ∧
        Latched aTIME_EVENT (if j = 0 then 5 else 6) t ∧ (skip = true → Latched aTIME_EVENT (if j = 0 then 7 else 8) t)
      let still := fun (t : State) => talm t j = a ∧ ctrGet t (aTALM_COUNT j) = ctrGet s (aTALM_COUNT j)
      (∀ (r : Fin 3) (v : Word), Does (.talmWrite j r v) s (fun t => (talm t j).hwm = s.tim.sec ∧ (talm t j).skipped = a.skipped ∧
        (r = 0 → (talm t j).ctrl = v &&& 0x8000003F ∧ (talm t j).date = a.date ∧ (talm t j).tod = a.tod ∧ t.unspec = s.unspec) ∧
        (r = 1 → (talm t j).date = v &&& 0xFFFF0FFF ∧ (talm t j).ctrl = a.ctrl ∧ (talmDateReserved a v = true → talmBase j ∈ t.unspec)) ∧
        (r = 2 → (talm t j).tod = v &&& 0x001F3F3F ∧ (talm t j).ctrl = a.ctrl ∧ (talmTodReserved a v = true → talmBase j ∈ t.unspec)) ∧
        (∀ k, k ≠ j → talm t k = talm s k) ∧ ∀ b, b ≠ talmBase j → (b ∈ t.unspec ↔ b ∈ s.unspec))) ∧
      (poisoned s (talmBase j) = false → talmEn a = true →
        (∀ v, s.tim.stopped = false → s.tim.sec ≠ 0xFFFFFFFF → poisoned s timBase = false → Does (.timeSecondTick v) s (fun t =>
          (fires (s.tim.sec + 1) → fired false (s.tim.sec + 1) t) ∧ (¬ fires (s.tim.sec + 1) → still t))) ∧
        (∀ new, s.tim.sec.toNat < new.toNat → passedOver new → ¬ talmMatches a new.toNat → Does (.timeSetWrite new) s (fired true (new - 1))) ∧
        (∀ new, ¬ passedOver new → fires new → Does (.timeSetWrite new) s (fired false new)) ∧
        (∀ new, new.toNat ≤ s.tim.sec.toNat ∨ ¬ passedOver new → ¬ fires new → Does (.timeSetWrite new) s still)) ∧
      (talmEn a = false → ∀ new v, Does (.timeSetWrite new) s still ∧ Does (.timeSecondTick v) s still)

/-- R379 to R391: the panel's regions. -/
def Obligations.PanelRegionsRunByTheBoundaryOrder : Prop :=
  ∀ s : State,
    let quiet := s.disp.pend = [] ∧ s.disp.reqs = [] ∧ s.disp.cleaning = []
    let alone := fun (k : Fin 8) (r : Region) => s.disp.slots[k] = some r ∧ (∀ j : Fin 8, j ≠ k → s.disp.slots[j] = none) ∧ r.begun = true ∧
      s.disp.frameOn = true
    let put := fun (r : Rect) (src dst : Nat → Word) (t : Tab Word) => ∀ i < 7500, tabGet 0 t i = ((src i &&& rectMask r i) ||| (dst i &&& ~~~(rectMask r i)))
    (∀ (x w : BitVec 6) (y h : BitVec 9) (c : Bool),
      let r : Rect := ⟨x.toNat * 8, w.toNat * 8, y.toNat, h.toNat, c⟩
      (rectOk r = true → s.sys.phase ≠ .drydown → Does (.updateRequest x w y h c) s (fun t => t.disp.reqs = s.disp.reqs ++ [r] ∧
        (s.disp.railFault = false → s.disp.failed = false → t.disp.railsOn = true) ∧ t.disp.slots = s.disp.slots ∧ t.disp.pend = s.disp.pend ∧ t.disp.old = s.disp.old ∧ t.disp.new = s.disp.new)) ∧
      (rectOk r = false → Does (.updateRequest x w y h c) s (fun t => t = s))) ∧
    Does .displayFrameBoundary s (fun t => (s.disp.pend.length ≤ 8 → t.disp.pend.length ≤ 8) ∧ (s.disp.checkDue = false → t.disp.reqs = []) ∧
      t.disp.vcomNow = s.store.vcom ∧
      (s.disp.tempOut = true → ∀ k : Fin 8, s.disp.slots[k] = none → t.disp.slots[k] = none) ∧
      (∀ r, running s = [] → s.disp.pend = [] → s.disp.cleaning = [] → s.disp.reqs = [r] → mayStart s = true →
        ((t.disp.slots[0]).map (fun x => (x.rect, x.band, x.frame, x.startMs))) = some (r, s.disp.band, 0, fabMs s) ∧ t.disp.pend = [] ∧
        put r (drawWord s) (tabGet 0 s.disp.new) t.disp.new ∧ t.disp.old = s.disp.old) ∧
      (∀ k r, quiet → alone k r → poisoned s aDISP = false → r.frame + 1 = r.length → t.disp.slots[k] = none ∧ Counted 0x0D0024 s t ∧ Counted 0x0D0020 s t ∧
        put r.rect (tabGet 0 s.disp.new) (tabGet 0 s.disp.old) t.disp.old ∧ t.disp.new = s.disp.new ∧
        (r.aborting = true → Counted 0x0D002C s t ∧ Latched aDISP_EVENT 2 t) ∧ (r.aborting = false → ctrGet t 0x0D002C = ctrGet s 0x0D002C)) ∧
      (∀ k r, quiet → alone k r → r.frame + 1 < r.length → r.aborting = true → balancedAt s.disp.wave r (r.frame + 1) = true → r.drop = false →
        s.disp.tempOut = true → s.sys.phase ≠ .drydown → t.disp.slots[k] = none ∧ t.disp.pend = [{ r.rect with clean := true }] ∧
          Counted 0x0D0028 s t ∧ Latched aDISP_EVENT 1 t ∧ t.disp.old = s.disp.old)) ∧
    (∀ k : Fin 8, (s.disp.slots[k] = none → Does (.regionComplete k) s (fun t => t = s)) ∧
      (∀ r, s.disp.slots[k] = some r → r.begun = true → r.length ≤ r.frame + 1 → poisoned s aDISP = false → Does (.regionComplete k) s (fun t =>
        t.disp.slots[k] = none ∧ Counted 0x0D0024 s t ∧ put r.rect (tabGet 0 s.disp.new) (tabGet 0 s.disp.old) t.disp.old))) ∧
    (∀ m : BitVec 8, Does (.dispAbortWrite m 0) s (fun t => t.ctr = s.ctr ∧ ∀ k : Fin 8, t.disp.slots[k] =
      if m.getLsbD k.val then (s.disp.slots[k]).map (fun r => { r with aborting := true }) else s.disp.slots[k])) ∧
    (∀ c : Int, Does (.panelTempRead c true) s (fun t => t.disp = { s.disp with tempOut := true }) ∧
      Does (.panelTempRead c false) s (fun t => t.disp.temp = c ∧ (t.disp.tempOut = true ↔ c < -200 ∨ 700 < c) ∧
        (∀ b : Fin 8, s.disp.band.val < b.val → bandEdge b.val ≤ c → (b = 7 ∨ c < bandEdge (b.val + 1)) → t.disp.band = b) ∧
        (bandEdge s.disp.band.val - 5 < c → (s.disp.band = 7 ∨ c < bandEdge (s.disp.band.val + 1)) → t.disp.band = s.disp.band) ∧
        (s.disp.band ≠ 0 → c ≤ bandEdge s.disp.band.val - 5 → t.disp.band.val < s.disp.band.val))) ∧
    (dispIdle s = false → Does .imageCheck s (fun t => t = { s with disp := { s.disp with checkDue := true } })) ∧
    (dispIdle s = true → Does .imageCheck s (fun t => t.disp.crcLast = crc32 (imgBytes s.disp.old) ∧
      (s.disp.old = s.disp.new → t = { s with disp := { s.disp with crcLast := t.disp.crcLast, checkDue := false } }) ∧
      (crc32 (imgBytes s.disp.old) ≠ crc32 (imgBytes s.disp.new) → Counted 0x0D0030 s t ∧ Latched aDISP_EVENT 4 t ∧ Offered 0x10 1 s t ∧
        (s.sys.phase ≠ .drydown → t.disp.reqs = s.disp.reqs ++ [fullRect])))) ∧
    Does .railsSleep s (fun t => t.disp.railsOn = (s.disp.railsOn && !(dispIdle s && s.disp.reqs.isEmpty))) ∧
    (s.disp.railsOn = true → Does .railFault s (fun t => t.disp.railFault = true ∧ Counted 0x0D0034 s t ∧ Latched aDISP_EVENT 5 t ∧ Offered 0x10 2 s t ∧
      (∀ k : Fin 8, t.disp.slots[k] = (s.disp.slots[k]).map (fun r => { r with aborting := true, drop := true })) ∧
      (2 ≤ (s.disp.faultAt.filter (fun a => s.clock - a ≤ 600000000000)).length → s.disp.failed = false →
        t.disp.failed = true ∧ t.disp.pend = [] ∧ Latched aDISP_EVENT 6 t))) ∧
    (s.disp.railsOn = false → Does .railFault s (fun t => t = s)) ∧
    Does .railRetry s (fun t => t.disp.railFault = false ∧ t.disp.failed = s.disp.failed ∧ t.disp.pend = s.disp.pend)

/-- R369 to R376: front controls and page sets. -/
def Obligations.FrontControlsAndPageSets : Prop :=
  ∀ s : State,
    (s.disp.ackKey = false → Does (.frontAckPress true) s (fun t => t.disp.ackKey = true ∧ Counted 0x0D0038 s t ∧ Offered 0x10 0 s t ∧
      (∀ i occ, shownPage s = .alarms → selected s = some (i, occ) → s.alm.cmds.length < 256 →
        t.alm = { s.alm with cmds := s.alm.cmds ++ [(BitVec.ofNat 12 i, .ack occ)] }) ∧
      (shownPage s ≠ .alarms ∨ selected s = none → t.alm = s.alm))) ∧
    (s.disp.ackKey = true → Does (.frontAckPress true) s (fun t => t = s)) ∧
    Does (.frontAckPress false) s (fun t => t = { s with disp := { s.disp with ackKey := false } }) ∧
    (s.disp.silKey = false → Does (.frontSilencePress true) s (fun t => Counted 0x0D0038 s t ∧ Offered 0x10 0 s t ∧ sounderOn t = false ∧
      sounder t ≠ 1 ∧ sounder t ≠ 2 ∧ t.alm.cmds = s.alm.cmds ∧ t.alm.points.map (fun x => (x.1, x.2.st, x.2.occ)) = s.alm.points.map (fun x => (x.1, x.2.st, x.2.occ)))) ∧
    Does (.frontSilencePress false) s (fun t => t = { s with disp := { s.disp with silKey := false } }) ∧
    (s.disp.ackKey = true → s.disp.silKey = true → Does .panelTest s (fun t => t.disp.testUntil = s.clock + 1000000000 ∧ t.alm = s.alm ∧
      sounder t = (if sounderOn s then 1 else 3) ∧ (s.sys.phase ≠ .drydown → t.disp.reqs = s.disp.reqs ++ [fullRect]))) ∧
    (s.disp.ackKey = false ∨ s.disp.silKey = false → Does .panelTest s (fun t => t = s)) ∧
    (∀ (k : Fin 4) (d : Bool), Does (.touchKey k d) s (fun t => t.alm = s.alm ∧ t.rcd = s.rcd ∧ t.ctr = s.ctr ∧
      (d = false → t.disp.touched.getLsbD k.val = false ∧ t.disp.stuck.getLsbD k.val = false) ∧
      (d = true → s.disp.stuck.getLsbD k.val = true → t = s) ∧
      (d = true → s.disp.stuck.getLsbD k.val = false → t.disp.touched.getLsbD k.val = true) ∧
      (d = true → s.disp.stuck.getLsbD k.val = false → s.disp.touched.getLsbD k.val = false →
        (k = 2 → s.disp.pin = none → t.disp.page = nextPage s) ∧
        (k = 0 → s.disp.pin = none → shownPage s = .alarms → t.disp.sel = s.disp.sel - 1) ∧
        (k = 1 → s.disp.pin = none → shownPage s = .alarms → s.disp.sel + 1 < (alarmList s).length → t.disp.sel = s.disp.sel + 1) ∧
        (∀ e, s.disp.pin = some e → (k = 0 → t.disp.pin = some { e with digit := e.digit - 1 }) ∧ (k = 1 → t.disp.pin = some { e with digit := e.digit + 1 }) ∧
          (k = 2 → t.disp.pin = some { before := e.before ++ [e.digit] }))))) ∧
    (∀ k : Fin 4, s.disp.touched.getLsbD k.val = true → Does (.touchStuck k) s (fun t => t.disp.stuck.getLsbD k.val = true ∧
      t.disp.touched.getLsbD k.val = false ∧ Latched aDISP_EVENT 7 t)) ∧
    (shownPage s = .idle → s.disp.touched.getLsbD 3 = true → Does .selectHeld s (fun t =>
      (hasPin s = false → t.disp.page = .service) ∧ (hasPin s = true → s.disp.pinLocked = false → t.disp.pin = some {} ∧ t.disp.page = s.disp.page) ∧
      (hasPin s = true → s.disp.pinLocked = true → t = s))) ∧
    (shownPage s ≠ .idle ∨ s.disp.touched.getLsbD 3 = false → Does .selectHeld s (fun t => t = s)) ∧
    (∀ e g, s.disp.pin = some e → s.store.guarded = some g → s.disp.pinLocked = false → Does .pinEntry s (fun t =>
      (pinMatches g (e.before ++ [e.digit]) = true → t.disp.page = .service ∧ t.disp.pin = none) ∧
      (pinMatches g (e.before ++ [e.digit]) = false → t.disp.page = s.disp.page ∧
        (s.disp.pinWrong < 2 → t.disp.pinWrong = s.disp.pinWrong + 1 ∧ t.disp.pinLocked = false) ∧ (2 ≤ s.disp.pinWrong → t.disp.pinLocked = true ∧ t.disp.pin = none)))) ∧
    (s.disp.pinLocked = true ∨ s.disp.pin = none → Does .pinEntry s (fun t => t = s)) ∧
    Does .pinLockoutEnd s (fun t => t = { s with disp := { s.disp with pinLocked := false } }) ∧
    (∀ (rx : Rx) (item : Word) (g c : BitVec 2) (part parts : Nat) (l : List PointSource),
      let held := tabGet [] s.plc.renderParts item.toNat
      let all := if part = 0 then [l] else held ++ [l]
      let mine := renderersHere s (wd (fld item 0 28))
      (receive rx (.itemState (.render item g c part parts l)) s).1 = true → part = 0 ∨ held.length = part →
      Does (.rendererCallState rx item g c part parts l) s (fun t =>
        (parts ≤ part + 1 → (∀ i ∈ mine, tabLook t.plc.renders i.toNat = some (g, c, all.flatten)) ∧
          ∀ n, (∀ i ∈ mine, i.toNat ≠ n) → tabLook t.plc.renders n = tabLook s.plc.renders n) ∧
        (part + 1 < parts → tabGet [] t.plc.renderParts item.toNat = all ∧ t.plc.renders = s.plc.renders))) ∧
    (∀ (i : Word) (every : Bool), (itemKind i = 3 → isPrimary s i = true → Does (.pageRenderSend i every) s (fun t =>
        tabLook t.plc.pages i.toNat = some (buildPages s i) ∧ (∃ n, 1 ≤ n ∧ n ≤ 256 ∧ (buildPages s i).length = 16 * n) ∧
        ∀ l ∈ buildPages s i, l.set = pageSetOf i ∧ l.text.length = 24)) ∧
      (itemKind i ≠ 3 ∨ isPrimary s i = false → Does (.pageRenderSend i every) s (fun t => t = s)))

/-- R395 to R404: the log. -/
def Obligations.LogKeepsNumberedRecords : Prop :=
  ∀ s : State,
    let x := s.rcd.index
    let free_ := s.rcd.running = true ∧ s.rcd.rebuilding = false
    let isRec := fun (e : Event) (r : LogRec) => r.words.length = 32 ∧ recSeq r = x.next ∧ recSev r = e.sev.toNat ∧ fld (r.words.getD 3 0) 0 8 = e.kind.toNat ∧
      r.words.getD 4 0 = e.source ∧ r.bad = false ∧ r.words.getD 31 0 = crc32 (wordsBytes (r.words.take 31))
    let placed := fun (e : Event) (t : State) => t.rcd.index.next = x.next + 1 ∧ t.rcd.index.closed = false ∧
      (x.fill < 16384 → Counted aLOG_WRITTEN s t ∧ t.rcd.index.fill = x.fill + 1 ∧ (∃ r, tabLook t.rcd.slots x.fill = some r ∧ isRec e r) ∧
        ∀ j, j ≠ x.fill → tabLook t.rcd.slots j = tabLook s.rcd.slots j) ∧
      (16384 ≤ x.fill → (∀ p ∈ s.rcd.slots, p.2.bad = false) → (∃ p ∈ s.rcd.slots, recSev p.2 ≤ e.sev.toNat) →
        Counted aLOG_WRITTEN s t ∧ Counted aLOG_OVERWRITTEN s t ∧ Latched aLOG_EVENT 0 t ∧ t.rcd.index.fill = x.fill ∧
        ∃ p ∈ s.rcd.slots, (∀ q ∈ s.rcd.slots, recSev p.2 ≤ recSev q.2) ∧ (∃ r, tabLook t.rcd.slots p.1 = some r ∧ isRec e r) ∧
          ∀ j, j ≠ p.1 → tabLook t.rcd.slots j = tabLook s.rcd.slots j) ∧
      (16384 ≤ x.fill → (∀ p ∈ s.rcd.slots, p.2.bad = false ∧ e.sev.toNat < recSev p.2) →
        Counted aLOG_DROPPED s t ∧ Latched aLOG_EVENT 1 t ∧ t.rcd.slots = s.rcd.slots)
    (¬ free_ → Does .recorderTakeEvent s (fun t => t = s)) ∧
    (free_ → 0 < s.rcd.lostSince → Does .recorderTakeEvent s (fun t => placed (lostEvent s) t ∧ t.rcd.lostSince = 0 ∧ t.rcd.queue = s.rcd.queue ∧
      (lostEvent s).kind = 4 ∧ (lostEvent s).sev = 2)) ∧
    (∀ e, free_ → s.rcd.lostSince = 0 → s.rcd.startDue = some e → Does .recorderTakeEvent s (fun t => placed e t ∧ t.rcd.startDue = none ∧
      t.rcd.queue = s.rcd.queue)) ∧
    (∀ e q, free_ → s.rcd.lostSince = 0 → s.rcd.startDue = none → s.rcd.queue = e :: q → Does .recorderTakeEvent s (fun t => placed e t ∧ t.rcd.queue = q)) ∧
    (s.rcd.rebuilding = true → Does .logIndexRebuild s (fun t => t.rcd.rebuilding = false ∧ Latched aLOG_EVENT 4 t ∧
      t.rcd.index.fill = s.rcd.slots.length ∧ t.rcd.slots = s.rcd.slots.map (fun p => (p.1, checkRec p.2)) ∧
      t.rcd.index.corrupt = (t.rcd.slots.filter (fun p => p.2.bad)).length ∧
      t.rcd.index.sev0 + t.rcd.index.sev1 + t.rcd.index.sev2 + t.rcd.index.sev3 + t.rcd.index.corrupt = t.rcd.index.fill ∧
      ((∃ p ∈ t.rcd.slots, p.2.bad = true) → Latched aLOG_EVENT 3 t))) ∧
    (s.rcd.rebuilding = false → Does .logIndexRebuild s (fun t => t = s)) ∧
    (∀ v, Does (.logSelWrite v) s (fun t => t = { s with rcd := { s.rcd with sel := v, winBusy := true } })) ∧
    (s.rcd.winBusy = true → Does .logWindowLoaded s (fun t => t.rcd.winBusy = false ∧ t.rcd.slots = s.rcd.slots ∧ t.rcd.index = x ∧
      (t.rcd.winValid = true → ∃ p ∈ s.rcd.slots, p.2.bad = false ∧ t.rcd.win = p.2.words ∧ (s.rcd.sel - x.oldest).toNat ≤ recOrder x p.2 ∧
        t.rcd.winExact = decide (recSeq p.2 = s.rcd.sel) ∧
        ∀ q ∈ s.rcd.slots, q.2.bad = false → (s.rcd.sel - x.oldest).toNat ≤ recOrder x q.2 → recOrder x p.2 ≤ recOrder x q.2) ∧
      (t.rcd.winValid = false → ∀ q ∈ s.rcd.slots, q.2.bad = false → recOrder x q.2 < (s.rcd.sel - x.oldest).toNat))) ∧
    (s.rcd.winBusy = false → Does .logWindowLoaded s (fun t => t = s))

/-- R36, R39, R40, R48, R187: writes and alarm commands. -/
def Obligations.RegisterWritesAndAlarmCommands : Prop :=
  ∀ s : State,
    let queued := fun (i : BitVec 12) (op : AlmOp) (t : State) =>
      (s.alm.cmds.length < 256 → t.alm = { s.alm with cmds := s.alm.cmds ++ [(i, op)] }) ∧
      (256 ≤ s.alm.cmds.length → t.alm = s.alm ∧ Counted aALM_CMD_LOST s t ∧ Latched aALM_EVENT 0 t)
    let live := s.sys.phase = .running ∨ s.sys.phase = .safeIdle
    (∀ (a : BitVec 24) (v : Word),
      (regsUp s = false ∨ a.toNat % 4 ≠ 0 → Does (.registerWrite a v) s (fun t => t = s)) ∧
      (regsUp s = true → a.toNat % 4 = 0 → mute s a.toNat = true → Does (.registerWrite a v) s (fun t => t = s)) ∧
      (live → a.toNat % 4 = 0 → inHold a.toNat = false → peek s a.toNat = none → Does (.registerWrite a v) s (fun t =>
        Counted aSYS_ADDR_MISS s t ∧ Latched aSYS_EVENT 0 t ∧ t = { s with ctr := t.ctr, rsq := t.rsq })) ∧
      (live → a.toNat % 4 = 0 → lockRefuses a.toNat v s = true → (peek s a.toNat).isSome = true → (a ≠ 0x0F0008 ∨ v.getLsbD 1 = false) →
        Does (.registerWrite a v) s (fun t => Counted aSYS_LOCK_REFUSED s t ∧ Latched aSYS_EVENT 2 t ∧ t = { s with ctr := t.ctr, rsq := t.rsq })) ∧
      (a.toNat < 0x10000 → (peek s a.toNat).isSome = true → Does (.registerWrite a v) s (fun t => t = s))) ∧
    (live → ∀ v : Word,
      (∀ w : Fin 16, Does (.registerWrite (BitVec.ofNat 24 (0x030080 + w.val * 4)) v) s (fun t => peek t (0x030080 + w.val * 4) = some v ∧
        ∀ k : Fin 16, k ≠ w → peek t (0x030080 + k.val * 4) = peek s (0x030080 + k.val * 4))) ∧
      Does (.registerWrite 0x070020 v) s (fun t => t.alm.sel = v.setWidth 12 ∧ t.alm.points = s.alm.points) ∧
      Does (.registerWrite 0x0E0030 v) s (fun t => t.rcd = { s.rcd with sel := v, winBusy := true }) ∧
      (isPair s = true → Does (.registerWrite 0x0C0010 v) s (fun t => t.pair = { s.pair with holdoff := v.setWidth 16 })) ∧
      (isPair s = false → Does (.registerWrite 0x0C0010 v) s (fun t => t = s)) ∧
      (fld v 14 2 = 0 → Does (.registerWrite 0x070024 v) s (queued (BitVec.ofNat 12 v.toNat) (.ack (v.extractLsb' 16 16)))) ∧
      (fld v 14 2 = 1 → Does (.registerWrite 0x070024 v) s (queued (BitVec.ofNat 12 v.toNat) (.shelve s.alm.cmdArg))) ∧
      (fld v 14 2 = 2 → Does (.registerWrite 0x070024 v) s (queued (BitVec.ofNat 12 v.toNat) .unshelve))) ∧
    (∀ (rx : Rx) (i tag : Word) (op : AlmOp), (receive rx (.alarmCommand i tag op) s).1 = true → tag.getLsbD 31 = false →
      (s.fab.addressed = true → tagAddr tag = pairAddr s → Does (.alarmCommand rx i tag op) s (queued (tag.setWidth 12) op)) ∧
      (tagAddr tag ≠ pairAddr s → Does (.alarmCommand rx i tag op) s (fun t => t.alm = s.alm ∧ t.call = s.call)))

/-- R407 to R413: the service port. -/
def Obligations.PortServesEachRequestOnce : Prop :=
  ∀ (s : State) (q : SvcReq),
    let o := SvcOrigin.portS q.ip q.port
    let msg := fun (t : State) (op st d : BitVec 8) (b : List Byte) =>
      (⟨op + 0x80, q.tag, st, d, !t.fab.addressed, if t.fab.addressed then ownAddr t else 0, b⟩ : MgmtReply)
    let replied := fun (op st d : BitVec 8) (b : List Byte) (t : State) =>
      t.svc.sent = some (.reply q.ip q.port (msg t op st d b)) ∧ keptReply t o q.tag = some (msg t op st d b)
    let up := regsUp s = true ∧ svcWaits q s = false
    let here := up ∧ keptReply s o q.tag = none ∧ forMe s q = true ∧ s.sys.phase ≠ .recovery
    let s1 := bump aSVC_RX s
    (∀ (b : Bool) (a w p : Word) (n : BitVec 16) (l : List Word) (c : BitVec 8) (x : BitVec 128) (k : KeyReq),
      ∀ i ∈ [Instr.discover q b, .read q a n, .write q a l, .logRead q a c, .trendRead q a p c, .reset q w, .challenge q x, .keyInstall q k, .keyRemove q k],
        (regsUp s = false → Does i s (fun t => t = s)) ∧
        (regsUp s = true → svcWaits q s = true →
          (s.svc.queue.length < 16 → Does i s (fun t => t = { s with svc := { s.svc with queue := s.svc.queue ++ [i] } })) ∧
          (16 ≤ s.svc.queue.length → Does i s (fun t => Counted aSVC_DROPPED s t ∧ t = { s with ctr := t.ctr }))) ∧
        (∀ m, up → keptReply s o q.tag = some m → Does i s (fun t => t = { s with svc := { s.svc with sent := some (.reply q.ip q.port m) } })) ∧
        (up → keptReply s o q.tag = none → forMe s q = false → i ≠ .discover q true → routeTo s q.target = none → Does i s (fun t =>
          (∃ op, t.svc = { s.svc with sent := some (.reply q.ip q.port (msg t op 5 0 [])) }) ∧ t.ctr = s.ctr)) ∧
        (up → keptReply s o q.tag = none → forMe s q = false → i ≠ .discover q true → (routeTo s q.target).isSome = true → s.fab.addressed = true → Does i s (fun t =>
          (∃ op, (o, q.tag, q.target, op) ∈ t.svc.waiting) ∧ t.svc.sent = s.svc.sent ∧ Counted aSVC_RX s t))) ∧
    (∀ b, up → keptReply s o q.tag = none → (b = true ∨ forMe s q = true) → Does (.discover q b) s (fun t => ∃ l, replied 0 0 0 l t ∧ l.length = 36 ∧ Counted aSVC_RX s t)) ∧
    (∀ (a : Word) (n : BitVec 16),
      (here → 1 ≤ n.toNat → n.toNat ≤ 64 → a.toNat % 4 = 0 → a.toNat + 4 * n.toNat ≤ 0x1000000 → Does (.read q a n) s (fun t =>
        replied 1 0 0 (wordsBytes (readWords n.toNat a.toNat s1).1) t ∧ (readWords n.toNat a.toNat s1).1.length = n.toNat)) ∧
      (here → 1 ≤ n.toNat → n.toNat ≤ 64 → a.toNat % 4 ≠ 0 → a.toNat + 4 * n.toNat ≤ 0x1000000 → Does (.read q a n) s (fun t =>
        replied 1 2 0 [] t ∧ Counted aSVC_RX s t ∧ t = { s with ctr := t.ctr, svc := t.svc })) ∧
      (here → n = 0 ∨ 64 < n.toNat → Does (.read q a n) s (fun t => replied 1 1 0 [] t ∧ t = { s with ctr := t.ctr, svc := t.svc }))) ∧
    (∀ (a v : Word), here → a.toNat % 4 = 0 → a.toNat + 4 ≤ 0x1000000 → Does (.write q a [v]) s (fun t =>
      replied 2 (if (writeReg a.toNat v s1).1 then 3 else 0) 0 [] t ∧ t.reg = (writeReg a.toNat v s1).2.reg ∧ t.tri = (writeReg a.toNat v s1).2.tri)) ∧
    (∀ (a : Word) (l : List Word), here → l = [] ∨ 64 < l.length → Does (.write q a l) s (fun t => replied 2 1 0 [] t ∧ t = { s with ctr := t.ctr, svc := t.svc })) ∧
    (∀ (a : Word) (c : BitVec 8), (here → 1 ≤ c.toNat → c.toNat ≤ 7 → (logTake s a c.toNat).1.length ≤ c.toNat ∧ (∀ r ∈ (logTake s a c.toNat).1, r.bad = false) ∧
        Does (.logRead q a c) s (fun t => t.rcd = s.rcd ∧ ∃ b, replied 3 0 0 b t ∧ b.head? = some (BitVec.ofNat 8 (logTake s a c.toNat).1.length) ∧
          b.drop 8 = (logTake s a c.toNat).1.flatMap (fun r => wordsBytes r.words))) ∧
      (here → c = 0 ∨ 7 < c.toNat → Does (.logRead q a c) s (replied 3 1 0 []))) ∧
    (∀ (i p : Word) (c : BitVec 8), here → 1 ≤ c.toNat → c.toNat ≤ 2 →
      (roleOf s i = .none → Does (.trendRead q i p c) s (replied 4 8 0 [])) ∧
      (itemKind i = 4 → roleOf s i ≠ .none → Does (.trendRead q i p c) s (fun t => (∃ b, replied 4 0 0 b t) ∧ t.plc = s.plc))) ∧
    (∀ w, (here → w = s.serial → Does (.reset q w) s (fun t => ResetWith 9 0 s t ∧ t.svc.sent = some (.reply q.ip q.port (msg s 5 0 0 [])))) ∧
      (here → w ≠ s.serial → Does (.reset q w) s (fun t => replied 5 1 0 [] t ∧ t.sys = s.sys))) ∧
    (∀ x, here → Does (.challenge q x) s (fun t => t.svc.nonce = some x ∧ replied 0x10 0 0 (leBytes 16 x.toNat) t)) ∧
    Does .nonceExpiry s (fun t => t = { s with svc := { s.svc with nonce := none } }) ∧
    (∀ k : KeyReq, here → k.slot.toNat ≤ 3 → (k.signer.toNat ≤ 3 ∨ k.signer = 0xFF) →
      (k.key ≠ 0 → (s.svc.nonce ≠ some k.nonce ∨ signerOk 0x11 k s = false) → Does (.keyInstall q k) s (fun t => replied 0x11 7 0 [] t ∧
        Counted aSVC_AUTH_FAIL s t ∧ t.svc.nonce = none ∧ t.store = s.store)) ∧
      (k.key ≠ 0 → s.svc.nonce = some k.nonce → signerOk 0x11 k s = true → Does (.keyInstall q k) s (fun t => replied 0x11 0 0 [] t ∧
        t.store = { s.store with keys := s.store.keys.set (Fin.ofNat 4 k.slot.toNat) k.key } ∧ t.svc.nonce = none ∧ Latched 0x0F0004 0 t ∧ Offered 0x10 2 s t)) ∧
      (k.key = 0 → s.svc.nonce = some k.nonce → signerOk 0x12 k s = true → Does (.keyRemove q k) s (fun t => replied 0x12 0 0 [] t ∧
        t.store = { s.store with keys := s.store.keys.set (Fin.ofNat 4 k.slot.toNat) 0 } ∧ t.svc.nonce = none)) ∧
      (k.key ≠ 0 → Does (.keyRemove q k) s (fun t => replied 0x12 1 0 [] t ∧ t.store = s.store))) ∧
    (∀ (rx : Rx) (tag : BitVec 16) (op : BitVec 8), (receive rx (.mgmtRequest tag (.sOnly op)) s).1 = true → s.sys.phase ≠ .recovery →
      keptReply s (.gateway rx.hdr.src) tag = none → Does (.mgmtRequest rx tag (.sOnly op)) s (fun t => t.store = s.store ∧ t.upd = s.upd ∧
        Counted aSVC_RX s t ∧ ∃ m, keptReply t (.gateway rx.hdr.src) tag = some m ∧ m.status = 4)) ∧
    (∀ (rx : Rx) (m : MgmtReply), (receive rx (.mgmtReply m) s).1 = true →
      (∀ (ip : Word) (pt : BitVec 16) (a : Addr) (op : BitVec 8), waitingFor s rx.hdr.src m.tag = some (.portS ip pt, m.tag, a, op) →
        Does (.mgmtReply rx m) s (fun t => t.svc.sent = some (.reply ip pt m) ∧ keptReply t (.portS ip pt) m.tag = some m ∧
          (SvcOrigin.portS ip pt, m.tag, a, op) ∉ t.svc.waiting)) ∧
      (waitingFor s rx.hdr.src m.tag = none → Does (.mgmtReply rx m) s (fun t => t.svc = s.svc))) ∧
    (∀ w, s.svc.waiting = [w] → w.1 = o → w.2.1 = q.tag → Does (.mgmtTimeout o q.tag) s (fun t => replied w.2.2.2 6 0 [] t ∧ t.svc.waiting = [])) ∧
    (s.svc.waiting = [] → Does (.mgmtTimeout o q.tag) s (fun t => t = s)) ∧
    (∀ (g : SvcOrigin) (tag : BitVec 16), Does (.replyCacheExpiry g tag) s (fun t => keptReply t g tag = none ∧
      ∀ h u, (h, u) ≠ (g, tag) → keptReply t h u = keptReply s h u)) ∧
    (∀ op, regsUp s = true → Does (.badDatagram q op .short) s (fun t => Counted aSVC_BAD s t ∧ t = { s with ctr := t.ctr }) ∧
      Does (.badDatagram q op .version) s (fun t => Counted aSVC_BAD s t ∧ t = { s with ctr := t.ctr }) ∧
      Does (.badDatagram q op .length) s (fun t => t.svc.sent = some (.reply q.ip q.port (msg t op 1 0 []))) ∧
      (here → notInRecovery op = false → Does (.badDatagram q op .reservedOp) s (replied op 1 0 []))) ∧
    (regsUp s = true → Does (.arp false) s (fun t => t = { s with svc := { s.svc with sent := some (.arp s.svc.ip) } }) ∧
      Does .icmpEcho s (fun t => t = { s with svc := { s.svc with sent := some .echo } })) ∧
    (regsUp s = false → Does (.arp true) s (fun t => t = s) ∧ Does .icmpEcho s (fun t => t = s))

/-- R416 to R424: firmware update. -/
def Obligations.UpdatesAreLoadedCheckedAndActivated : Prop :=
  ∀ (s : State) (q : SvcReq),
    let o := SvcOrigin.portS q.ip q.port
    let said := fun (st d : BitVec 8) (t : State) => ∃ m, t.svc.sent = some (.reply q.ip q.port m) ∧ keptReply t o q.tag = some m ∧ m.status = st ∧
      m.detail = d ∧ m.tag = q.tag
    let here := regsUp s = true ∧ svcWaits q s = false ∧ keptReply s o q.tag = none ∧ q.self = true ∧ s.sys.phase ≠ .recovery
    let other := !s.upd.bank
    (∀ (b v : Word) (n : BitVec 16),
      let range := 2 ≤ n.toNat ∧ n.toNat ≤ 993
      (here → heldByOther o s = false → range → mayBegin s = true → s.store.trial = false → b = s.upd.runVer → Does (.updBegin q b v n) s (fun t =>
        said 0 0 t ∧ t.upd.state = .loading ∧ t.upd.sess = some { owner := o, newVer := v, count := n.toNat } ∧
        (bankOf t other).state = .loading ∧ (bankOf t other).blocks = [] ∧ (bankOf t other).cycles = satAdd (bankOf s other).cycles 1 ∧
        bankOf t s.upd.bank = bankOf s s.upd.bank)) ∧
      (here → heldByOther o s = true → Does (.updBegin q b v n) s (fun t => said 0x0A 0 t ∧ t.upd = s.upd ∧ t.store = s.store)) ∧
      (here → heldByOther o s = false → ¬ range → Does (.updBegin q b v n) s (fun t => said 1 0 t ∧ t.upd = s.upd ∧ t.store = s.store)) ∧
      (here → heldByOther o s = false → range → mayBegin s = true → (s.store.trial = true ∨ b ≠ s.upd.runVer) →
        let r : BitVec 8 := if s.store.trial then 2 else 1
        Does (.updBegin q b v n) s (fun t => said 8 r t ∧ t.upd = { s.upd with reason := r } ∧ t.store = s.store))) ∧
    (∀ (f : UpdFrag) (x : Session), here → s.upd.sess = some x → x.owner = o → s.upd.state = .loading → fragBad f x = false → f.frags = 1 → f.frag = 0 →
      x.partialRec = none → ∀ d, buildBlock (bankOf s s.upd.bank) f.method.toNat f.src.toNat f.data = some d →
      let ok := crc32 d = f.crc ∧ f.readBack = true
      Does (.updBlock q f) s (fun t => ∃ y, t.upd.sess = some y ∧ y.count = x.count ∧
        (ok → said 0 0 t ∧ f.block.toNat ∈ y.written ∧ tabLook (bankOf t other).blocks f.block.toNat = some d) ∧
        (¬ ok → said 9 0 t ∧ f.block.toNat ∉ y.written ∧ Counted aUPD_BLOCK_BAD s t ∧ t.store = s.store))) ∧
    (∀ f : UpdFrag, here → s.upd.sess = none → Does (.updBlock q f) s (fun t => said 8 3 t ∧ t.store = s.store)) ∧
    (∀ x, here → s.upd.sess = some x → x.owner = o → s.upd.state = .loading →
      (allWritten x = false → Does (.updFinish q) s (fun t => said 8 3 t ∧ t.upd = { s.upd with reason := 3 })) ∧
      (allWritten x = true → Does (.updFinish q) s (fun t => t.upd = { s.upd with state := .verifying, fin := some (o, q.tag) } ∧ t.svc = s.svc))) ∧
    ((s.upd.state = .verifying → Does .updVerifyDone s (fun t => t.upd.sess = none ∧ t.upd.reason = imageReason s ∧
        (imageReason s = 0 → t.upd.state = .verified ∧ (bankOf t other).state = .verified ∧ Latched 0x0F0004 1 t) ∧
        (imageReason s ≠ 0 → t.upd.state = .failed ∧ (bankOf t other).state = .failed ∧ Latched 0x0F0004 2 t))) ∧
      (s.upd.state ≠ .verifying → Does .updVerifyDone s (fun t => t = s))) ∧
    (s.sys.phase ≠ .recovery → s.upd.state ≠ .activating →
      (s.sys.lock = true → Does (.updActivate true) s (fun t => Counted aSYS_LOCK_REFUSED s t ∧ t.upd = s.upd ∧ t.store = s.store)) ∧
      (∀ r, s.sys.lock = false → activateReason s = some r → Does (.updActivate true) s (fun t => t.upd = { s.upd with reason := r } ∧ Latched 0x0F0004 6 t ∧
        t.store = s.store)) ∧
      (s.sys.lock = false → activateReason s = none → Does (.updActivate true) s (fun t => t.upd.state = .activating ∧ Counted aUPD_ACTIVATIONS s t ∧
        t.afe.pause = true ∧ (isRunning s = true → t.alm.running = false))) ∧
      (s.sys.lock = false → activateReason s = none → s.sys.phase = .running → Does (.updActivate false) s (fun t => t.sys.resetCause = 8 ∧
        t.sys.phase = .released ∧ t.store.bankSel = other ∧ t.store.trial = true ∧ t.store.trialStarts = 0 ∧ t.pair.ownHeld = false))) ∧
    (s.upd.state = .loading ∨ s.upd.state = .verifying ∨ s.upd.state = .verified → Does (.updAbort false) s (fun t => t.upd.state = .idle ∧ t.upd.sess = none ∧
      (bankOf t other).state = .empty ∧ bankOf t s.upd.bank = bankOf s s.upd.bank)) ∧
    (s.upd.state = .idle ∨ s.upd.state = .failed → Does (.updAbort false) s (fun t => t = s)) ∧
    (s.upd.state = .activating → Does (.updAbort false) s (fun t => t.upd.state = .verified ∧ t.afe.pause = false)) ∧
    (s.upd.state = .verifying ∨ s.upd.state = .activating → Does (.updAbort true) s (fun t => Counted aUPD_LATE s t ∧ Latched 0x0F0004 5 t ∧ t.upd = s.upd ∧
      t.store = s.store)) ∧
    (s.upd.sess.isSome = true → s.upd.state = .loading → Does .updSessionTimeout s (fun t => t.upd.state = .idle ∧ t.upd.sess = none)) ∧
    (s.upd.sess = none → Does .updSessionTimeout s (fun t => t = s)) ∧
    (s.store.trial = true → s.upd.confirmAt.isSome = true → Does .trialConfirm s (fun t => t.store.trial = false ∧ (bankOf t s.upd.bank).state = .good ∧
      t.store.before = none ∧ bankOf t other = bankOf s other ∧ Latched 0x0F0004 3 t)) ∧
    (s.store.trial = false → Does .trialConfirm s (fun t => t = s))

/-- Reset is within the bounds. -/
def Obligations.ResetIsWithinBounds : Prop := Bounded State.reset

/-- The bounds hold in every state that follows one in which they hold, nothing stops the block, and no command loses what the spec gives no
command to take away. -/
def Obligations.EveryCommandCompletesWithinBounds : Prop :=
  (∀ (c : Instr) (s : State), ∃ t, exec c s = .next t ∧ t.pending = s.pending ∧ t.clock = s.clock ∧ t.serial = s.serial ∧
    t.hwIssue = s.hwIssue ∧ (Bounded s → Bounded t) ∧
    (∀ k, (tabLook s.rcd.slots k).isSome = true → (tabLook t.rcd.slots k).isSome = true) ∧
    ((∀ q k, c ≠ .keyInstall q k ∧ c ≠ .keyRemove q k) → t.store.keys = s.store.keys)) ∧
  (∀ s : State, ∃ t, step s = .next t ∧ (Bounded s → Bounded t) ∧ t.serial = s.serial ∧ t.hwIssue = s.hwIssue ∧
    (∀ k, (tabLook s.rcd.slots k).isSome = true → (tabLook t.rcd.slots k).isSome = true))
end

