-- ==== Sys2Proof/Laws/Tab.lean ====
section
/-! SUPPORT. Laws/Tab.lean: what a sparse table answers after each operation, and that each keeps the canonical form. -/
namespace Sys2Proof.Laws

open Sys2Proof.Machine

variable {α : Type}

theorem tabLook_filter (p : Nat → Bool) (t : Tab α) (j : Nat) : tabLook (t.filter (fun x => p x.1)) j = if p j then tabLook t j else none := by
  induction t with
  | nil => simp [tabLook]
  | cons x r ih =>
    rw [List.filter_cons]
    split
    · rename_i h
      simp only [tabLook, ih]
      split
      · rename_i e; subst e; simp [h]
      · rfl
    · rename_i h
      rw [ih, tabLook]
      by_cases e : x.1 = j
      · subst e; simp [h]
      · simp [e]

theorem tabLook_del (t : Tab α) (k j : Nat) : tabLook (tabDel t k) j = if j = k then none else tabLook t j := by
  rw [tabDel, tabLook_filter (fun x => x != k)]
  by_cases h : j = k <;> simp [h]

theorem tabLook_insert_other (t : Tab α) {k j : Nat} (v : α) (h : j ≠ k) : tabLook (tabInsert t k v) j = tabLook t j := by
  induction t with
  | nil => simp [tabInsert, tabLook, Ne.symm h]
  | cons x r ih =>
    rw [tabInsert]
    split
    · simp [tabLook, Ne.symm h]
    · simp only [tabLook, ih]

theorem tabLook_insert_same (t : Tab α) (k : Nat) (v : α) (h : tabLook t k = none) : tabLook (tabInsert t k v) k = some v := by
  induction t with
  | nil => simp [tabInsert, tabLook]
  | cons x r ih =>
    rw [tabLook] at h
    rw [tabInsert]
    split at h
    · cases h
    · rename_i hx
      split
      · simp [tabLook]
      · simp [tabLook, hx, ih h]

theorem tabLook_put (t : Tab α) (k j : Nat) (v : α) : tabLook (tabPut t k v) j = if j = k then some v else tabLook t j := by
  rw [tabPut]
  split
  · rename_i h; subst h; exact tabLook_insert_same _ _ _ (by simp [tabLook_del])
  · rename_i h; rw [tabLook_insert_other _ _ h, tabLook_del, if_neg h]

theorem tabGet_set [DecidableEq α] (d : α) (t : Tab α) (k j : Nat) (v : α) :
    tabGet d (tabSet d t k v) j = if j = k then v else tabGet d t j := by
  unfold tabSet tabGet
  split
  · rename_i h; subst h; rw [tabLook_del]; split <;> rfl
  · rw [tabLook_put]; split <;> rfl

@[simp] theorem tabGet_set_same [DecidableEq α] (d : α) (t : Tab α) (k : Nat) (v : α) : tabGet d (tabSet d t k v) k = v := by
  rw [tabGet_set, if_pos rfl]

theorem tabGet_set_other [DecidableEq α] (d : α) (t : Tab α) {k j : Nat} (v : α) (h : j ≠ k) :
    tabGet d (tabSet d t k v) j = tabGet d t j := by
  rw [tabGet_set, if_neg h]

/-! The canonical form. -/

theorem tabSorted_filter (p : Nat × α → Bool) (t : Tab α) (h : tabSorted t = true) : tabSorted (t.filter p) = true := by
  induction t with
  | nil => rfl
  | cons x r ih =>
    simp only [tabSorted, Bool.and_eq_true, List.all_eq_true] at h
    rw [List.filter_cons]
    split
    · simp only [tabSorted, Bool.and_eq_true, List.all_eq_true]
      exact ⟨fun q hq => h.1 q (List.mem_filter.1 hq).1, ih h.2⟩
    · exact ih h.2

theorem tabSorted_del (t : Tab α) (k : Nat) (h : tabSorted t = true) : tabSorted (tabDel t k) = true := tabSorted_filter _ t h

theorem mem_tabInsert {t : Tab α} {k : Nat} {v : α} {q : Nat × α} (h : q ∈ tabInsert t k v) : q = (k, v) ∨ q ∈ t := by
  induction t with
  | nil => simpa [tabInsert] using h
  | cons x r ih =>
    rw [tabInsert] at h
    split at h
    · simpa using h
    · rcases List.mem_cons.1 h with e | e
      · exact .inr (by simp [e])
      · rcases ih e with e | e
        · exact .inl e
        · exact .inr (List.mem_cons_of_mem _ e)

theorem tabSorted_insert (t : Tab α) (k : Nat) (v : α) (h : tabSorted t = true) (hk : ∀ q ∈ t, q.1 ≠ k) : tabSorted (tabInsert t k v) = true := by
  induction t with
  | nil => rfl
  | cons x r ih =>
    have h' := h
    simp only [tabSorted, Bool.and_eq_true, List.all_eq_true, decide_eq_true_eq] at h
    rw [tabInsert]
    split
    · rename_i hlt
      rw [tabSorted, h', Bool.and_true, List.all_eq_true]
      intro q hq
      rcases List.mem_cons.1 hq with e | e
      · subst e; simpa using hlt
      · have := h.1 q e; simp; omega
    · rename_i hlt
      rw [tabSorted, ih h.2 (fun q hq => hk q (List.mem_cons_of_mem _ hq)), Bool.and_true, List.all_eq_true]
      intro q hq
      rcases mem_tabInsert hq with e | e
      · subst e; have := hk x (by simp); simp; omega
      · simpa using h.1 q e

theorem tabSorted_put (t : Tab α) (k : Nat) (v : α) (h : tabSorted t = true) : tabSorted (tabPut t k v) = true :=
  tabSorted_insert _ k v (tabSorted_del t k h) (fun q hq => by simpa using (List.mem_filter.1 hq).2)

theorem tabSorted_set [DecidableEq α] (d : α) (t : Tab α) (k : Nat) (v : α) (h : tabSorted t = true) : tabSorted (tabSet d t k v) = true := by
  unfold tabSet; split
  · exact tabSorted_del t k h
  · exact tabSorted_put t k v h

end Sys2Proof.Laws
end

