-- ==== Sys2Proof/Laws/Keeps.lean ====
section
/-! SUPPORT. Laws/Keeps.lean: what every operation of the block keeps: the waiting commands, the clock, the identity, the bounds of its
queues, and every slot of the log; and, but for the key operations, the key slots. -/
namespace Sys2Proof.Laws

open Sys2Proof.Machine

/-- What an operation keeps between two states; `b`: the key slots too. -/
structure Keeps (b : Bool) (s t : State) : Prop where
  pending : t.pending = s.pending
  clock : t.clock = s.clock
  serial : t.serial = s.serial
  hwIssue : t.hwIssue = s.hwIssue
  queue : s.rcd.queue.length ≤ 1024 → t.rcd.queue.length ≤ 1024
  cmds : s.alm.cmds.length ≤ 256 → t.alm.cmds.length ≤ 256
  windows : s.fab.windows.length ≤ 2048 → t.fab.windows.length ≤ 2048
  pend : s.disp.pend.length ≤ 8 → t.disp.pend.length ≤ 8
  kept : s.svc.kept.length ≤ 16 → t.svc.kept.length ≤ 16
  slots : ∀ k, (tabLook s.rcd.slots k).isSome = true → (tabLook t.rcd.slots k).isSome = true
  keys : b = true → t.store.keys = s.store.keys

theorem Keeps.refl (b : Bool) (s : State) : Keeps b s s :=
  ⟨rfl, rfl, rfl, rfl, id, id, id, id, id, fun _ h => h, fun _ => rfl⟩

theorem Keeps.trans {b : Bool} {s t u : State} (h : Keeps b s t) (g : Keeps b t u) : Keeps b s u :=
  ⟨g.pending.trans h.pending, g.clock.trans h.clock, g.serial.trans h.serial, g.hwIssue.trans h.hwIssue, fun x => g.queue (h.queue x),
   fun x => g.cmds (h.cmds x), fun x => g.windows (h.windows x), fun x => g.pend (h.pend x), fun x => g.kept (h.kept x),
   fun k x => g.slots k (h.slots k x), fun x => (g.keys x).trans (h.keys x)⟩

/-- A change of any other field. -/
theorem keeps_mk {b : Bool} {s t : State} (h : Keeps b s t) {a1 : List Instr} {at_ : Option Nat} {a2 : Nat} {a3 : List Nat} {a4 : Tab Rsq} {a5 a6 : Tab Word}
    {a7 : Tab Tri} {a8 : Tab ValEntry} {sys : SysSt} {rcd : RecSt} {cfg : Cfg} {alm : AlmSt} {call : CallSt} {fab : FabSt} {pb : PbSt}
    {plc : PlaceSt} {pair : PairSt} {tim : TimeSt} {sup : SupSt} {afe : AfeSt} {io : IoSt} {store : StoreSt} {fl : FlaconSt} {disp : DispSt}
    {svc : SvcSt} {upd : UpdSt} (r1 : rcd.queue = t.rcd.queue) (r2 : rcd.slots = t.rcd.slots) (r3 : alm.cmds = t.alm.cmds)
    (r4 : fab.windows = t.fab.windows) (r5 : store.keys = t.store.keys) (r6 : disp.pend = t.disp.pend) (r7 : svc.kept = t.svc.kept) :
    Keeps b s ⟨t.pending, a1, at_, t.clock, a2, a3, t.serial, t.hwIssue, a4, a5, a6, a7, a8, sys, rcd, cfg, alm, call, fab, pb, plc, pair, tim, sup,
      afe, io, store, fl, disp, svc, upd⟩ :=
  ⟨h.pending, h.clock, h.serial, h.hwIssue, r1 ▸ h.queue, r3 ▸ h.cmds, r4 ▸ h.windows, r6 ▸ h.pend, r7 ▸ h.kept, r2 ▸ h.slots, r5 ▸ h.keys⟩

theorem keeps_ite {b : Bool} {s0 x y : State} {c : Prop} [Decidable c] (hx : Keeps b s0 x) (hy : Keeps b s0 y) : Keeps b s0 (if c then x else y) := by
  split <;> assumption

theorem keeps_ite2 {b : Bool} {s0 : State} {α : Type} {x y : α × State} {c : Prop} [Decidable c] (hx : Keeps b s0 x.2) (hy : Keeps b s0 y.2) :
    Keeps b s0 (if c then x else y).2 := by
  split <;> assumption

theorem keeps_ite3 {b : Bool} {s0 : State} {α β : Type} {x y : α × β × State} {c : Prop} [Decidable c] (hx : Keeps b s0 x.2.2)
    (hy : Keeps b s0 y.2.2) : Keeps b s0 (if c then x else y).2.2 := by
  split <;> assumption

/-- The second part of a pair that an operation answered. -/
theorem keeps_snd {b : Bool} {s0 t : State} {α : Type} {a : α} {p : α × State} (e : p = (a, t)) (h : Keeps b s0 p.2) : Keeps b s0 t := by
  subst e; exact h

theorem keeps_whenS {b : Bool} {s0 s : State} {c : Bool} {f : State → State} (hf : ∀ t, Keeps b s0 t → Keeps b s0 (f t)) (h : Keeps b s0 s) :
    Keeps b s0 (whenS c f s) := by
  unfold whenS; split
  · exact hf s h
  · exact h

theorem keeps_foldl {b : Bool} {s0 : State} {α : Type} {f : State → α → State} (hf : ∀ a t, Keeps b s0 t → Keeps b s0 (f t a)) (l : List α) :
    ∀ s, Keeps b s0 s → Keeps b s0 (l.foldl f s) := by
  induction l with
  | nil => intro s h; exact h
  | cons a l ih => intro s h; exact ih _ (hf a s h)

theorem keeps_foldl2 {b : Bool} {s0 : State} {α β : Type} {f : β × State → α → β × State}
    (hf : ∀ a t, Keeps b s0 t.2 → Keeps b s0 (f t a).2) (l : List α) : ∀ s, Keeps b s0 s.2 → Keeps b s0 (l.foldl f s).2 := by
  induction l with
  | nil => intro s h; exact h
  | cons a l ih => intro s h; exact ih _ (hf a s h)

theorem keeps_eachS {b : Bool} {s0 s : State} {α : Type} {l : List α} {f : α → State → State} (hf : ∀ a t, Keeps b s0 t → Keeps b s0 (f a t))
    (h : Keeps b s0 s) : Keeps b s0 (eachS l f s) := keeps_foldl (fun a t ht => hf a t ht) l s h

/-! The operations that a bound speaks of. -/

theorem keeps_bumpBy {b : Bool} {s0 s : State} {a n : Nat} (h : Keeps b s0 s) : Keeps b s0 (bumpBy a n s) := keeps_mk h rfl rfl rfl rfl rfl rfl rfl

theorem keeps_bump {b : Bool} {s0 s : State} {a : Nat} (h : Keeps b s0 s) : Keeps b s0 (bump a s) := keeps_bumpBy h

theorem keeps_latch {b : Bool} {s0 s : State} {a n : Nat} (h : Keeps b s0 s) : Keeps b s0 (latch a n s) := keeps_mk h rfl rfl rfl rfl rfl rfl rfl

/-- The third part of a triple that an operation answered. -/
theorem keeps_thd {b : Bool} {s0 t : State} {α β : Type} {x : α} {y : β} {p : α × β × State} (e : p = (x, y, t)) (h : Keeps b s0 p.2.2) :
    Keeps b s0 t := by
  subst e; exact h

theorem keeps_lockGuard {b : Bool} {s0 s : State} {f : State → State} (hf : ∀ t, Keeps b s0 t → Keeps b s0 (f t)) (h : Keeps b s0 s) :
    Keeps b s0 (lockGuard f s) := by
  unfold lockGuard; split
  · exact keeps_mk (keeps_bumpBy h) rfl rfl rfl rfl rfl rfl rfl
  · exact hf s h

theorem keeps_ownedWrite {b : Bool} {s0 s : State} {a : Nat} {f : State → State} (hf : ∀ t, Keeps b s0 t → Keeps b s0 (f t)) (h : Keeps b s0 s) :
    Keeps b s0 (ownedWrite a f s) := by
  unfold ownedWrite; split
  · split <;> exact keeps_mk h rfl rfl rfl rfl rfl rfl rfl
  · exact hf s h

theorem keeps_ownedCal {b : Bool} {s0 s : State} {n : Fin 64} {f : State → State} (hf : ∀ t, Keeps b s0 t → Keeps b s0 (f t)) (h : Keeps b s0 s) :
    Keeps b s0 (ownedCal n f s) := by
  unfold ownedCal; split
  · exact keeps_mk h rfl rfl rfl rfl rfl rfl rfl
  · exact hf s h

theorem keeps_dispMod {b : Bool} {s0 s : State} {f : DispSt → DispSt} (hf : (f s.disp).pend = s.disp.pend) (h : Keeps b s0 s) :
    Keeps b s0 (dispMod f s) := keeps_mk h rfl rfl rfl rfl rfl hf rfl

theorem keeps_svcMod {b : Bool} {s0 s : State} {f : SvcSt → SvcSt} (hf : (f s.svc).kept = s.svc.kept) (h : Keeps b s0 s) :
    Keeps b s0 (svcMod f s) := keeps_mk h rfl rfl rfl rfl rfl rfl hf

theorem keeps_storeMod {b : Bool} {s0 s : State} {f : StoreSt → StoreSt} (hf : (f s.store).keys = s.store.keys) (h : Keeps b s0 s) :
    Keeps b s0 (storeMod f s) := keeps_mk h rfl rfl rfl rfl hf rfl rfl

theorem keeps_rcdMod {b : Bool} {s0 s : State} {f : RecSt → RecSt} (hq : (f s.rcd).queue = s.rcd.queue) (hs : (f s.rcd).slots = s.rcd.slots)
    (h : Keeps b s0 s) : Keeps b s0 (rcdMod f s) := keeps_mk h hq hs rfl rfl rfl rfl rfl

theorem keeps_emit {b : Bool} {s0 s : State} (h : Keeps b s0 s) : ∀ k c v r l, Keeps b s0 (emit k c v r l s) := by
  intro k c v r l; unfold emit; split
  · exact keeps_latch (keeps_bump (keeps_mk h rfl rfl rfl rfl rfl rfl rfl))
  · have hl : ¬ s.rcd.queue.length ≥ 1024 := ‹_›
    exact ⟨h.pending, h.clock, h.serial, h.hwIssue, fun _ => by simp; omega, h.cmds, h.windows, h.pend, h.kept, h.slots, h.keys⟩

theorem keeps_queueCmd {b : Bool} {s0 s : State} (h : Keeps b s0 s) : ∀ i op, Keeps b s0 (queueCmd i op s) := by
  intro i op; unfold queueCmd; split
  · exact keeps_mk (keeps_bumpBy h) rfl rfl rfl rfl rfl rfl rfl
  · have hl : ¬ s.alm.cmds.length ≥ 256 := ‹_›
    exact ⟨h.pending, h.clock, h.serial, h.hwIssue, h.queue, fun _ => by simp; omega, h.windows, h.pend, h.kept, h.slots, h.keys⟩

theorem keeps_keepReply {b : Bool} {s0 s : State} (h : Keeps b s0 s) : ∀ o t m, Keeps b s0 (keepReply o t m s) := by
  intro o t m; unfold keepReply svcMod
  exact ⟨h.pending, h.clock, h.serial, h.hwIssue, h.queue, h.cmds, h.windows, h.pend, fun _ => by simp only [List.length_take]; omega, h.slots, h.keys⟩

theorem keeps_runOp {b : Bool} {s0 s : State} {o : SvcOrigin} {op : BitVec 8} {tag : BitVec 16} {f : Op}
    (ha : ∀ a t, Keeps b s0 t → Keeps b s0 (answer o op tag a t)) (hf : ∀ t, Keeps b s0 t → Keeps b s0 (f t).2) (h : Keeps b s0 s) :
    Keeps b s0 (runOp o op tag f s) := by
  have h1 : Keeps b s0 (bump aSVC_RX s) := keeps_bumpBy h
  unfold runOp
  simp only []
  split
  · exact ha _ _ h1
  · have h2 := hf _ h1
    split
    · rename_i e; rw [e] at h2; exact ha _ _ h2
    · rename_i e; rw [e] at h2; exact h2

/-! The pending entries of the display. -/

theorem length_absorb (n : Nat) : ∀ (x : List Rect) (e : Rect) (y : List Rect), (absorb n x e y).length ≤ x.length + y.length + 1 := by
  induction n with
  | zero => intro x e y; simp [absorb]; omega
  | succ n ih =>
    intro x e y
    unfold absorb
    split
    · refine Nat.le_trans (ih _ _ _) ?_
      have hf := fun r => List.length_filter_le (fun q => decide (q ≠ r)) x
      exact Nat.add_le_add_right (Nat.add_le_add_right (hf _) _) _
    · refine Nat.le_trans (ih _ _ _) ?_
      have hf := fun r => List.length_filter_le (fun q => decide (q ≠ r)) y
      exact Nat.add_le_add_right (Nat.add_le_add_left (hf _) _) _
    · simp; omega

theorem length_mergeAt (i : Nat) (r : Rect) (l : List Rect) (h : i < l.length) : (mergeAt i r l).length ≤ l.length := by
  unfold mergeAt
  refine Nat.le_trans (length_absorb _ _ _ _) ?_
  rw [List.length_take, List.length_drop]
  omega

theorem length_pendPut (r : Rect) (l : List Rect) (h : l.length ≤ 8) : (pendPut r l).1.length ≤ 8 := by
  unfold pendPut
  split
  · rename_i i e
    exact Nat.le_trans (length_mergeAt i r l (by have := List.findIdx?_eq_some_iff_getElem.1 e; exact this.1)) h
  · split
    · exact Nat.le_trans (length_mergeAt _ r l (by omega)) h
    · simp; omega

theorem keeps_addPending {b : Bool} {s0 s : State} (h : Keeps b s0 s) : ∀ r, Keeps b s0 (addPending r s) := by
  intro r
  unfold addPending
  have h1 : Keeps b s0 (dispMod (fun d => { d with pend := (pendPut r s.disp.pend).1 }) s) :=
    ⟨h.pending, h.clock, h.serial, h.hwIssue, h.queue, h.cmds, h.windows, fun x => length_pendPut r _ (h.pend x), h.kept, h.slots, h.keys⟩
  exact keeps_whenS (fun _ ht => keeps_latch ht) h1

/-! The duplicate windows. -/

theorem length_filter_lt {α : Type} (p : α → Bool) (l : List α) (x : α) (hx : x ∈ l) (hp : p x = false) : (l.filter p).length < l.length := by
  rcases Nat.lt_or_ge (l.filter p).length l.length with g | g
  · exact g
  · have e := List.filter_eq_self.1 (List.filter_sublist.eq_of_length_le g) x hx
    rw [hp] at e; cases e

theorem foldl_oldest (l : List Window) : ∀ o : Option Window, (∃ v, o = some v ∧ True) ∨ l ≠ [] →
    ∃ v, l.foldl (fun o w => match o with | none => some w | some v => if w.at_ < v.at_ then some w else o) o = some v ∧ (o = some v ∨ v ∈ l) := by
  induction l with
  | nil => intro o h; exact h.elim (fun ⟨v, e, _⟩ => ⟨v, e, .inl e⟩) (fun h => absurd rfl h)
  | cons w l ih =>
    intro o _
    rw [List.foldl_cons]
    cases o with
    | none => obtain ⟨v, e, g⟩ := ih (some w) (.inl ⟨w, rfl, trivial⟩); exact ⟨v, e, .inr (by rcases g with g | g; · cases g; simp
                                                                                              · simp [g])⟩
    | some u =>
      dsimp only
      split
      · obtain ⟨v, e, g⟩ := ih (some w) (.inl ⟨w, rfl, trivial⟩)
        exact ⟨v, e, .inr (by rcases g with g | g; · cases g; simp
                              · simp [g])⟩
      · obtain ⟨v, e, g⟩ := ih (some u) (.inl ⟨u, rfl, trivial⟩)
        exact ⟨v, e, g.imp id (fun g => by simp [g])⟩

/-- With a window in the table, one of them is the oldest. -/
theorem oldestWin_mem (l : List Window) (h : l ≠ []) : ∃ v, oldestWin l = some v ∧ v ∈ l := by
  obtain ⟨v, e, g⟩ := foldl_oldest l none (.inr h)
  exact ⟨v, e, g.resolve_left (by simp)⟩

theorem keeps_dupCheck {b : Bool} {s0 s : State} (h : Keeps b s0 s) : ∀ k st q, Keeps b s0 (dupCheck k st q s).2 := by
  intro k st q
  have put : ∀ (f : Window → Window) {t : State}, Keeps b s0 t → Keeps b s0 { t with fab := { t.fab with windows := s.fab.windows.map f } } :=
    fun f t ht => ⟨ht.pending, ht.clock, ht.serial, ht.hwIssue, ht.queue, ht.cmds, fun x => by simpa using h.windows x, ht.pend, ht.kept, ht.slots,
      ht.keys⟩
  unfold dupCheck
  split
  · exact h
  · dsimp only
    split
    · split
      · split
        · rename_i hl _ v e
          obtain ⟨u, e', hu⟩ := oldestWin_mem s.fab.windows (by intro z; rw [z] at hl; simp at hl)
          rw [e] at e'; cases e'
          have hm := length_filter_lt (fun w => !(decide (w.key = v.key) && decide (w.stream = v.stream))) s.fab.windows v hu (by simp)
          have h1 : Keeps b s0 (latch aFAB_EVENT 5 (bump aFAB_DUP_EVICT s)) := keeps_latch (keeps_bump h)
          refine ⟨h1.pending, h1.clock, h1.serial, h1.hwIssue, h1.queue, h1.cmds, fun x => ?_, h1.pend, h1.kept, h1.slots, h1.keys⟩
          have := h.windows x
          simp only [List.length_cons]; omega
        · rename_i hl _ e
          obtain ⟨u, e', _⟩ := oldestWin_mem s.fab.windows (by intro z; rw [z] at hl; simp at hl)
          rw [e] at e'; cases e'
      · exact ⟨h.pending, h.clock, h.serial, h.hwIssue, h.queue, h.cmds, fun _ => by simp only [List.length_cons]; omega, h.pend, h.kept, h.slots,
          h.keys⟩
    · split
      · exact put _ h
      · split
        · split
          · exact put _ (keeps_bump h)
          · exact put _ h
        · exact put _ (keeps_bump h)

/-! The log. -/

theorem keeps_slots {b : Bool} {s0 s t : State} (h : Keeps b s0 s) (e : Keeps b { s with rcd := t.rcd } t) (q : t.rcd.queue = s.rcd.queue)
    (g : ∀ k, (tabLook s.rcd.slots k).isSome = true → (tabLook t.rcd.slots k).isSome = true) : Keeps b s0 t :=
  ⟨e.pending.trans h.pending, e.clock.trans h.clock, e.serial.trans h.serial, e.hwIssue.trans h.hwIssue, fun x => q ▸ h.queue x,
   fun x => e.cmds (h.cmds x), fun x => e.windows (h.windows x), fun x => e.pend (h.pend x), fun x => e.kept (h.kept x),
   fun k x => g k (h.slots k x), fun x => (e.keys x).trans (h.keys x)⟩

theorem isSome_put {α : Type} {t : Tab α} {j k : Nat} {v : α} (h : (tabLook t j).isSome = true) : (tabLook (tabPut t k v) j).isSome = true := by
  rw [tabLook_put]; split
  · rfl
  · exact h

theorem isSome_map {α : Type} (t : Tab α) (f : α → α) (j : Nat) : (tabLook (t.map (fun p => (p.1, f p.2))) j).isSome = (tabLook t j).isSome := by
  induction t with
  | nil => rfl
  | cons p r ih => rw [List.map_cons, tabLook, tabLook]; by_cases e : p.1 = j <;> simp [e, ih]

theorem keeps_storeAt {b : Bool} {s0 s : State} (h : Keeps b s0 s) : ∀ k r o, Keeps b s0 (storeAt k r o s) := by
  intro k r o
  unfold storeAt
  apply keeps_bump
  exact ⟨h.pending, h.clock, h.serial, h.hwIssue, h.queue, h.cmds, h.windows, h.pend, h.kept, fun j x => isSome_put (h.slots j x), h.keys⟩

end Sys2Proof.Laws
end

