-- ==== Sys2Proof/Laws/KeepsFabric.lean ====
section
/-! SUPPORT. Laws/KeepsFabric.lean: what each operation keeps: the fabric, the alarm engine and the neighbours. -/
namespace Sys2Proof.Laws

open Sys2Proof.Machine

variable {b : Bool} {s0 s : State} (h : Keeps b s0 s)
include h

theorem keeps_regSet : ∀ x0 x1, Keeps b s0 (regSet x0 x1 s) := by
  intros
  exact keeps_mk h rfl rfl rfl rfl rfl rfl rfl

theorem keeps_drawn : ∀ x0, Keeps b s0 (drawn x0 s) := by
  intros
  exact keeps_mk h rfl rfl rfl rfl rfl rfl rfl

theorem keeps_undef : ∀ x0, Keeps b s0 (undef x0 s) := by
  intros
  unfold undef
  with_reducible repeat' first | assumption | apply keeps_ite | refine keeps_mk (by assumption) rfl rfl rfl rfl rfl rfl rfl | rfl

theorem keeps_triSet : ∀ x0 x1, Keeps b s0 (triSet x0 x1 s) := by
  intros
  exact keeps_mk h rfl rfl rfl rfl rfl rfl rfl

theorem keeps_voteUse : ∀ x0 x1, Keeps b s0 (voteUse x0 x1 s) := by
  intros
  unfold voteUse
  with_reducible repeat' first | assumption | apply keeps_latch | apply keeps_bump | apply keeps_triSet | apply keeps_ite | refine keeps_mk (by assumption) rfl rfl rfl rfl rfl rfl rfl | rfl

theorem keeps_useZone : Keeps b s0 (useZone s) := by
  exact keeps_voteUse h _ _

theorem keeps_useType : ∀ x0, Keeps b s0 (useType x0 s) := by
  intros
  exact keeps_voteUse h _ _

theorem keeps_useFail : ∀ x0, Keeps b s0 (useFail x0 s) := by
  intros
  exact keeps_voteUse h _ _

theorem keeps_useRole : Keeps b s0 (useRole s) := by
  exact keeps_voteUse h _ _

theorem keeps_blockRec : ∀ x0 x1 x2 x3, Keeps b s0 (blockRec x0 x1 x2 x3 s) := by
  intros
  exact keeps_emit h _ _ _ _ _

theorem keeps_result : ∀ x0 x1 x2, Keeps b s0 (result x0 x1 x2 s).2.2 := by
  intros
  unfold result
  with_reducible repeat' first | assumption | intro _ | apply keeps_ite | refine keeps_mk (by assumption) rfl rfl rfl rfl rfl rfl rfl | rfl | split

theorem keeps_noteTrend : ∀ x0 x1 x2, Keeps b s0 (noteTrend x0 x1 x2 s) := by
  intros
  unfold noteTrend
  with_reducible repeat' first | assumption | apply keeps_ite | refine keeps_mk (by assumption) rfl rfl rfl rfl rfl rfl rfl | rfl

theorem keeps_writeSample : ∀ x0 x1 x2 x3, Keeps b s0 (writeSample x0 x1 x2 x3 s) := by
  intros
  unfold writeSample
  with_reducible repeat' first | assumption | apply keeps_result | apply keeps_noteTrend | intro _ | apply keeps_ite | (refine keeps_mk ?_ rfl rfl rfl rfl rfl rfl rfl; first | assumption | apply keeps_result | apply keeps_noteTrend | apply keeps_ite) | rfl | apply keeps_ite2 | apply keeps_ite3 | apply keeps_foldl | apply keeps_foldl2 | dsimp only | split | refine keeps_snd (by assumption) ?_ | refine keeps_thd (by assumption) ?_

theorem keeps_writeQuality : ∀ x0 x1 x2, Keeps b s0 (writeQuality x0 x1 x2 s) := by
  intros
  unfold writeQuality
  with_reducible repeat' first | assumption | apply keeps_result | intro _ | apply keeps_ite | (refine keeps_mk ?_ rfl rfl rfl rfl rfl rfl rfl; first | assumption | apply keeps_result | apply keeps_ite) | rfl | apply keeps_ite2 | apply keeps_ite3 | apply keeps_foldl | apply keeps_foldl2 | dsimp only | split | refine keeps_snd (by assumption) ?_ | refine keeps_thd (by assumption) ?_

theorem keeps_linkMod : ∀ x0 x1, Keeps b s0 (linkMod x0 x1 s) := by
  intros
  exact keeps_mk h rfl rfl rfl rfl rfl rfl rfl

theorem keeps_enqueue : ∀ x0 x1 x2, Keeps b s0 (enqueue x0 x1 x2 s) := by
  intros
  unfold enqueue
  with_reducible repeat' first | assumption | apply keeps_bump | apply keeps_linkMod | intro _ | apply keeps_ite | rfl

theorem keeps_nextSeq : ∀ x0, Keeps b s0 (nextSeq x0 s).2 := by
  intros
  unfold nextSeq
  with_reducible repeat' first | assumption | intro _ | apply keeps_ite | refine keeps_mk (by assumption) rfl rfl rfl rfl rfl rfl rfl | rfl | split

theorem keeps_nextItemSeq : ∀ x0 x1, Keeps b s0 (nextItemSeq x0 x1 s).2 := by
  intros
  exact keeps_mk h rfl rfl rfl rfl rfl rfl rfl

theorem keeps_sendLocal : ∀ x0 x1, Keeps b s0 (sendLocal x0 x1 s) := by
  intros
  unfold sendLocal
  with_reducible repeat' first | assumption | apply keeps_useZone | apply keeps_enqueue

theorem keeps_floodOut : ∀ x0 x1 x2, Keeps b s0 (floodOut x0 x1 x2 s) := by
  intros
  unfold floodOut
  with_reducible repeat' first | assumption | apply keeps_enqueue | apply keeps_eachS | intro _ | apply keeps_ite | rfl

theorem keeps_sendFlood : ∀ x0 x1, Keeps b s0 (sendFlood x0 x1 s) := by
  intros
  unfold sendFlood
  with_reducible repeat' first | assumption | apply keeps_nextSeq | apply keeps_useZone | apply keeps_floodOut

theorem keeps_toSelf : ∀ x0 x1, Keeps b s0 (toSelf x0 x1 s) := by
  intros
  unfold toSelf
  with_reducible repeat' first | assumption | intro _ | apply keeps_ite | refine keeps_mk (by assumption) rfl rfl rfl rfl rfl rfl rfl | rfl | split

theorem keeps_sendTo : ∀ x0 x1 x2 x3, Keeps b s0 (sendTo x0 x1 x2 x3 s) := by
  intros
  unfold sendTo
  with_reducible repeat' first | assumption | apply keeps_useZone | apply keeps_toSelf | apply keeps_enqueue | apply keeps_bump | intro _ | apply keeps_ite | refine keeps_mk (by assumption) rfl rfl rfl rfl rfl rfl rfl | rfl | split

theorem keeps_sendUni : ∀ x0 x1 x2, Keeps b s0 (sendUni x0 x1 x2 s) := by
  intros
  unfold sendUni
  with_reducible repeat' first | assumption | apply keeps_nextSeq | apply keeps_sendTo | apply keeps_ite | rfl

theorem keeps_sendItem : ∀ x0 x1 x2, Keeps b s0 (sendItem x0 x1 x2 s) := by
  intros
  unfold sendItem
  with_reducible repeat' first | assumption | apply keeps_nextItemSeq | apply keeps_sendTo | apply keeps_eachS | intro _ | apply keeps_ite | rfl

theorem keeps_rxCheck : ∀ x0 x1 x2, Keeps b s0 (rxCheck x0 x1 x2 s).2 := by
  intros
  unfold rxCheck
  with_reducible repeat' first | assumption | apply keeps_bump | intro _ | apply keeps_ite | refine keeps_mk (by assumption) rfl rfl rfl rfl rfl rfl rfl | rfl | apply keeps_foldl | apply keeps_ite2 | dsimp only | split

theorem keeps_forwardUni : ∀ x0 x1, Keeps b s0 (forwardUni x0 x1 s) := by
  intros
  unfold forwardUni
  with_reducible repeat' first | assumption | apply keeps_bump | apply keeps_enqueue | intro _ | apply keeps_ite | refine keeps_mk (by assumption) rfl rfl rfl rfl rfl rfl rfl | rfl | split

theorem keeps_forwardFlood : ∀ x0 x1 x2, Keeps b s0 (forwardFlood x0 x1 x2 s) := by
  intros
  unfold forwardFlood
  with_reducible repeat' first | assumption | apply keeps_bump | apply keeps_floodOut | apply keeps_ite | rfl

theorem keeps_holdRx : ∀ x0 x1 x2, Keeps b s0 (holdRx x0 x1 x2 s) := by
  intros
  unfold holdRx
  with_reducible repeat' first | assumption | apply keeps_bump | apply keeps_linkMod | intro _ | apply keeps_ite | rfl

theorem keeps_accept : ∀ x0 x1 x2, Keeps b s0 (accept x0 x1 x2 s).2 := by
  intros
  unfold accept
  with_reducible repeat' first | assumption | apply keeps_forwardFlood | apply keeps_dupCheck | apply keeps_forwardUni | intro _ | apply keeps_ite | refine keeps_mk (by assumption) rfl rfl rfl rfl rfl rfl rfl | rfl | apply keeps_foldl | apply keeps_ite2 | dsimp only | split

theorem keeps_receiveAs : ∀ x0 x1 x2, Keeps b s0 (receiveAs x0 x1 x2 s).2 := by
  intros
  unfold receiveAs
  with_reducible repeat' first | assumption | apply keeps_dupCheck | apply keeps_accept | apply keeps_useZone | apply keeps_rxCheck | apply keeps_holdRx | intro _ | apply keeps_ite | refine keeps_mk (by assumption) rfl rfl rfl rfl rfl rfl rfl | rfl | apply keeps_foldl | apply keeps_ite2 | dsimp only | split

theorem keeps_receive : ∀ x0 x1, Keeps b s0 (receive x0 x1 s).2 := by
  intros
  exact keeps_receiveAs h _ _ _

theorem keeps_sendNodeState : Keeps b s0 (sendNodeState s) := by
  unfold sendNodeState
  with_reducible repeat' first | assumption | apply keeps_sendFlood | apply keeps_ite | rfl

theorem keeps_pointSet : ∀ x0 x1, Keeps b s0 (pointSet x0 x1 s) := by
  intros
  exact keeps_mk h rfl rfl rfl rfl rfl rfl rfl

theorem keeps_sendAlarms : ∀ x0 x1, Keeps b s0 (sendAlarms x0 x1 s) := by
  intros
  unfold sendAlarms
  with_reducible repeat' first | assumption | apply keeps_sendUni | apply keeps_eachS | intro _ | apply keeps_ite | rfl

theorem keeps_offerAlarms : ∀ x0, Keeps b s0 (offerAlarms x0 s) := by
  intros
  unfold offerAlarms
  with_reducible repeat' first | assumption | apply keeps_sendAlarms | apply keeps_eachS | intro _ | apply keeps_ite | refine keeps_mk (by assumption) rfl rfl rfl rfl rfl rfl rfl | rfl

theorem keeps_sendPairP : ∀ x0, Keeps b s0 (sendPairP x0 s) := by
  intros
  unfold sendPairP
  with_reducible repeat' first | assumption | apply keeps_sendLocal | apply keeps_ite | rfl

omit h in
theorem keeps_emitAlarm {b : Bool} {s0 : State} {x4 : List (Word × AlmEvent) × State} (h : Keeps b s0 x4.2) : ∀ x0 x1 x2 x3, Keeps b s0 (emitAlarm x0 x1 x2 x3 x4).2 := by
  intros
  unfold emitAlarm
  with_reducible repeat' first | assumption | apply keeps_emit | apply keeps_bump | apply keeps_sendPairP | apply keeps_ite | rfl

theorem keeps_useEnable : ∀ x0, Keeps b s0 (useEnable x0 s) := by
  intros
  unfold useEnable
  with_reducible repeat' first | assumption | apply keeps_latch | apply keeps_bump | apply keeps_pointSet | apply keeps_ite | rfl

omit h in
theorem keeps_runSlot {b : Bool} {s0 : State} {x1 : List (Word × AlmEvent) × State} (h : Keeps b s0 x1.2) : ∀ x0, Keeps b s0 (runSlot x0 x1).2 := by
  intros
  unfold runSlot
  with_reducible repeat' first | assumption | apply keeps_useEnable | apply keeps_drawn | apply keeps_pointSet | apply keeps_latch | apply keeps_emitAlarm | apply keeps_whenS | intro _ | apply keeps_ite | refine keeps_mk (by assumption) rfl rfl rfl rfl rfl rfl rfl | rfl | apply keeps_foldl | apply keeps_ite2 | dsimp only | split

omit h in
theorem keeps_applyCmd {b : Bool} {s0 : State} {x1 : List (Word × AlmEvent) × State} (h : Keeps b s0 x1.2) : ∀ x0, Keeps b s0 (applyCmd x0 x1).2 := by
  intros
  unfold applyCmd
  with_reducible repeat' first | assumption | apply keeps_latch | apply keeps_bump | apply keeps_emitAlarm | apply keeps_pointSet | intro _ | apply keeps_ite | refine keeps_mk (by assumption) rfl rfl rfl rfl rfl rfl rfl | rfl | apply keeps_foldl | apply keeps_ite2 | dsimp only | split

omit h in
theorem keeps_commandPhase {b : Bool} {s0 : State} {x0 : List (Word × AlmEvent) × State} (h : Keeps b s0 x0.2) : Keeps b s0 (commandPhase x0).2 := by
  unfold commandPhase
  refine keeps_foldl2 (fun _ _ ht => keeps_applyCmd ht _) _ _ ?_
  exact ⟨h.pending, h.clock, h.serial, h.hwIssue, h.queue, fun x => by have := h.cmds x; simp only [List.length_drop]; omega, h.windows, h.pend,
    h.kept, h.slots, h.keys⟩

omit h in
theorem keeps_slotPhase {b : Bool} {s0 : State} {x0 : List (Word × AlmEvent) × State} (h : Keeps b s0 x0.2) : Keeps b s0 (slotPhase x0).2 := by
  unfold slotPhase
  with_reducible repeat' first | assumption | apply keeps_runSlot | intro _ | apply keeps_ite | (refine keeps_mk ?_ rfl rfl rfl rfl rfl rfl rfl; first | assumption | apply keeps_runSlot | apply keeps_ite) | rfl | apply keeps_ite2 | apply keeps_ite3 | apply keeps_foldl | apply keeps_foldl2 | dsimp only | split | refine keeps_snd (by assumption) ?_ | refine keeps_thd (by assumption) ?_

theorem keeps_countPhase : Keeps b s0 (countPhase s) := by
  exact keeps_mk h rfl rfl rfl rfl rfl rfl rfl

theorem keeps_runCycle : Keeps b s0 (runCycle s) := by
  unfold runCycle
  with_reducible repeat' first | assumption | apply keeps_slotPhase | apply keeps_commandPhase | apply keeps_countPhase | apply keeps_offerAlarms

theorem keeps_recWrite : ∀ x0 x1, Keeps b s0 (recWrite x0 x1 s) := by
  intros
  unfold recWrite
  with_reducible repeat' first | assumption | apply keeps_pointSet | apply keeps_undef | apply keeps_whenS | intro _ | apply keeps_ite | rfl

theorem keeps_loseTwoWay : ∀ x0, Keeps b s0 (loseTwoWay x0 s) := by
  intros
  unfold loseTwoWay
  with_reducible repeat' first | assumption | apply keeps_latch | apply keeps_bump | apply keeps_linkMod | intro _ | apply keeps_ite | rfl

theorem keeps_refreshHeld : ∀ x0, Keeps b s0 (refreshHeld x0 s) := by
  intros
  unfold refreshHeld
  with_reducible repeat' first | assumption | apply keeps_linkMod | apply keeps_latch | apply keeps_whenS | intro _ | apply keeps_ite | rfl

theorem keeps_sendSync : ∀ x0, Keeps b s0 (sendSync x0 s) := by
  intros
  unfold sendSync
  with_reducible repeat' first | assumption | apply keeps_sendLocal | apply keeps_eachS | intro _ | apply keeps_ite | rfl

theorem keeps_flushLink : ∀ x0 x1, Keeps b s0 (flushLink x0 x1 s) := by
  intros
  unfold flushLink
  with_reducible repeat' first | assumption | apply keeps_linkMod | apply keeps_bumpBy | intro _ | apply keeps_ite | rfl

theorem keeps_effPhyUp : ∀ x0, Keeps b s0 (effPhyUp x0 s) := by
  intros
  unfold effPhyUp
  with_reducible repeat' first | assumption | apply keeps_linkMod | intro _ | apply keeps_ite | rfl

theorem keeps_effPhyDown : ∀ x0, Keeps b s0 (effPhyDown x0 s) := by
  intros
  unfold effPhyDown
  with_reducible repeat' first | assumption | apply keeps_linkMod | apply keeps_flushLink | apply keeps_loseTwoWay | intro _ | apply keeps_ite | rfl

theorem keeps_sendHello : ∀ x0, Keeps b s0 (sendHello x0 s) := by
  intros
  unfold sendHello
  with_reducible repeat' first | assumption | apply keeps_linkMod | apply keeps_sendLocal

theorem keeps_effHelloSend : Keeps b s0 (effHelloSend s) := by
  unfold effHelloSend
  with_reducible repeat' first | assumption | apply keeps_sendHello | apply keeps_voteUse | apply keeps_whenS | apply keeps_eachS | intro _ | apply keeps_ite | rfl

theorem keeps_effLinkAlone : ∀ x0, Keeps b s0 (effLinkAlone x0 s) := by
  intros
  unfold effLinkAlone
  with_reducible repeat' first | assumption | apply keeps_linkMod | intro _ | apply keeps_ite | rfl

theorem keeps_lsaStore : ∀ x0, Keeps b s0 (lsaStore x0 s).2 := by
  intros
  unfold lsaStore
  with_reducible repeat' first | assumption | intro _ | apply keeps_ite | refine keeps_mk (by assumption) rfl rfl rfl rfl rfl rfl rfl | rfl | apply keeps_foldl | apply keeps_ite2 | dsimp only | split

theorem keeps_originate : Keeps b s0 (originate s) := by
  unfold originate
  with_reducible repeat' first | assumption | apply keeps_lsaStore | apply keeps_sendFlood | apply keeps_ite | refine keeps_mk (by assumption) rfl rfl rfl rfl rfl rfl rfl | rfl

theorem keeps_effLsaTombstone : ∀ x0 x1, Keeps b s0 (effLsaTombstone x0 x1 s) := by
  intros
  exact keeps_mk h rfl rfl rfl rfl rfl rfl rfl

theorem keeps_effTombstoneExpiry : ∀ x0 x1, Keeps b s0 (effTombstoneExpiry x0 x1 s) := by
  intros
  exact keeps_mk h rfl rfl rfl rfl rfl rfl rfl

theorem keeps_entryOut : ∀ x0, Keeps b s0 (entryOut x0 s) := by
  intros
  unfold entryOut
  with_reducible repeat' first | assumption | apply keeps_writeQuality | apply keeps_ite | rfl

theorem keeps_installView : ∀ x0, Keeps b s0 (installView x0 s) := by
  intros
  unfold installView
  with_reducible repeat' first | assumption | apply keeps_entryOut | apply keeps_eachS | intro _ | apply keeps_ite | refine keeps_mk (by assumption) rfl rfl rfl rfl rfl rfl rfl | rfl

theorem keeps_cacheAdd : ∀ x0, Keeps b s0 (cacheAdd x0 s) := by
  intros
  exact keeps_mk h rfl rfl rfl rfl rfl rfl rfl

theorem keeps_floodClaim : ∀ x0 x1, Keeps b s0 (floodClaim x0 x1 s) := by
  intros
  exact keeps_floodOut h _ _ _

theorem keeps_sendClaim : Keeps b s0 (sendClaim s) := by
  unfold sendClaim
  with_reducible repeat' first | assumption | apply keeps_floodClaim | apply keeps_cacheAdd | intro _ | apply keeps_ite | refine keeps_mk (by assumption) rfl rfl rfl rfl rfl rfl rfl | rfl | split

theorem keeps_beginClaim : ∀ x0 x1 x2, Keeps b s0 (beginClaim x0 x1 x2 s) := by
  intros
  unfold beginClaim
  with_reducible repeat' first | assumption | apply keeps_sendClaim | apply keeps_ite | refine keeps_mk (by assumption) rfl rfl rfl rfl rfl rfl rfl | rfl

theorem keeps_claimNext : Keeps b s0 (claimNext s) := by
  unfold claimNext
  with_reducible repeat' first | assumption | apply keeps_beginClaim | apply keeps_latch | apply keeps_whenS | intro _ | apply keeps_ite | refine keeps_mk (by assumption) rfl rfl rfl rfl rfl rfl rfl | rfl | split

theorem keeps_loseClaim : Keeps b s0 (loseClaim s) := by
  unfold loseClaim
  with_reducible repeat' first | assumption | apply keeps_bump | apply keeps_latch | apply keeps_claimNext | intro _ | apply keeps_ite | refine keeps_mk (by assumption) rfl rfl rfl rfl rfl rfl rfl | rfl | split

theorem keeps_giveUpNumber : Keeps b s0 (giveUpNumber s) := by
  unfold giveUpNumber
  with_reducible repeat' first | assumption | apply keeps_claimNext | apply keeps_blockRec | apply keeps_latch | apply keeps_bump | apply keeps_installView | apply keeps_ite | refine keeps_mk (by assumption) rfl rfl rfl rfl rfl rfl rfl | rfl

theorem keeps_conflict : ∀ x0 x1 x2, Keeps b s0 (conflict x0 x1 x2 s) := by
  intros
  unfold conflict
  with_reducible repeat' first | assumption | apply keeps_giveUpNumber | apply keeps_ite | rfl

theorem keeps_onClaim : ∀ x0, Keeps b s0 (onClaim x0 s) := by
  intros
  unfold onClaim
  with_reducible repeat' first | assumption | apply keeps_floodClaim | apply keeps_cacheAdd | apply keeps_sendClaim | apply keeps_loseClaim | intro _ | apply keeps_ite | refine keeps_mk (by assumption) rfl rfl rfl rfl rfl rfl rfl | rfl | split

theorem keeps_forwardClaim : ∀ x0 x1 x2, Keeps b s0 (forwardClaim x0 x1 x2 s) := by
  intros
  unfold forwardClaim
  with_reducible repeat' first | assumption | apply keeps_cacheAdd | apply keeps_bump | apply keeps_floodOut | intro _ | apply keeps_ite | refine keeps_mk (by assumption) rfl rfl rfl rfl rfl rfl rfl | rfl | split

theorem keeps_effClaim : ∀ x0 x1, Keeps b s0 (effClaim x0 x1 s) := by
  intros
  unfold effClaim
  with_reducible repeat' first | assumption | apply keeps_receive | apply keeps_onClaim | apply keeps_forwardClaim | apply keeps_ite | rfl

theorem keeps_effDefend : ∀ x0 x1, Keeps b s0 (effDefend x0 x1 s) := by
  intros
  unfold effDefend
  with_reducible repeat' first | assumption | apply keeps_receive | apply keeps_forwardClaim | apply keeps_loseClaim | apply keeps_conflict | intro _ | apply keeps_ite | refine keeps_mk (by assumption) rfl rfl rfl rfl rfl rfl rfl | rfl | split

theorem keeps_effHello : ∀ x0 x1, Keeps b s0 (effHello x0 x1 s) := by
  intros
  unfold effHello
  with_reducible repeat' first | assumption | apply keeps_receive | apply keeps_loseTwoWay | apply keeps_linkMod | apply keeps_latch | apply keeps_refreshHeld | apply keeps_sendSync | apply keeps_conflict | apply keeps_whenS | intro _ | apply keeps_ite | refine keeps_mk (by assumption) rfl rfl rfl rfl rfl rfl rfl | rfl | split

theorem keeps_syncCheck : ∀ x0, Keeps b s0 (syncCheck x0 s) := by
  intros
  exact keeps_linkMod h _ _

theorem keeps_effSync : ∀ x0 x1, Keeps b s0 (effSync x0 x1 s) := by
  intros
  unfold effSync
  with_reducible repeat' first | assumption | apply keeps_receive | apply keeps_linkMod | apply keeps_sendLocal | apply keeps_syncCheck | apply keeps_enqueue | apply keeps_eachS | intro _ | apply keeps_ite | refine keeps_mk (by assumption) rfl rfl rfl rfl rfl rfl rfl | rfl | split

theorem keeps_onLsa : ∀ x0 x1, Keeps b s0 (onLsa x0 x1 s).2 := by
  intros
  unfold onLsa
  with_reducible repeat' first | assumption | apply keeps_originate | apply keeps_lsaStore | apply keeps_syncCheck | apply keeps_linkMod | apply keeps_conflict | apply keeps_eachS | intro _ | apply keeps_ite | refine keeps_mk (by assumption) rfl rfl rfl rfl rfl rfl rfl | rfl | apply keeps_foldl | apply keeps_ite2 | dsimp only | split

theorem keeps_effLsa : ∀ x0 x1, Keeps b s0 (effLsa x0 x1 s) := by
  intros
  unfold effLsa
  with_reducible repeat' first | assumption | apply keeps_receive | apply keeps_onLsa | apply keeps_bump | apply keeps_floodOut | intro _ | apply keeps_ite | (refine keeps_mk ?_ rfl rfl rfl rfl rfl rfl rfl; first | assumption | apply keeps_receive | apply keeps_onLsa | apply keeps_bump | apply keeps_floodOut | apply keeps_ite) | rfl | apply keeps_ite2 | apply keeps_ite3 | apply keeps_foldl | apply keeps_foldl2 | dsimp only | split | refine keeps_snd (by assumption) ?_ | refine keeps_thd (by assumption) ?_

theorem keeps_freeAddr : Keeps b s0 (freeAddr s) := by
  unfold freeAddr
  with_reducible repeat' first | assumption | apply keeps_triSet | apply keeps_undef | apply keeps_drawn | intro _ | apply keeps_ite | (refine keeps_mk ?_ rfl rfl rfl rfl rfl rfl rfl; first | assumption | apply keeps_triSet | apply keeps_undef | apply keeps_drawn | apply keeps_ite) | rfl | apply keeps_ite2 | apply keeps_ite3 | apply keeps_foldl | apply keeps_foldl2 | dsimp only | split | refine keeps_snd (by assumption) ?_ | refine keeps_thd (by assumption) ?_

theorem keeps_effFabAddrWrite : ∀ x0, Keeps b s0 (effFabAddrWrite x0 s) := by
  intros
  unfold effFabAddrWrite
  with_reducible repeat' first | assumption | apply keeps_freeAddr | apply keeps_triSet | apply keeps_installView | apply keeps_beginClaim | apply keeps_claimNext | intro _ | apply keeps_ite | (refine keeps_mk ?_ rfl rfl rfl rfl rfl rfl rfl; first | assumption | apply keeps_freeAddr | apply keeps_triSet | apply keeps_installView | apply keeps_beginClaim | apply keeps_claimNext | apply keeps_ite) | rfl | apply keeps_ite2 | apply keeps_ite3 | apply keeps_foldl | apply keeps_foldl2 | dsimp only | split | refine keeps_snd (by assumption) ?_ | refine keeps_thd (by assumption) ?_

theorem keeps_accSet : ∀ x0 x1, Keeps b s0 (accSet x0 x1 s) := by
  intros
  exact keeps_mk h rfl rfl rfl rfl rfl rfl rfl

theorem keeps_accDel : ∀ x0, Keeps b s0 (accDel x0 s) := by
  intros
  exact keeps_mk h rfl rfl rfl rfl rfl rfl rfl

theorem keeps_sendAccord : ∀ x0 x1, Keeps b s0 (sendAccord x0 x1 s) := by
  intros
  unfold sendAccord
  with_reducible repeat' first | assumption | apply keeps_sendItem | intro _ | apply keeps_ite | refine keeps_mk (by assumption) rfl rfl rfl rfl rfl rfl rfl | rfl | split

theorem keeps_accGo : ∀ x0 x1 x2 x3 x4, Keeps b s0 (accGo x0 x1 x2 x3 x4 s) := by
  intros
  unfold accGo
  with_reducible repeat' first | assumption | apply keeps_accSet | apply keeps_sendAccord | apply keeps_emit | apply keeps_ite | rfl

theorem keeps_refreshFo : ∀ x0 x1 x2, Keeps b s0 (refreshFo x0 x1 x2 s) := by
  intros
  unfold refreshFo
  with_reducible repeat' first | assumption | apply keeps_accSet | apply keeps_latch | apply keeps_bump | apply keeps_accGo | apply keeps_whenS | intro _ | apply keeps_ite | refine keeps_mk (by assumption) rfl rfl rfl rfl rfl rfl rfl | rfl | split

theorem keeps_accMove : ∀ x0 x1 x2, Keeps b s0 (accMove x0 x1 x2 s) := by
  intros
  unfold accMove
  with_reducible repeat' first | assumption | apply keeps_accGo | intro _ | apply keeps_ite | refine keeps_mk (by assumption) rfl rfl rfl rfl rfl rfl rfl | rfl | split

theorem keeps_accStep : ∀ x0 x1 x2, Keeps b s0 (accStep x0 x1 x2 s) := by
  intros
  unfold accStep
  with_reducible repeat' first | assumption | apply keeps_accMove

theorem keeps_applyMember : ∀ x0 x1, Keeps b s0 (applyMember x0 x1 s) := by
  intros
  unfold applyMember
  with_reducible repeat' first | assumption | apply keeps_accSet | apply keeps_refreshFo | apply keeps_latch | apply keeps_bump | apply keeps_accStep | apply keeps_whenS | intro _ | apply keeps_ite | refine keeps_mk (by assumption) rfl rfl rfl rfl rfl rfl rfl | rfl | split

theorem keeps_accOnEvents : ∀ x0 x1 x2, Keeps b s0 (accOnEvents x0 x1 x2 s) := by
  intros
  unfold accOnEvents
  with_reducible repeat' first | assumption | apply keeps_applyMember | apply keeps_eachS | intro _ | apply keeps_ite | rfl

theorem keeps_accDecide : ∀ x0, Keeps b s0 (accDecide x0 s) := by
  intros
  unfold accDecide
  with_reducible repeat' first | assumption | apply keeps_accGo | apply keeps_latch | apply keeps_bump | intro _ | apply keeps_ite | refine keeps_mk (by assumption) rfl rfl rfl rfl rfl rfl rfl | rfl | split

theorem keeps_effEvaluatorRebuild : ∀ x0, Keeps b s0 (effEvaluatorRebuild x0 s) := by
  intros
  unfold effEvaluatorRebuild
  with_reducible repeat' first | assumption | apply keeps_accDecide | intro _ | apply keeps_ite | refine keeps_mk (by assumption) rfl rfl rfl rfl rfl rfl rfl | rfl | split

theorem keeps_accOnReport : ∀ x0 x1 x2, Keeps b s0 (accOnReport x0 x1 x2 s) := by
  intros
  unfold accOnReport
  with_reducible repeat' first | assumption | apply keeps_applyMember | apply keeps_accSet | apply keeps_eachS | intro _ | apply keeps_ite | refine keeps_mk (by assumption) rfl rfl rfl rfl rfl rfl rfl | rfl | apply keeps_foldl | apply keeps_ite2 | dsimp only | split

theorem keeps_accStart : ∀ x0, Keeps b s0 (accStart x0 s) := by
  intros
  exact keeps_accSet h _ _

theorem keeps_effFirstOutWindowClose : ∀ x0, Keeps b s0 (effFirstOutWindowClose x0 s) := by
  intros
  unfold effFirstOutWindowClose
  with_reducible repeat' first | assumption | apply keeps_accSet | intro _ | apply keeps_ite | refine keeps_mk (by assumption) rfl rfl rfl rfl rfl rfl rfl | rfl | split

theorem keeps_effGroupDelayExpiry : ∀ x0, Keeps b s0 (effGroupDelayExpiry x0 s) := by
  intros
  unfold effGroupDelayExpiry
  with_reducible repeat' first | assumption | apply keeps_accStep | apply keeps_accGo | intro _ | apply keeps_ite | refine keeps_mk (by assumption) rfl rfl rfl rfl rfl rfl rfl | rfl | split

theorem keeps_meanOf : ∀ x0, Keeps b s0 (meanOf x0 s) := by
  intros
  unfold meanOf
  with_reducible repeat' first | assumption | apply keeps_accSet | apply keeps_drawn | apply keeps_sendItem | intro _ | apply keeps_ite | refine keeps_mk (by assumption) rfl rfl rfl rfl rfl rfl rfl | rfl | split

theorem keeps_effMeanPeriod : Keeps b s0 (effMeanPeriod s) := by
  unfold effMeanPeriod
  with_reducible repeat' first | assumption | apply keeps_meanOf | apply keeps_eachS | intro _ | apply keeps_ite | rfl

theorem keeps_effMeanRequestSend : Keeps b s0 (effMeanRequestSend s) := by
  unfold effMeanRequestSend
  with_reducible repeat' first | assumption | apply keeps_sendItem | apply keeps_eachS | intro _ | apply keeps_ite | rfl

theorem keeps_effMean : ∀ x0 x1 x2, Keeps b s0 (effMean x0 x1 x2 s) := by
  intros
  unfold effMean
  with_reducible repeat' first | assumption | apply keeps_receive | apply keeps_accSet | intro _ | apply keeps_ite | (refine keeps_mk ?_ rfl rfl rfl rfl rfl rfl rfl; first | assumption | apply keeps_receive | apply keeps_accSet | apply keeps_ite) | rfl | apply keeps_ite2 | apply keeps_ite3 | apply keeps_foldl | apply keeps_foldl2 | dsimp only | split | refine keeps_snd (by assumption) ?_ | refine keeps_thd (by assumption) ?_

theorem keeps_effAccordStateReport : Keeps b s0 (effAccordStateReport s) := by
  unfold effAccordStateReport
  with_reducible repeat' first | assumption | apply keeps_sendAccord | apply keeps_eachS | intro _ | apply keeps_ite | rfl

theorem keeps_sendReport : ∀ x0 x1, Keeps b s0 (sendReport x0 x1 s) := by
  intros
  unfold sendReport
  with_reducible repeat' first | assumption | apply keeps_sendUni | apply keeps_eachS | intro _ | apply keeps_ite | rfl

theorem keeps_effMemberReportSend : Keeps b s0 (effMemberReportSend s) := by
  unfold effMemberReportSend
  with_reducible repeat' first | assumption | apply keeps_sendReport | apply keeps_eachS | intro _ | apply keeps_ite | refine keeps_mk (by assumption) rfl rfl rfl rfl rfl rfl rfl | rfl

theorem keeps_groupAck : ∀ x0, Keeps b s0 (groupAck x0 s) := by
  intros
  unfold groupAck
  with_reducible repeat' first | assumption | apply keeps_sendItem | apply keeps_eachS | intro _ | apply keeps_ite | refine keeps_mk (by assumption) rfl rfl rfl rfl rfl rfl rfl | rfl | split

theorem keeps_effAlarmCommand : ∀ x0 x1 x2 x3, Keeps b s0 (effAlarmCommand x0 x1 x2 x3 s) := by
  intros
  unfold effAlarmCommand
  with_reducible repeat' first | assumption | apply keeps_receive | apply keeps_groupAck | apply keeps_queueCmd | intro _ | apply keeps_ite | refine keeps_mk (by assumption) rfl rfl rfl rfl rfl rfl rfl | rfl | split

end Sys2Proof.Laws
end

