-- ==== Sys2Proof/Laws/KeepsCalls.lean ====
section
/-! SUPPORT. Laws/KeepsCalls.lean: what each operation keeps: the panels, the calls and the placement. -/
namespace Sys2Proof.Laws

open Sys2Proof.Machine

variable {b : Bool} {s0 s : State} (h : Keeps b s0 s)
include h

theorem keeps_pbMod : ∀ x0 x1, Keeps b s0 (pbMod x0 x1 s) := by
  intros
  unfold pbMod
  with_reducible repeat' first | assumption | apply keeps_ite | refine keeps_mk (by assumption) rfl rfl rfl rfl rfl rfl rfl | rfl

theorem keeps_panelMod : ∀ x0 x1 x2, Keeps b s0 (panelMod x0 x1 x2 s) := by
  intros
  exact keeps_mk h rfl rfl rfl rfl rfl rfl rfl

theorem keeps_reportFrame : ∀ x0 x1 x2 x3 x4 x5, Keeps b s0 (reportFrame x0 x1 x2 x3 x4 x5 s) := by
  intros
  unfold reportFrame
  with_reducible repeat' first | assumption | apply keeps_sendUni | apply keeps_eachS | intro _ | apply keeps_ite | refine keeps_mk (by assumption) rfl rfl rfl rfl rfl rfl rfl | rfl | split

theorem keeps_pbOffer : ∀ x0 x1 x2 x3 x4, Keeps b s0 (pbOffer x0 x1 x2 x3 x4 s) := by
  intros
  unfold pbOffer
  with_reducible repeat' first | assumption | apply keeps_reportFrame | apply keeps_bump | apply keeps_latch | apply keeps_pbMod | apply keeps_whenS | intro _ | apply keeps_ite | refine keeps_mk (by assumption) rfl rfl rfl rfl rfl rfl rfl | rfl

theorem keeps_refreshSound : ∀ x0 x1, Keeps b s0 (refreshSound x0 x1 s) := by
  intros
  unfold refreshSound
  with_reducible repeat' first | assumption | apply keeps_pbOffer | apply keeps_panelMod | intro _ | apply keeps_ite | rfl

theorem keeps_sendCalls : ∀ x0 x1 x2, Keeps b s0 (sendCalls x0 x1 x2 s) := by
  intros
  unfold sendCalls
  with_reducible repeat' first | assumption | apply keeps_pbOffer | apply keeps_eachS | intro _ | apply keeps_ite | rfl

theorem keeps_sendLamps : ∀ x0 x1, Keeps b s0 (sendLamps x0 x1 s) := by
  intros
  unfold sendLamps
  with_reducible repeat' first | assumption | apply keeps_pbOffer | apply keeps_eachS | intro _ | apply keeps_ite | rfl

theorem keeps_sendPatrols : ∀ x0 x1, Keeps b s0 (sendPatrols x0 x1 s) := by
  intros
  unfold sendPatrols
  with_reducible repeat' first | assumption | apply keeps_pbOffer | apply keeps_eachS | intro _ | apply keeps_ite | rfl

theorem keeps_sendSound : ∀ x0 x1, Keeps b s0 (sendSound x0 x1 s) := by
  intros
  exact keeps_pbOffer h _ _ _ _ _

theorem keeps_sendPageTo : ∀ x0 x1 x2 x3 x4, Keeps b s0 (sendPageTo x0 x1 x2 x3 x4 s) := by
  intros
  unfold sendPageTo
  with_reducible repeat' first | assumption | apply keeps_pbOffer | apply keeps_eachS | intro _ | apply keeps_ite | rfl

theorem keeps_nodeBeat : ∀ x0 x1, Keeps b s0 (nodeBeat x0 x1 s) := by
  intros
  exact keeps_pbOffer h _ _ _ _ _

theorem keeps_admitOne : ∀ x0, Keeps b s0 (admitOne x0 s) := by
  intros
  unfold admitOne
  with_reducible repeat' first | assumption | apply keeps_drawn | apply keeps_pbMod | apply keeps_whenS | intro _ | apply keeps_ite | refine keeps_mk (by assumption) rfl rfl rfl rfl rfl rfl rfl | rfl | split

theorem keeps_sendPortState : ∀ x0, Keeps b s0 (sendPortState x0 s) := by
  intros
  unfold sendPortState
  with_reducible repeat' first | assumption | apply keeps_admitOne | apply keeps_nodeBeat | apply keeps_pbMod | apply keeps_sendSound | apply keeps_sendPatrols | apply keeps_sendLamps | apply keeps_sendCalls | apply keeps_sendPageTo | apply keeps_eachS | intro _ | apply keeps_ite | rfl

theorem keeps_frameUndelivered : ∀ x0 x1, Keeps b s0 (frameUndelivered x0 x1 s) := by
  intros
  unfold frameUndelivered
  with_reducible repeat' first | assumption | apply keeps_reportFrame | apply keeps_whenS | intro _ | apply keeps_ite | rfl

theorem keeps_stampHead : ∀ x0 x1, Keeps b s0 (stampHead x0 x1 s) := by
  intros
  exact keeps_pbMod h _ _

theorem keeps_withdraw : ∀ x0 x1, Keeps b s0 (withdraw x0 x1 s) := by
  intros
  unfold withdraw
  with_reducible repeat' first | assumption | apply keeps_frameUndelivered | apply keeps_bump | apply keeps_pbMod

theorem keeps_withdrawLate : ∀ x0, Keeps b s0 (withdrawLate x0 s) := by
  intros
  unfold withdrawLate
  with_reducible repeat' first | assumption | apply keeps_withdraw | intro _ | apply keeps_ite | refine keeps_mk (by assumption) rfl rfl rfl rfl rfl rfl rfl | rfl | split

theorem keeps_flushPort : ∀ x0, Keeps b s0 (flushPort x0 s) := by
  intros
  unfold flushPort
  with_reducible repeat' first | assumption | apply keeps_pbMod | apply keeps_frameUndelivered | apply keeps_bumpBy | apply keeps_eachS | intro _ | apply keeps_ite | rfl

theorem keeps_pbCounts : ∀ x0 x1, Keeps b s0 (pbCounts x0 x1 s) := by
  intros
  unfold pbCounts
  with_reducible repeat' first | assumption | apply keeps_pbMod | apply keeps_latch | apply keeps_whenS | intro _ | apply keeps_ite | rfl

theorem keeps_pbReceived : ∀ x0 x1, Keeps b s0 (pbReceived x0 x1 s) := by
  intros
  unfold pbReceived
  with_reducible repeat' first | assumption | apply keeps_drawn | apply keeps_pbMod | apply keeps_whenS | intro _ | apply keeps_ite | rfl

theorem keeps_pbClose : ∀ x0 x1, Keeps b s0 (pbClose x0 x1 s) := by
  intros
  unfold pbClose
  with_reducible repeat' first | assumption | apply keeps_pbMod | apply keeps_bump | intro _ | apply keeps_ite | (refine keeps_mk ?_ rfl rfl rfl rfl rfl rfl rfl; first | assumption | apply keeps_pbMod | apply keeps_bump | apply keeps_ite) | rfl | apply keeps_ite2 | apply keeps_ite3 | apply keeps_foldl | apply keeps_foldl2 | dsimp only | split | refine keeps_snd (by assumption) ?_ | refine keeps_thd (by assumption) ?_

theorem keeps_pbMonitorAll : Keeps b s0 (pbMonitorAll s) := by
  unfold pbMonitorAll
  with_reducible repeat' first | assumption | apply keeps_pbMod

theorem keeps_pbJoin : ∀ x0 x1, Keeps b s0 (pbJoin x0 x1 s) := by
  intros
  unfold pbJoin
  with_reducible repeat' first | assumption | apply keeps_pbMod

theorem keeps_sendDuty : ∀ x0, Keeps b s0 (sendDuty x0 s) := by
  intros
  unfold sendDuty
  with_reducible repeat' first | assumption | apply keeps_sendUni | apply keeps_eachS | intro _ | apply keeps_ite | rfl

theorem keeps_effDutyReportSend : Keeps b s0 (effDutyReportSend s) := by
  unfold effDutyReportSend
  with_reducible repeat' first | assumption | apply keeps_sendDuty | apply keeps_eachS | intro _ | apply keeps_ite | rfl

theorem keeps_relayKey : ∀ x0 x1 x2, Keeps b s0 (relayKey x0 x1 x2 s) := by
  intros
  unfold relayKey
  with_reducible repeat' first | assumption | apply keeps_sendUni | apply keeps_eachS | intro _ | apply keeps_ite | rfl

theorem keeps_ackItem : ∀ x0 x1, Keeps b s0 (ackItem x0 x1 s) := by
  intros
  unfold ackItem
  with_reducible repeat' first | assumption | apply keeps_sendUni | apply keeps_ite | rfl

theorem keeps_setNote : ∀ x0 x1, Keeps b s0 (setNote x0 x1 s) := by
  intros
  exact keeps_mk h rfl rfl rfl rfl rfl rfl rfl

theorem keeps_notePatrol : ∀ x0 x1 x2, Keeps b s0 (notePatrol x0 x1 x2 s) := by
  intros
  unfold notePatrol
  with_reducible repeat' first | assumption | apply keeps_sendDuty | apply keeps_setNote | apply keeps_eachS | intro _ | apply keeps_ite | rfl

theorem keeps_silencePanel : ∀ x0 x1, Keeps b s0 (silencePanel x0 x1 s) := by
  intros
  unfold silencePanel
  with_reducible repeat' first | assumption | apply keeps_refreshSound | apply keeps_panelMod

theorem keeps_ackNotice : ∀ x0 x1, Keeps b s0 (ackNotice x0 x1 s) := by
  intros
  exact keeps_panelMod h _ _ _

theorem keeps_onKey : ∀ x0 x1 x2, Keeps b s0 (onKey x0 x1 x2 s) := by
  intros
  unfold onKey
  with_reducible repeat' first | assumption | apply keeps_relayKey | apply keeps_notePatrol | apply keeps_ackNotice | apply keeps_ackItem | apply keeps_silencePanel | apply keeps_panelMod | apply keeps_whenS | intro _ | apply keeps_ite | refine keeps_mk (by assumption) rfl rfl rfl rfl rfl rfl rfl | rfl | split

theorem keeps_effKey : ∀ x0 x1 x2, Keeps b s0 (effKey x0 x1 x2 s) := by
  intros
  unfold effKey
  with_reducible repeat' first | assumption | apply keeps_pbReceived | apply keeps_bump | apply keeps_panelMod | apply keeps_onKey | intro _ | apply keeps_ite | refine keeps_mk (by assumption) rfl rfl rfl rfl rfl rfl rfl | rfl | split

theorem keeps_effPanelBeat : ∀ x0 x1 x2, Keeps b s0 (effPanelBeat x0 x1 x2 s) := by
  intros
  unfold effPanelBeat
  with_reducible repeat' first | assumption | apply keeps_pbReceived | apply keeps_bump | apply keeps_panelMod | apply keeps_pbMod | intro _ | apply keeps_ite | refine keeps_mk (by assumption) rfl rfl rfl rfl rfl rfl rfl | rfl | split

theorem keeps_effPageReq : ∀ x0 x1 x2 x3, Keeps b s0 (effPageReq x0 x1 x2 x3 s) := by
  intros
  unfold effPageReq
  with_reducible repeat' first | assumption | apply keeps_pbReceived | apply keeps_bump | apply keeps_sendPageTo | intro _ | apply keeps_ite | refine keeps_mk (by assumption) rfl rfl rfl rfl rfl rfl rfl | rfl | split

theorem keeps_effPanelLost : ∀ x0 x1, Keeps b s0 (effPanelLost x0 x1 s) := by
  intros
  unfold effPanelLost
  with_reducible repeat' first | assumption | apply keeps_blockRec | apply keeps_latch | apply keeps_pbMod | intro _ | apply keeps_ite | rfl

theorem keeps_effCanClash : ∀ x0 x1, Keeps b s0 (effCanClash x0 x1 s) := by
  intros
  unfold effCanClash
  with_reducible repeat' first | assumption | apply keeps_pbReceived | apply keeps_bump | apply keeps_pbMod | apply keeps_latch | apply keeps_blockRec | apply keeps_whenS | intro _ | apply keeps_ite | rfl

theorem keeps_beatPort : ∀ x0, Keeps b s0 (beatPort x0 s) := by
  intros
  unfold beatPort
  with_reducible repeat' first | assumption | apply keeps_sendPortState | apply keeps_nodeBeat | apply keeps_ite | rfl

theorem keeps_effNodeBeatSend : Keeps b s0 (effNodeBeatSend s) := by
  unfold effNodeBeatSend
  with_reducible repeat' first | assumption | apply keeps_beatPort

theorem keeps_effPanelRefresh : ∀ x0 x1 x2, Keeps b s0 (effPanelRefresh x0 x1 x2 s) := by
  intros
  unfold effPanelRefresh
  with_reducible repeat' first | assumption | apply keeps_sendCalls | apply keeps_sendLamps | apply keeps_sendPatrols | apply keeps_sendSound | apply keeps_sendPageTo | apply keeps_eachS | intro _ | apply keeps_ite | rfl

theorem keeps_effFifoAdmit : ∀ x0, Keeps b s0 (effFifoAdmit x0 s) := by
  intros
  unfold effFifoAdmit
  with_reducible repeat' first | assumption | apply keeps_admitOne | apply keeps_ite | rfl

theorem keeps_effCallFrameWithdraw : ∀ x0 x1 x2, Keeps b s0 (effCallFrameWithdraw x0 x1 x2 s) := by
  intros
  unfold effCallFrameWithdraw
  with_reducible repeat' first | assumption | apply keeps_pbMod | apply keeps_withdraw | intro _ | apply keeps_ite | refine keeps_mk (by assumption) rfl rfl rfl rfl rfl rfl rfl | rfl | apply keeps_foldl | apply keeps_ite2 | dsimp only | split

theorem keeps_noteTopCall : ∀ x0, Keeps b s0 (noteTopCall x0 s) := by
  intros
  unfold noteTopCall
  with_reducible repeat' first | assumption | apply keeps_sendDuty | intro _ | apply keeps_ite | refine keeps_mk (by assumption) rfl rfl rfl rfl rfl rfl rfl | rfl | split

theorem keeps_effCanTxComplete : ∀ x0 x1, Keeps b s0 (effCanTxComplete x0 x1 s) := by
  intros
  unfold effCanTxComplete
  with_reducible repeat' first | assumption | apply keeps_bump | apply keeps_pbMod | apply keeps_reportFrame | apply keeps_noteTopCall | apply keeps_whenS | intro _ | apply keeps_ite | refine keeps_mk (by assumption) rfl rfl rfl rfl rfl rfl rfl | rfl | split

theorem keeps_effArbitrationLost : ∀ x0 x1, Keeps b s0 (effArbitrationLost x0 x1 s) := by
  intros
  unfold effArbitrationLost
  with_reducible repeat' first | assumption | apply keeps_withdrawLate | apply keeps_stampHead | apply keeps_ite | rfl

theorem keeps_effCanErrorFrame : ∀ x0 x1 x2 x3, Keeps b s0 (effCanErrorFrame x0 x1 x2 x3 s) := by
  intros
  unfold effCanErrorFrame
  with_reducible repeat' first | assumption | apply keeps_pbCounts | apply keeps_bump | apply keeps_pbMod | apply keeps_withdrawLate | apply keeps_stampHead | intro _ | apply keeps_ite | rfl

theorem keeps_effBusOff : ∀ x0, Keeps b s0 (effBusOff x0 s) := by
  intros
  unfold effBusOff
  with_reducible repeat' first | assumption | apply keeps_pbMod | apply keeps_blockRec | apply keeps_bump | apply keeps_latch | apply keeps_flushPort | apply keeps_whenS | intro _ | apply keeps_ite | rfl

theorem keeps_effBusoffRecovered : ∀ x0, Keeps b s0 (effBusoffRecovered x0 s) := by
  intros
  unfold effBusoffRecovered
  with_reducible repeat' first | assumption | apply keeps_sendPortState | apply keeps_latch | apply keeps_pbMod | intro _ | apply keeps_ite | rfl

theorem keeps_effBusMonitoringExit : Keeps b s0 (effBusMonitoringExit s) := by
  unfold effBusMonitoringExit
  with_reducible repeat' first | assumption | apply keeps_sendPortState | apply keeps_pbMod | apply keeps_eachS | intro _ | apply keeps_ite | rfl

theorem keeps_noteCaller : ∀ x0 x1, Keeps b s0 (noteCaller x0 x1 s) := by
  intros
  exact keeps_mk h rfl rfl rfl rfl rfl rfl rfl

theorem keeps_showOn : ∀ x0 x1 x2 x3, Keeps b s0 (showOn x0 x1 x2 x3 s) := by
  intros
  unfold showOn
  with_reducible repeat' first | assumption | apply keeps_panelMod | apply keeps_refreshSound | apply keeps_pbOffer | apply keeps_sendDuty | apply keeps_setNote | apply keeps_whenS | intro _ | apply keeps_ite | refine keeps_mk (by assumption) rfl rfl rfl rfl rfl rfl rfl | rfl | split

theorem keeps_effCallCommand : ∀ x0 x1 x2, Keeps b s0 (effCallCommand x0 x1 x2 s) := by
  intros
  unfold effCallCommand
  with_reducible repeat' first | assumption | apply keeps_receive | apply keeps_noteCaller | apply keeps_showOn | apply keeps_ite | rfl

theorem keeps_storeLines : ∀ x0, Keeps b s0 (storeLines x0 s).2 := by
  intros
  unfold storeLines
  with_reducible repeat' first | assumption | intro _ | apply keeps_ite | (refine keeps_mk ?_ rfl rfl rfl rfl rfl rfl rfl; first | assumption | apply keeps_ite) | rfl | apply keeps_ite2 | apply keeps_ite3 | apply keeps_foldl | apply keeps_foldl2 | dsimp only | split | refine keeps_snd (by assumption) ?_ | refine keeps_thd (by assumption) ?_

theorem keeps_effPageContent : ∀ x0 x1, Keeps b s0 (effPageContent x0 x1 s) := by
  intros
  unfold effPageContent
  with_reducible repeat' first | assumption | apply keeps_receive | apply keeps_storeLines | apply keeps_sendPageTo | apply keeps_eachS | intro _ | apply keeps_ite | (refine keeps_mk ?_ rfl rfl rfl rfl rfl rfl rfl; first | assumption | apply keeps_receive | apply keeps_storeLines | apply keeps_sendPageTo | apply keeps_eachS | apply keeps_ite) | rfl | apply keeps_ite2 | apply keeps_ite3 | apply keeps_foldl | apply keeps_foldl2 | dsimp only | split | refine keeps_snd (by assumption) ?_ | refine keeps_thd (by assumption) ?_

theorem keeps_rosSet : ∀ x0 x1, Keeps b s0 (rosSet x0 x1 s) := by
  intros
  exact keeps_mk h rfl rfl rfl rfl rfl rfl rfl

theorem keeps_rosDel : ∀ x0, Keeps b s0 (rosDel x0 s) := by
  intros
  exact keeps_mk h rfl rfl rfl rfl rfl rfl rfl

theorem keeps_cmdPanel : ∀ x0 x1 x2, Keeps b s0 (cmdPanel x0 x1 x2 s) := by
  intros
  exact keeps_sendItem h _ _ _

theorem keeps_pushPanels : ∀ x0 x1 x2, Keeps b s0 (pushPanels x0 x1 x2 s) := by
  intros
  unfold pushPanels
  with_reducible repeat' first | assumption | apply keeps_cmdPanel | apply keeps_eachS | intro _ | apply keeps_ite | refine keeps_mk (by assumption) rfl rfl rfl rfl rfl rfl rfl | rfl | split

theorem keeps_sendState : ∀ x0 x1, Keeps b s0 (sendState x0 x1 s) := by
  intros
  unfold sendState
  with_reducible repeat' first | assumption | apply keeps_sendItem | apply keeps_eachS | intro _ | apply keeps_ite | refine keeps_mk (by assumption) rfl rfl rfl rfl rfl rfl rfl | rfl | apply keeps_foldl | apply keeps_ite2 | dsimp only | split

theorem keeps_callPut : ∀ x0 x1, Keeps b s0 (callPut x0 x1 s) := by
  intros
  unfold callPut
  with_reducible repeat' first | assumption | apply keeps_sendState | apply keeps_pushPanels | apply keeps_rosSet | intro _ | apply keeps_ite | refine keeps_mk (by assumption) rfl rfl rfl rfl rfl rfl rfl | rfl | split

theorem keeps_callEvent : ∀ x0 x1 x2 x3 x4 x5, Keeps b s0 (callEvent x0 x1 x2 x3 x4 x5 s) := by
  intros
  exact keeps_emit h _ _ _ _ _

theorem keeps_noteStage : ∀ x0, Keeps b s0 (noteStage x0 s) := by
  intros
  unfold noteStage
  with_reducible repeat' first | assumption | apply keeps_latch | apply keeps_bump | apply keeps_ite | rfl

omit h in
theorem keeps_addSource {b : Bool} {s0 : State} {x1 : CallState × State} (h : Keeps b s0 x1.2) : ∀ x0, Keeps b s0 (addSource x0 x1).2 := by
  intros
  unfold addSource
  with_reducible repeat' first | assumption | apply keeps_latch | apply keeps_bump | intro _ | apply keeps_ite | refine keeps_mk (by assumption) rfl rfl rfl rfl rfl rfl rfl | rfl | apply keeps_foldl | apply keeps_ite2 | dsimp only | split

theorem keeps_callStart : ∀ x0 x1 x2 x3 x4, Keeps b s0 (callStart x0 x1 x2 x3 x4 s) := by
  intros
  unfold callStart
  with_reducible repeat' first | assumption | apply keeps_addSource | apply keeps_rosSet | apply keeps_callEvent | apply keeps_callPut | apply keeps_noteStage | apply keeps_bump | intro _ | apply keeps_ite | (refine keeps_mk ?_ rfl rfl rfl rfl rfl rfl rfl; first | assumption | apply keeps_addSource | apply keeps_rosSet | apply keeps_callEvent | apply keeps_callPut | apply keeps_noteStage | apply keeps_bump | apply keeps_ite | apply keeps_foldl2) | rfl | apply keeps_ite2 | apply keeps_ite3 | apply keeps_foldl | apply keeps_foldl2 | dsimp only | split | refine keeps_snd (by assumption) ?_ | refine keeps_thd (by assumption) ?_

theorem keeps_callEnd : ∀ x0 x1, Keeps b s0 (callEnd x0 x1 s) := by
  intros
  unfold callEnd
  with_reducible repeat' first | assumption | apply keeps_callEvent | apply keeps_callPut | intro _ | apply keeps_ite | refine keeps_mk (by assumption) rfl rfl rfl rfl rfl rfl rfl | rfl | split

theorem keeps_callCheck : ∀ x0 x1, Keeps b s0 (callCheck x0 x1 s) := by
  intros
  unfold callCheck
  with_reducible repeat' first | assumption | apply keeps_callEnd | intro _ | apply keeps_ite | refine keeps_mk (by assumption) rfl rfl rfl rfl rfl rfl rfl | rfl | split

theorem keeps_onSource : ∀ x0 x1 x2 x3, Keeps b s0 (onSource x0 x1 x2 x3 s) := by
  intros
  unfold onSource
  with_reducible repeat' first | assumption | apply keeps_callStart | apply keeps_addSource | apply keeps_callPut | apply keeps_callEnd | apply keeps_callCheck | intro _ | apply keeps_ite | refine keeps_mk (by assumption) rfl rfl rfl rfl rfl rfl rfl | rfl | split

theorem keeps_onPoint : ∀ x0 x1, Keeps b s0 (onPoint x0 x1 s) := by
  intros
  unfold onPoint
  with_reducible repeat' first | assumption | apply keeps_rosSet | apply keeps_onSource | intro _ | apply keeps_ite | refine keeps_mk (by assumption) rfl rfl rfl rfl rfl rfl rfl | rfl | split

theorem keeps_effAlarmEvent : ∀ x0 x1 x2, Keeps b s0 (effAlarmEvent x0 x1 x2 s) := by
  intros
  unfold effAlarmEvent
  with_reducible repeat' first | assumption | apply keeps_receive | apply keeps_accOnEvents | apply keeps_onPoint | apply keeps_eachS | intro _ | apply keeps_ite | refine keeps_mk (by assumption) rfl rfl rfl rfl rfl rfl rfl | rfl | split

theorem keeps_effMemberReport : ∀ x0 x1, Keeps b s0 (effMemberReport x0 x1 s) := by
  intros
  unfold effMemberReport
  with_reducible repeat' first | assumption | apply keeps_receive | apply keeps_onPoint | apply keeps_accOnReport | apply keeps_eachS | intro _ | apply keeps_ite | refine keeps_mk (by assumption) rfl rfl rfl rfl rfl rfl rfl | rfl | split

theorem keeps_sendSummary : ∀ x0 x1, Keeps b s0 (sendSummary x0 x1 s) := by
  intros
  unfold sendSummary
  with_reducible repeat' first | assumption | apply keeps_sendItem | intro _ | apply keeps_ite | refine keeps_mk (by assumption) rfl rfl rfl rfl rfl rfl rfl | rfl | split

theorem keeps_effSummaryOutputPeriod : Keeps b s0 (effSummaryOutputPeriod s) := by
  unfold effSummaryOutputPeriod
  with_reducible repeat' first | assumption | apply keeps_sendSummary | apply keeps_eachS | intro _ | apply keeps_ite | rfl

theorem keeps_onAccord : ∀ x0 x1, Keeps b s0 (onAccord x0 x1 s) := by
  intros
  unfold onAccord
  with_reducible repeat' first | assumption | apply keeps_rosSet | apply keeps_sendSummary | apply keeps_onSource | apply keeps_whenS | intro _ | apply keeps_ite | refine keeps_mk (by assumption) rfl rfl rfl rfl rfl rfl rfl | rfl | split

theorem keeps_renderAccord : ∀ x0, Keeps b s0 (renderAccord x0 s) := by
  intros
  unfold renderAccord
  with_reducible repeat' first | assumption | apply keeps_ite | refine keeps_mk (by assumption) rfl rfl rfl rfl rfl rfl rfl | rfl

theorem keeps_effAccordEvent : ∀ x0 x1 x2, Keeps b s0 (effAccordEvent x0 x1 x2 s) := by
  intros
  unfold effAccordEvent
  with_reducible repeat' first | assumption | apply keeps_receive | apply keeps_onAccord | apply keeps_renderAccord | apply keeps_eachS | intro _ | apply keeps_ite | rfl

theorem keeps_setDuty : ∀ x0 x1 x2, Keeps b s0 (setDuty x0 x1 x2 s) := by
  intros
  unfold setDuty
  with_reducible repeat' first | assumption | apply keeps_callPut | intro _ | apply keeps_ite | refine keeps_mk (by assumption) rfl rfl rfl rfl rfl rfl rfl | rfl | split

theorem keeps_onDuty : ∀ x0 x1 x2, Keeps b s0 (onDuty x0 x1 x2 s) := by
  intros
  unfold onDuty
  with_reducible repeat' first | assumption | apply keeps_callEvent | apply keeps_setDuty | intro _ | apply keeps_ite | refine keeps_mk (by assumption) rfl rfl rfl rfl rfl rfl rfl | rfl | apply keeps_foldl | apply keeps_ite2 | dsimp only | split

theorem keeps_patrolReset : ∀ x0 x1 x2, Keeps b s0 (patrolReset x0 x1 x2 s) := by
  intros
  unfold patrolReset
  with_reducible repeat' first | assumption | apply keeps_callCheck | apply keeps_callEvent | apply keeps_callPut | intro _ | apply keeps_ite | refine keeps_mk (by assumption) rfl rfl rfl rfl rfl rfl rfl | rfl | split

theorem keeps_patrolEnd : ∀ x0 x1 x2, Keeps b s0 (patrolEnd x0 x1 x2 s) := by
  intros
  unfold patrolEnd
  with_reducible repeat' first | assumption | apply keeps_callCheck | apply keeps_callEvent | apply keeps_callPut | intro _ | apply keeps_ite | refine keeps_mk (by assumption) rfl rfl rfl rfl rfl rfl rfl | rfl | split

theorem keeps_callAnswer : ∀ x0 x1, Keeps b s0 (callAnswer x0 x1 s) := by
  intros
  unfold callAnswer
  with_reducible repeat' first | assumption | apply keeps_callEvent | apply keeps_callPut | intro _ | apply keeps_ite | refine keeps_mk (by assumption) rfl rfl rfl rfl rfl rfl rfl | rfl | split

theorem keeps_noteSilence : ∀ x0 x1, Keeps b s0 (noteSilence x0 x1 s) := by
  intros
  unfold noteSilence
  with_reducible repeat' first | assumption | apply keeps_callPut | intro _ | apply keeps_ite | refine keeps_mk (by assumption) rfl rfl rfl rfl rfl rfl rfl | rfl | split

theorem keeps_rosterKey : ∀ x0 x1 x2 x3, Keeps b s0 (rosterKey x0 x1 x2 x3 s) := by
  intros
  unfold rosterKey
  with_reducible repeat' first | assumption | apply keeps_callAnswer | apply keeps_onDuty | apply keeps_noteSilence | apply keeps_patrolEnd | apply keeps_patrolReset | intro _ | apply keeps_ite | refine keeps_mk (by assumption) rfl rfl rfl rfl rfl rfl rfl | rfl | split

theorem keeps_effKeyRelay : ∀ x0 x1 x2, Keeps b s0 (effKeyRelay x0 x1 x2 s) := by
  intros
  unfold effKeyRelay
  with_reducible repeat' first | assumption | apply keeps_receive | apply keeps_groupAck | apply keeps_rosterKey | apply keeps_whenS | apply keeps_eachS | intro _ | apply keeps_ite | refine keeps_mk (by assumption) rfl rfl rfl rfl rfl rfl rfl | rfl | split

theorem keeps_effPatrolWarn : ∀ x0, Keeps b s0 (effPatrolWarn x0 s) := by
  intros
  unfold effPatrolWarn
  with_reducible repeat' first | assumption | apply keeps_callEvent | apply keeps_callPut | intro _ | apply keeps_ite | refine keeps_mk (by assumption) rfl rfl rfl rfl rfl rfl rfl | rfl | split

theorem keeps_effPatrolCall : ∀ x0, Keeps b s0 (effPatrolCall x0 s) := by
  intros
  unfold effPatrolCall
  with_reducible repeat' first | assumption | apply keeps_onSource | apply keeps_callEvent | apply keeps_callPut | apply keeps_latch | intro _ | apply keeps_ite | refine keeps_mk (by assumption) rfl rfl rfl rfl rfl rfl rfl | rfl | split

theorem keeps_nextStage : ∀ x0, Keeps b s0 (nextStage x0 s) := by
  intros
  unfold nextStage
  with_reducible repeat' first | assumption | apply keeps_callEvent | apply keeps_callPut | apply keeps_noteStage | apply keeps_rosSet | intro _ | apply keeps_ite | refine keeps_mk (by assumption) rfl rfl rfl rfl rfl rfl rfl | rfl | split

theorem keeps_effStageTimeout : ∀ x0, Keeps b s0 (effStageTimeout x0 s) := by
  intros
  unfold effStageTimeout
  with_reducible repeat' first | assumption | apply keeps_nextStage | intro _ | apply keeps_ite | refine keeps_mk (by assumption) rfl rfl rfl rfl rfl rfl rfl | rfl | split

theorem keeps_effDeliveryReport : ∀ x0 x1, Keeps b s0 (effDeliveryReport x0 x1 s) := by
  intros
  unfold effDeliveryReport
  with_reducible repeat' first | assumption | apply keeps_receive | apply keeps_callEvent | apply keeps_latch | apply keeps_bump | apply keeps_rosSet | apply keeps_whenS | intro _ | apply keeps_ite | refine keeps_mk (by assumption) rfl rfl rfl rfl rfl rfl rfl | rfl | split

theorem keeps_takePatrol : ∀ x0 x1, Keeps b s0 (takePatrol x0 x1 s) := by
  intros
  unfold takePatrol
  with_reducible repeat' first | assumption | apply keeps_patrolReset | intro _ | apply keeps_ite | refine keeps_mk (by assumption) rfl rfl rfl rfl rfl rfl rfl | rfl | split

theorem keeps_onDutyReport : ∀ x0 x1, Keeps b s0 (onDutyReport x0 x1 s) := by
  intros
  unfold onDutyReport
  with_reducible repeat' first | assumption | apply keeps_setDuty | apply keeps_callEvent | apply keeps_callPut | apply keeps_takePatrol | apply keeps_eachS | intro _ | apply keeps_ite | refine keeps_mk (by assumption) rfl rfl rfl rfl rfl rfl rfl | rfl | apply keeps_foldl | apply keeps_ite2 | dsimp only | split

theorem keeps_stepDown : ∀ x0 x1 x2 x3, Keeps b s0 (stepDown x0 x1 x2 x3 s) := by
  intros
  unfold stepDown
  with_reducible repeat' first | assumption | apply keeps_latch | apply keeps_bump | apply keeps_sendState | apply keeps_pushPanels | apply keeps_rosSet | apply keeps_ite | rfl

theorem keeps_effItemState : ∀ x0 x1, Keeps b s0 (effItemState x0 x1 s) := by
  intros
  unfold effItemState
  with_reducible repeat' first | assumption | apply keeps_receive | apply keeps_onDutyReport | apply keeps_rosSet | apply keeps_stepDown | intro _ | apply keeps_ite | refine keeps_mk (by assumption) rfl rfl rfl rfl rfl rfl rfl | rfl | apply keeps_foldl | apply keeps_ite2 | dsimp only | split

theorem keeps_effItemStateSend : Keeps b s0 (effItemStateSend s) := by
  unfold effItemStateSend
  with_reducible repeat' first | assumption | apply keeps_sendState | apply keeps_eachS | intro _ | apply keeps_ite | rfl

theorem keeps_effCallManagerRebuild : ∀ x0, Keeps b s0 (effCallManagerRebuild x0 s) := by
  intros
  unfold effCallManagerRebuild
  with_reducible repeat' first | assumption | apply keeps_pushPanels | apply keeps_rosSet | apply keeps_latch | apply keeps_callStart | apply keeps_sendSummary | apply keeps_sendState | apply keeps_eachS | intro _ | apply keeps_ite | refine keeps_mk (by assumption) rfl rfl rfl rfl rfl rfl rfl | rfl | split

theorem keeps_rosStart : ∀ x0, Keeps b s0 (rosStart x0 s) := by
  intros
  unfold rosStart
  with_reducible repeat' first | assumption | apply keeps_rosSet | intro _ | apply keeps_ite | refine keeps_mk (by assumption) rfl rfl rfl rfl rfl rfl rfl | rfl | split

theorem keeps_rosPromote : ∀ x0 x1, Keeps b s0 (rosPromote x0 x1 s) := by
  intros
  unfold rosPromote
  with_reducible repeat' first | assumption | apply keeps_rosSet | apply keeps_rosStart | intro _ | apply keeps_ite | refine keeps_mk (by assumption) rfl rfl rfl rfl rfl rfl rfl | rfl | split

theorem keeps_rosStepDown : ∀ x0, Keeps b s0 (rosStepDown x0 s) := by
  intros
  exact keeps_sendState h _ _

theorem keeps_itemMod : ∀ x0 x1, Keeps b s0 (itemMod x0 x1 s) := by
  intros
  exact keeps_mk h rfl rfl rfl rfl rfl rfl rfl

theorem keeps_newVersion : Keeps b s0 (newVersion s) := by
  exact keeps_mk h rfl rfl rfl rfl rfl rfl rfl

theorem keeps_relayCat : ∀ x0, Keeps b s0 (relayCat x0 s) := by
  intros
  unfold relayCat
  with_reducible repeat' first | assumption | apply keeps_enqueue | apply keeps_eachS | intro _ | apply keeps_ite | refine keeps_mk (by assumption) rfl rfl rfl rfl rfl rfl rfl | rfl | split

theorem keeps_floodCat : ∀ x0, Keeps b s0 (floodCat x0 s) := by
  intros
  unfold floodCat
  with_reducible repeat' first | assumption | apply keeps_sendFlood | apply keeps_eachS | intro _ | apply keeps_ite | rfl

theorem keeps_candUpdate : ∀ x0 x1, Keeps b s0 (candUpdate x0 x1 s) := by
  intros
  exact keeps_mk h rfl rfl rfl rfl rfl rfl rfl

theorem keeps_acceptCat : ∀ x0, Keeps b s0 (acceptCat x0 s) := by
  intros
  unfold acceptCat
  with_reducible repeat' first | assumption | apply keeps_latch | apply keeps_bump | apply keeps_candUpdate | apply keeps_eachS | intro _ | apply keeps_ite | refine keeps_mk (by assumption) rfl rfl rfl rfl rfl rfl rfl | rfl

theorem keeps_acceptOwn : Keeps b s0 (acceptOwn s) := by
  unfold acceptOwn
  with_reducible repeat' first | assumption | apply keeps_acceptCat | apply keeps_ite | rfl

theorem keeps_publishCat : Keeps b s0 (publishCat s) := by
  unfold publishCat
  with_reducible repeat' first | assumption | apply keeps_relayCat | apply keeps_floodCat | apply keeps_acceptOwn | apply keeps_ite | rfl

theorem keeps_hearAgain : ∀ x0, Keeps b s0 (hearAgain x0 s) := by
  intros
  exact keeps_mk h rfl rfl rfl rfl rfl rfl rfl

theorem keeps_takeCatFrame : ∀ x0 x1, Keeps b s0 (takeCatFrame x0 x1 s).2 := by
  intros
  unfold takeCatFrame
  with_reducible repeat' first | assumption | apply keeps_hearAgain | apply keeps_acceptCat | intro _ | apply keeps_ite | refine keeps_mk (by assumption) rfl rfl rfl rfl rfl rfl rfl | rfl | apply keeps_foldl | apply keeps_ite2 | dsimp only | split

theorem keeps_effCatalogue : ∀ x0 x1, Keeps b s0 (effCatalogue x0 x1 s) := by
  intros
  unfold effCatalogue
  with_reducible repeat' first | assumption | apply keeps_receive | apply keeps_takeCatFrame | apply keeps_relayCat | intro _ | apply keeps_ite | (refine keeps_mk ?_ rfl rfl rfl rfl rfl rfl rfl; first | assumption | apply keeps_receive | apply keeps_takeCatFrame | apply keeps_relayCat | apply keeps_ite) | rfl | apply keeps_ite2 | apply keeps_ite3 | apply keeps_foldl | apply keeps_foldl2 | dsimp only | split | refine keeps_snd (by assumption) ?_ | refine keeps_thd (by assumption) ?_

theorem keeps_effCatalogueRelay : ∀ x0 x1, Keeps b s0 (effCatalogueRelay x0 x1 s) := by
  intros
  unfold effCatalogueRelay
  with_reducible repeat' first | assumption | apply keeps_receive | apply keeps_takeCatFrame | apply keeps_relayCat | apply keeps_floodCat | intro _ | apply keeps_ite | (refine keeps_mk ?_ rfl rfl rfl rfl rfl rfl rfl; first | assumption | apply keeps_receive | apply keeps_takeCatFrame | apply keeps_relayCat | apply keeps_floodCat | apply keeps_ite) | rfl | apply keeps_ite2 | apply keeps_ite3 | apply keeps_foldl | apply keeps_foldl2 | dsimp only | split | refine keeps_snd (by assumption) ?_ | refine keeps_thd (by assumption) ?_

theorem keeps_effCatalogueRequest : ∀ x0 x1, Keeps b s0 (effCatalogueRequest x0 x1 s) := by
  intros
  unfold effCatalogueRequest
  with_reducible repeat' first | assumption | apply keeps_receive | apply keeps_sendUni | apply keeps_eachS | intro _ | apply keeps_ite | rfl

theorem keeps_effNodeState : ∀ x0 x1, Keeps b s0 (effNodeState x0 x1 s) := by
  intros
  unfold effNodeState
  with_reducible repeat' first | assumption | apply keeps_receive | apply keeps_sendUni | intro _ | apply keeps_ite | (refine keeps_mk ?_ rfl rfl rfl rfl rfl rfl rfl; first | assumption | apply keeps_receive | apply keeps_sendUni | apply keeps_ite) | rfl | apply keeps_ite2 | apply keeps_ite3 | apply keeps_foldl | apply keeps_foldl2 | dsimp only | split | refine keeps_snd (by assumption) ?_ | refine keeps_thd (by assumption) ?_

theorem keeps_effCandidateHealthy : ∀ x0, Keeps b s0 (effCandidateHealthy x0 s) := by
  intros
  unfold effCandidateHealthy
  with_reducible repeat' first | assumption | apply keeps_itemMod | intro _ | apply keeps_ite | refine keeps_mk (by assumption) rfl rfl rfl rfl rfl rfl rfl | rfl | split

theorem keeps_setExpired : ∀ x0, Keeps b s0 (setExpired x0 s) := by
  intros
  exact keeps_mk h rfl rfl rfl rfl rfl rfl rfl

theorem keeps_effCandidateExpiry : ∀ x0, Keeps b s0 (effCandidateExpiry x0 s) := by
  intros
  unfold effCandidateExpiry
  with_reducible repeat' first | assumption | apply keeps_candUpdate | apply keeps_setExpired | apply keeps_eachS | intro _ | apply keeps_ite | rfl

theorem keeps_refuseRest : Keeps b s0 (refuseRest s) := by
  unfold refuseRest
  with_reducible repeat' first | assumption | apply keeps_bump | apply keeps_itemMod | apply keeps_publishCat | apply keeps_newVersion | apply keeps_latch | apply keeps_eachS | intro _ | apply keeps_ite | rfl

theorem keeps_itemStart : ∀ x0, Keeps b s0 (itemStart x0 s) := by
  intros
  unfold itemStart
  with_reducible repeat' first | assumption | apply keeps_accStart | apply keeps_rosStart | intro _ | apply keeps_ite | refine keeps_mk (by assumption) rfl rfl rfl rfl rfl rfl rfl | rfl | split

theorem keeps_itemStop : ∀ x0, Keeps b s0 (itemStop x0 s) := by
  intros
  unfold itemStop
  with_reducible repeat' first | assumption | apply keeps_accDel | apply keeps_rosDel | intro _ | apply keeps_ite | refine keeps_mk (by assumption) rfl rfl rfl rfl rfl rfl rfl | rfl | split

theorem keeps_roleChange : ∀ x0 x1 x2 x3, Keeps b s0 (roleChange x0 x1 x2 x3 s) := by
  intros
  unfold roleChange
  with_reducible repeat' first | assumption | apply keeps_itemStart | apply keeps_rosPromote | apply keeps_itemStop | apply keeps_rosStepDown | intro _ | apply keeps_ite | refine keeps_mk (by assumption) rfl rfl rfl rfl rfl rfl rfl | rfl | split

theorem keeps_placeItem : ∀ x0, Keeps b s0 (placeItem x0 s) := by
  intros
  unfold placeItem
  with_reducible repeat' first | assumption | apply keeps_latch | apply keeps_itemMod | apply keeps_roleChange | apply keeps_bump | apply keeps_whenS | intro _ | apply keeps_ite | rfl

theorem keeps_forgetItem : ∀ x0, Keeps b s0 (forgetItem x0 s) := by
  intros
  unfold forgetItem
  with_reducible repeat' first | assumption | apply keeps_itemStop | apply keeps_itemMod | intro _ | apply keeps_ite | (refine keeps_mk ?_ rfl rfl rfl rfl rfl rfl rfl; first | assumption | apply keeps_itemStop | apply keeps_itemMod | apply keeps_ite) | rfl | apply keeps_ite2 | apply keeps_ite3 | apply keeps_foldl | apply keeps_foldl2 | dsimp only | split | refine keeps_snd (by assumption) ?_ | refine keeps_thd (by assumption) ?_

theorem keeps_effPlacementRecompute : Keeps b s0 (effPlacementRecompute s) := by
  unfold effPlacementRecompute
  with_reducible repeat' first | assumption | apply keeps_acceptOwn | apply keeps_setExpired | apply keeps_bump | apply keeps_forgetItem | apply keeps_itemMod | apply keeps_refuseRest | apply keeps_placeItem | apply keeps_eachS | intro _ | apply keeps_ite | rfl

theorem keeps_effRefusalWithdraw : Keeps b s0 (effRefusalWithdraw s) := by
  unfold effRefusalWithdraw
  with_reducible repeat' first | assumption | apply keeps_publishCat | apply keeps_newVersion | apply keeps_itemMod | intro _ | apply keeps_ite | refine keeps_mk (by assumption) rfl rfl rfl rfl rfl rfl rfl | rfl | apply keeps_foldl | apply keeps_ite2 | dsimp only | split

theorem keeps_effItemStarved : ∀ x0, Keeps b s0 (effItemStarved x0 s) := by
  intros
  unfold effItemStarved
  with_reducible repeat' first | assumption | apply keeps_itemMod | apply keeps_blockRec | apply keeps_latch | apply keeps_bump | intro _ | apply keeps_ite | rfl

theorem keeps_effTrendSend : Keeps b s0 (effTrendSend s) := by
  unfold effTrendSend
  with_reducible repeat' first | assumption | apply keeps_sendItem | apply keeps_ite | refine keeps_mk (by assumption) rfl rfl rfl rfl rfl rfl rfl | rfl

theorem keeps_effTrend : ∀ x0 x1, Keeps b s0 (effTrend x0 x1 s) := by
  intros
  unfold effTrend
  with_reducible repeat' first | assumption | apply keeps_receive | intro _ | apply keeps_ite | (refine keeps_mk ?_ rfl rfl rfl rfl rfl rfl rfl; first | assumption | apply keeps_receive | apply keeps_ite) | rfl | apply keeps_ite2 | apply keeps_ite3 | apply keeps_foldl | apply keeps_foldl2 | dsimp only | split | refine keeps_snd (by assumption) ?_ | refine keeps_thd (by assumption) ?_

theorem keeps_effPlaceCalcWrite : ∀ x0 x1, Keeps b s0 (effPlaceCalcWrite x0 x1 s) := by
  intros
  unfold effPlaceCalcWrite
  with_reducible repeat' first | assumption | intro _ | apply keeps_ite | refine keeps_mk (by assumption) rfl rfl rfl rfl rfl rfl rfl | rfl | apply keeps_foldl | apply keeps_ite2 | dsimp only | split

theorem keeps_placeBegin : Keeps b s0 (placeBegin s) := by
  unfold placeBegin
  with_reducible repeat' first | assumption | apply keeps_publishCat | apply keeps_newVersion | apply keeps_ite | refine keeps_mk (by assumption) rfl rfl rfl rfl rfl rfl rfl | rfl

theorem keeps_placeEnd : Keeps b s0 (placeEnd s) := by
  unfold placeEnd
  with_reducible repeat' first | assumption | apply keeps_itemStop | apply keeps_eachS | intro _ | apply keeps_ite | (refine keeps_mk ?_ rfl rfl rfl rfl rfl rfl rfl; first | assumption | apply keeps_itemStop | apply keeps_eachS | apply keeps_ite) | rfl | apply keeps_ite2 | apply keeps_ite3 | apply keeps_foldl | apply keeps_foldl2 | dsimp only | split | refine keeps_snd (by assumption) ?_ | refine keeps_thd (by assumption) ?_

end Sys2Proof.Laws
end

