-- ==== Sys2Proof/Laws/KeepsIo.lean ====
section
/-! SUPPORT. Laws/KeepsIo.lean: what each operation keeps: the field inputs and outputs and the pair. -/
namespace Sys2Proof.Laws

open Sys2Proof.Machine

variable {b : Bool} {s0 s : State} (h : Keeps b s0 s)
include h

theorem keeps_endGap : ∀ x0, Keeps b s0 (endGap x0 s) := by
  intros
  exact keeps_mk h rfl rfl rfl rfl rfl rfl rfl

theorem keeps_chanMod : ∀ x0 x1, Keeps b s0 (chanMod x0 x1 s) := by
  intros
  exact keeps_mk h rfl rfl rfl rfl rfl rfl rfl

theorem keeps_blkMod : ∀ x0 x1, Keeps b s0 (blkMod x0 x1 s) := by
  intros
  exact keeps_mk h rfl rfl rfl rfl rfl rfl rfl

theorem keeps_notePublish : ∀ x0 x1 x2, Keeps b s0 (notePublish x0 x1 x2 s) := by
  intros
  unfold notePublish
  with_reducible repeat' first | assumption | apply keeps_bump | apply keeps_chanMod | apply keeps_whenS | intro _ | apply keeps_ite | rfl

theorem keeps_noteGone : ∀ x0 x1, Keeps b s0 (noteGone x0 x1 s) := by
  intros
  exact keeps_chanMod h _ _

theorem keeps_publishQuality : ∀ x0, Keeps b s0 (publishQuality x0 s) := by
  intros
  unfold publishQuality
  with_reducible repeat' first | assumption | apply keeps_noteGone | apply keeps_notePublish | apply keeps_writeQuality | apply keeps_whenS | intro _ | apply keeps_ite | rfl

theorem keeps_refreshQuality : ∀ x0, Keeps b s0 (refreshQuality x0 s) := by
  intros
  unfold refreshQuality
  with_reducible repeat' first | assumption | apply keeps_publishQuality | apply keeps_whenS | intro _ | apply keeps_ite | rfl

theorem keeps_refreshRemotes : Keeps b s0 (refreshRemotes s) := by
  unfold refreshRemotes
  with_reducible repeat' first | assumption | apply keeps_refreshQuality | apply keeps_whenS | apply keeps_eachS | intro _ | apply keeps_ite | rfl

theorem keeps_restartChan : ∀ x0, Keeps b s0 (restartChan x0 s) := by
  intros
  unfold restartChan
  with_reducible repeat' first | assumption | apply keeps_latch | apply keeps_chanMod | apply keeps_publishQuality | apply keeps_refreshQuality | apply keeps_whenS | intro _ | apply keeps_ite | rfl

theorem keeps_restartAwait : ∀ x0, Keeps b s0 (restartAwait x0 s) := by
  intros
  unfold restartAwait
  with_reducible repeat' first | assumption | apply keeps_restartChan | apply keeps_chanMod

theorem keeps_afterCauses : ∀ x0 x1, Keeps b s0 (afterCauses x0 x1 s) := by
  intros
  unfold afterCauses
  with_reducible repeat' first | assumption | apply keeps_restartAwait | apply keeps_restartChan | apply keeps_refreshQuality | apply keeps_ite | rfl

theorem keeps_stopChan : ∀ x0, Keeps b s0 (stopChan x0 s) := by
  intros
  unfold stopChan
  with_reducible repeat' first | assumption | apply keeps_refreshQuality | apply keeps_chanMod

theorem keeps_refreshAll : Keeps b s0 (refreshAll s) := by
  unfold refreshAll
  with_reducible repeat' first | assumption | apply keeps_refreshQuality | apply keeps_eachS | intro _ | apply keeps_ite | rfl

theorem keeps_refreshTrack : ∀ x0, Keeps b s0 (refreshTrack x0 s) := by
  intros
  unfold refreshTrack
  with_reducible repeat' first | assumption | apply keeps_latch | apply keeps_chanMod | apply keeps_whenS | intro _ | apply keeps_ite | rfl

theorem keeps_refreshTracks : Keeps b s0 (refreshTracks s) := by
  unfold refreshTracks
  with_reducible repeat' first | assumption | apply keeps_refreshTrack | apply keeps_eachS | intro _ | apply keeps_ite | rfl

theorem keeps_chanRec : ∀ x0 x1, Keeps b s0 (chanRec x0 x1 s) := by
  intros
  exact keeps_blockRec h _ _ _ _

theorem keeps_chanUndef : ∀ x0, Keeps b s0 (chanUndef x0 s) := by
  intros
  exact keeps_undef h _

theorem keeps_arMod : ∀ x0 x1, Keeps b s0 (arMod x0 x1 s) := by
  intros
  exact keeps_mk h rfl rfl rfl rfl rfl rfl rfl

theorem keeps_diMod : ∀ x0 x1, Keeps b s0 (diMod x0 x1 s) := by
  intros
  exact keeps_mk h rfl rfl rfl rfl rfl rfl rfl

theorem keeps_doMod : ∀ x0 x1, Keeps b s0 (doMod x0 x1 s) := by
  intros
  exact keeps_mk h rfl rfl rfl rfl rfl rfl rfl

theorem keeps_arUpdate : ∀ x0, Keeps b s0 (arUpdate x0 s) := by
  intros
  unfold arUpdate
  with_reducible repeat' first | assumption | apply keeps_drawn | apply keeps_latch | apply keeps_bump | apply keeps_arMod | apply keeps_whenS | intro _ | apply keeps_ite | rfl

theorem keeps_arUpdateAll : Keeps b s0 (arUpdateAll s) := by
  unfold arUpdateAll
  with_reducible repeat' first | assumption | apply keeps_arUpdate | apply keeps_eachS | intro _ | apply keeps_ite | rfl

theorem keeps_supplyMod : ∀ x0 x1, Keeps b s0 (supplyMod x0 x1 s) := by
  intros
  unfold supplyMod
  with_reducible repeat' first | assumption | intro _ | apply keeps_ite | refine keeps_mk (by assumption) rfl rfl rfl rfl rfl rfl rfl | rfl | split

theorem keeps_doRefresh : ∀ x0, Keeps b s0 (doRefresh x0 s) := by
  intros
  unfold doRefresh
  with_reducible repeat' first | assumption | apply keeps_useFail | apply keeps_doMod | apply keeps_whenS | intro _ | apply keeps_ite | rfl

theorem keeps_doRefreshAll : Keeps b s0 (doRefreshAll s) := by
  unfold doRefreshAll
  with_reducible repeat' first | assumption | apply keeps_doRefresh | apply keeps_eachS | intro _ | apply keeps_ite | rfl

theorem keeps_fixFreeze : ∀ x0 x1, Keeps b s0 (fixFreeze x0 x1 s) := by
  intros
  unfold fixFreeze
  with_reducible repeat' first | assumption | apply keeps_useFail | apply keeps_doMod | apply keeps_whenS | intro _ | apply keeps_ite | rfl

theorem keeps_freezeAll : Keeps b s0 (freezeAll s) := by
  unfold freezeAll
  with_reducible repeat' first | assumption | apply keeps_fixFreeze | apply keeps_eachS | intro _ | apply keeps_ite | rfl

theorem keeps_fixRelease : ∀ x0, Keeps b s0 (fixRelease x0 s) := by
  intros
  unfold fixRelease
  with_reducible repeat' first | assumption | apply keeps_doRefresh | apply keeps_doMod

theorem keeps_fixTrack : ∀ x0, Keeps b s0 (fixTrack x0 s) := by
  intros
  unfold fixTrack
  with_reducible repeat' first | assumption | apply keeps_doRefresh | apply keeps_doMod | intro _ | apply keeps_ite | rfl

theorem keeps_fixTakeUp : ∀ x0, Keeps b s0 (fixTakeUp x0 s) := by
  intros
  unfold fixTakeUp
  with_reducible repeat' first | assumption | apply keeps_doRefresh | apply keeps_doMod | intro _ | apply keeps_ite | rfl

theorem keeps_arMeasure : ∀ x0 x1 x2, Keeps b s0 (arMeasure x0 x1 x2 s) := by
  intros
  unfold arMeasure
  with_reducible repeat' first | assumption | apply keeps_latch | apply keeps_arMod | apply keeps_whenS | intro _ | apply keeps_ite | rfl

theorem keeps_effRepeatOutputTick : ∀ x0, Keeps b s0 (effRepeatOutputTick x0 s) := by
  intros
  unfold effRepeatOutputTick
  with_reducible repeat' first | assumption | apply keeps_arUpdate | apply keeps_arMeasure | apply keeps_eachS | intro _ | apply keeps_ite | rfl

theorem keeps_diOne : ∀ x0 x1 x2, Keeps b s0 (diOne x0 x1 x2 s) := by
  intros
  unfold diOne
  with_reducible repeat' first | assumption | apply keeps_drawn | apply keeps_diMod | apply keeps_bump | apply keeps_latch | apply keeps_endGap | apply keeps_writeSample | apply keeps_whenS | intro _ | apply keeps_ite | rfl

theorem keeps_doReadBack : ∀ x0 x1 x2, Keeps b s0 (doReadBack x0 x1 x2 s) := by
  intros
  unfold doReadBack
  with_reducible repeat' first | assumption | apply keeps_doMod | apply keeps_endGap | apply keeps_writeSample

theorem keeps_doCompare : ∀ x0 x1, Keeps b s0 (doCompare x0 x1 s) := by
  intros
  exact keeps_mk h rfl rfl rfl rfl rfl rfl rfl

theorem keeps_effDiSample : ∀ x0 x1, Keeps b s0 (effDiSample x0 x1 s) := by
  intros
  unfold effDiSample
  with_reducible repeat' first | assumption | apply keeps_diOne | apply keeps_refreshRemotes | apply keeps_doCompare | apply keeps_doReadBack | apply keeps_eachS | intro _ | apply keeps_ite | rfl

theorem keeps_effDiCfgWrite : ∀ x0 x1, Keeps b s0 (effDiCfgWrite x0 x1 s) := by
  intros
  unfold effDiCfgWrite
  with_reducible repeat' first | assumption | apply keeps_ownedWrite | apply keeps_undef | apply keeps_regSet | apply keeps_whenS | intro _ | apply keeps_ite | rfl

theorem keeps_effDoCurrentLimit : ∀ x0 x1, Keeps b s0 (effDoCurrentLimit x0 x1 s) := by
  intros
  unfold effDoCurrentLimit
  with_reducible repeat' first | assumption | apply keeps_latch | apply keeps_bump | apply keeps_doMod | intro _ | apply keeps_ite | rfl

theorem keeps_effDoTsd : ∀ x0, Keeps b s0 (effDoTsd x0 s) := by
  intros
  unfold effDoTsd
  with_reducible repeat' first | assumption | apply keeps_doRefresh | apply keeps_latch | apply keeps_bump | apply keeps_doMod | intro _ | apply keeps_ite | rfl

theorem keeps_effDoTsdCooled : ∀ x0, Keeps b s0 (effDoTsdCooled x0 s) := by
  intros
  unfold effDoTsdCooled
  with_reducible repeat' first | assumption | apply keeps_doRefresh | apply keeps_doMod

theorem keeps_effDoTsdLatchRelease : ∀ x0, Keeps b s0 (effDoTsdLatchRelease x0 s) := by
  intros
  unfold effDoTsdLatchRelease
  with_reducible repeat' first | assumption | apply keeps_doRefresh | apply keeps_doMod | intro _ | apply keeps_ite | rfl

theorem keeps_effDoStale : ∀ x0, Keeps b s0 (effDoStale x0 s) := by
  intros
  unfold effDoStale
  with_reducible repeat' first | assumption | apply keeps_doRefresh | apply keeps_latch | apply keeps_doMod | apply keeps_useFail | intro _ | apply keeps_ite | rfl

theorem keeps_commandOutput : ∀ x0 x1, Keeps b s0 (commandOutput x0 x1 s) := by
  intros
  unfold commandOutput
  with_reducible repeat' first | assumption | apply keeps_doRefresh | apply keeps_doMod

theorem keeps_effOutputCommand : ∀ x0 x1 x2, Keeps b s0 (effOutputCommand x0 x1 x2 s) := by
  intros
  unfold effOutputCommand
  with_reducible repeat' first | assumption | apply keeps_receive | apply keeps_commandOutput | apply keeps_ite | rfl

theorem keeps_effDoDiagnosticFilter : ∀ x0 x1 x2, Keeps b s0 (effDoDiagnosticFilter x0 x1 x2 s) := by
  intros
  unfold effDoDiagnosticFilter
  with_reducible repeat' first | assumption | apply keeps_latch | apply keeps_doMod | intro _ | apply keeps_ite | refine keeps_mk (by assumption) rfl rfl rfl rfl rfl rfl rfl | rfl | split

theorem keeps_effFixKeepaliveLost : ∀ x0, Keeps b s0 (effFixKeepaliveLost x0 s) := by
  intros
  exact keeps_fixFreeze h _ _

theorem keeps_effFreezeLine : Keeps b s0 (effFreezeLine s) := by
  exact keeps_freezeAll h

theorem keeps_effFixHoldEnd : ∀ x0, Keeps b s0 (effFixHoldEnd x0 s) := by
  intros
  unfold effFixHoldEnd
  with_reducible repeat' first | assumption | apply keeps_fixRelease | apply keeps_doMod | intro _ | apply keeps_ite | rfl

theorem keeps_effFixSupplyRelease : ∀ x0 x1, Keeps b s0 (effFixSupplyRelease x0 x1 s) := by
  intros
  unfold effFixSupplyRelease
  with_reducible repeat' first | assumption | apply keeps_supplyMod | apply keeps_fixRelease | apply keeps_fixTrack | apply keeps_doRefresh | apply keeps_eachS | intro _ | apply keeps_ite | rfl

theorem keeps_arWordWrite : ∀ x0 x1 x2, Keeps b s0 (arWordWrite x0 x1 x2 s) := by
  intros
  unfold arWordWrite
  with_reducible repeat' first | assumption | apply keeps_ownedWrite | apply keeps_regSet | intro _ | apply keeps_ite | refine keeps_mk (by assumption) rfl rfl rfl rfl rfl rfl rfl | rfl | split

theorem keeps_arForceWrite : ∀ x0 x1, Keeps b s0 (arForceWrite x0 x1 s) := by
  intros
  unfold arForceWrite
  with_reducible repeat' first | assumption | apply keeps_lockGuard | apply keeps_ownedWrite | apply keeps_regSet | apply keeps_latch | apply keeps_whenS | intro _ | apply keeps_ite | rfl

theorem keeps_doCfgWrite : ∀ x0 x1, Keeps b s0 (doCfgWrite x0 x1 s) := by
  intros
  unfold doCfgWrite
  with_reducible repeat' first | assumption | apply keeps_ownedWrite | apply keeps_undef | apply keeps_regSet | apply keeps_fixRelease | apply keeps_doMod | apply keeps_fixTrack | apply keeps_doRefresh | apply keeps_whenS | intro _ | apply keeps_ite | rfl

theorem keeps_doFixWrite : ∀ x0 x1, Keeps b s0 (doFixWrite x0 x1 s) := by
  intros
  unfold doFixWrite
  with_reducible repeat' first | assumption | apply keeps_ownedWrite | apply keeps_undef | apply keeps_regSet | apply keeps_whenS | intro _ | apply keeps_ite | rfl

theorem keeps_doFailWrite : ∀ x0 x1, Keeps b s0 (doFailWrite x0 x1 s) := by
  intros
  unfold doFailWrite
  with_reducible repeat' first | assumption | apply keeps_lockGuard | apply keeps_ownedWrite | apply keeps_doRefresh | apply keeps_undef | apply keeps_triSet | apply keeps_useFail | apply keeps_whenS | intro _ | apply keeps_ite | rfl

theorem keeps_doForceWrite : ∀ x0 x1, Keeps b s0 (doForceWrite x0 x1 s) := by
  intros
  unfold doForceWrite
  with_reducible repeat' first | assumption | apply keeps_lockGuard | apply keeps_ownedWrite | apply keeps_doRefresh | apply keeps_regSet | intro _ | apply keeps_ite | refine keeps_mk (by assumption) rfl rfl rfl rfl rfl rfl rfl | rfl | split

theorem keeps_pairSet : ∀ x0, Keeps b s0 (pairSet x0 s) := by
  intros
  exact keeps_mk h rfl rfl rfl rfl rfl rfl rfl

theorem keeps_effHealthWordUpdate : Keeps b s0 (effHealthWordUpdate s) := by
  unfold effHealthWordUpdate
  with_reducible repeat' first | assumption | apply keeps_pairSet | apply keeps_blockRec | apply keeps_whenS | intro _ | apply keeps_ite | rfl

theorem keeps_sendOnP : ∀ x0, Keeps b s0 (sendOnP x0 s) := by
  intros
  unfold sendOnP
  with_reducible repeat' first | assumption | apply keeps_sendPairP | apply keeps_pairSet | apply keeps_whenS | intro _ | apply keeps_ite | rfl

theorem keeps_sendOnF : ∀ x0, Keeps b s0 (sendOnF x0 s) := by
  intros
  unfold sendOnF
  with_reducible repeat' first | assumption | apply keeps_sendTo | apply keeps_pairSet | apply keeps_whenS | intro _ | apply keeps_ite | refine keeps_mk (by assumption) rfl rfl rfl rfl rfl rfl rfl | rfl | split

theorem keeps_sendBoth : ∀ x0, Keeps b s0 (sendBoth x0 s) := by
  intros
  unfold sendBoth
  with_reducible repeat' first | assumption | apply keeps_sendOnF | apply keeps_sendOnP

theorem keeps_effPairBeatSend : Keeps b s0 (effPairBeatSend s) := by
  unfold effPairBeatSend
  with_reducible repeat' first | assumption | apply keeps_drawn | apply keeps_sendBoth | apply keeps_useRole | apply keeps_whenS | intro _ | apply keeps_ite | rfl

theorem keeps_loadWord : ∀ x0, Keeps b s0 (loadWord x0 s) := by
  intros
  unfold loadWord
  with_reducible repeat' first | assumption | apply keeps_pointSet | apply keeps_triSet | apply keeps_regSet | apply keeps_ite | refine keeps_mk (by assumption) rfl rfl rfl rfl rfl rfl rfl | rfl

theorem keeps_takeOutputs : Keeps b s0 (takeOutputs s) := by
  unfold takeOutputs
  with_reducible repeat' first | assumption | apply keeps_doRefresh | apply keeps_fixTakeUp | apply keeps_fixTrack | apply keeps_doMod | apply keeps_eachS | intro _ | apply keeps_ite | rfl

theorem keeps_takeRepeats : Keeps b s0 (takeRepeats s) := by
  unfold takeRepeats
  with_reducible repeat' first | assumption | apply keeps_arMod | apply keeps_eachS | intro _ | apply keeps_ite | refine keeps_mk (by assumption) rfl rfl rfl rfl rfl rfl rfl | rfl | split

theorem keeps_takeInputs : Keeps b s0 (takeInputs s) := by
  unfold takeInputs
  with_reducible repeat' first | assumption | apply keeps_chanMod | apply keeps_refreshTracks | apply keeps_restartChan | apply keeps_writeQuality | apply keeps_diMod | apply keeps_arUpdateAll | apply keeps_eachS | intro _ | apply keeps_ite | (refine keeps_mk ?_ rfl rfl rfl rfl rfl rfl rfl; first | assumption | apply keeps_chanMod | apply keeps_refreshTracks | apply keeps_restartChan | apply keeps_writeQuality | apply keeps_diMod | apply keeps_arUpdateAll | apply keeps_eachS | apply keeps_ite) | rfl | apply keeps_ite2 | apply keeps_ite3 | apply keeps_foldl | apply keeps_foldl2 | dsimp only | split | refine keeps_snd (by assumption) ?_ | refine keeps_thd (by assumption) ?_

theorem keeps_takeEngine : Keeps b s0 (takeEngine s) := by
  unfold takeEngine
  with_reducible repeat' first | assumption | intro _ | apply keeps_ite | refine keeps_mk (by assumption) rfl rfl rfl rfl rfl rfl rfl | rfl | split

theorem keeps_takeCarried : Keeps b s0 (takeCarried s) := by
  unfold takeCarried
  with_reducible repeat' first | assumption | apply keeps_pbMod | apply keeps_panelMod | apply keeps_whenS | apply keeps_eachS | intro _ | apply keeps_ite | refine keeps_mk (by assumption) rfl rfl rfl rfl rfl rfl rfl | rfl | split

theorem keeps_takeConfig : Keeps b s0 (takeConfig s) := by
  unfold takeConfig
  with_reducible repeat' first | assumption | apply keeps_loadWord | apply keeps_eachS | intro _ | apply keeps_ite | refine keeps_mk (by assumption) rfl rfl rfl rfl rfl rfl rfl | rfl | split

theorem keeps_takeAddress : Keeps b s0 (takeAddress s) := by
  unfold takeAddress
  with_reducible repeat' first | assumption | apply keeps_pairSet | apply keeps_sendNodeState | apply keeps_originate | intro _ | apply keeps_ite | (refine keeps_mk ?_ rfl rfl rfl rfl rfl rfl rfl; first | assumption | apply keeps_pairSet | apply keeps_sendNodeState | apply keeps_originate | apply keeps_ite) | rfl | apply keeps_ite2 | apply keeps_ite3 | apply keeps_foldl | apply keeps_foldl2 | dsimp only | split | refine keeps_snd (by assumption) ?_ | refine keeps_thd (by assumption) ?_

theorem keeps_takeOwn : ∀ x0, Keeps b s0 (takeOwn x0 s) := by
  intros
  unfold takeOwn
  with_reducible repeat' first | assumption | apply keeps_takeCarried | apply keeps_takeEngine | apply keeps_takeInputs | apply keeps_takeRepeats | apply keeps_takeOutputs | apply keeps_takeConfig | apply keeps_takeAddress | apply keeps_bump | apply keeps_latch | apply keeps_pairSet | apply keeps_ite | rfl

theorem keeps_lastLsa : Keeps b s0 (lastLsa s) := by
  unfold lastLsa
  with_reducible repeat' first | assumption | apply keeps_sendFlood | apply keeps_lsaStore | apply keeps_ite | refine keeps_mk (by assumption) rfl rfl rfl rfl rfl rfl rfl | rfl

theorem keeps_releaseOwn : Keeps b s0 (releaseOwn s) := by
  unfold releaseOwn
  with_reducible repeat' first | assumption | apply keeps_latch | apply keeps_lastLsa | apply keeps_freezeAll | apply keeps_installView | apply keeps_refreshAll | apply keeps_pbMonitorAll | intro _ | apply keeps_ite | (refine keeps_mk ?_ rfl rfl rfl rfl rfl rfl rfl; first | assumption | apply keeps_latch | apply keeps_lastLsa | apply keeps_freezeAll | apply keeps_installView | apply keeps_refreshAll | apply keeps_pbMonitorAll | apply keeps_ite) | rfl | apply keeps_ite2 | apply keeps_ite3 | apply keeps_foldl | apply keeps_foldl2 | dsimp only | split | refine keeps_snd (by assumption) ?_ | refine keeps_thd (by assumption) ?_

theorem keeps_becomeOutgoing : ∀ x0, Keeps b s0 (becomeOutgoing x0 s) := by
  intros
  unfold becomeOutgoing
  with_reducible repeat' first | assumption | apply keeps_pairSet | apply keeps_releaseOwn | apply keeps_sendBoth | apply keeps_claimNext | apply keeps_whenS | intro _ | apply keeps_ite | rfl

theorem keeps_enterStandby : Keeps b s0 (enterStandby s) := by
  unfold enterStandby
  with_reducible repeat' first | assumption | apply keeps_pairSet | apply keeps_fixRelease | apply keeps_eachS | intro _ | apply keeps_ite | rfl

theorem keeps_endDouble : ∀ x0, Keeps b s0 (endDouble x0 s) := by
  intros
  unfold endDouble
  with_reducible repeat' first | assumption | apply keeps_pairSet | intro _ | apply keeps_ite | (refine keeps_mk ?_ rfl rfl rfl rfl rfl rfl rfl; first | assumption | apply keeps_pairSet | apply keeps_ite) | rfl | apply keeps_ite2 | apply keeps_ite3 | apply keeps_foldl | apply keeps_foldl2 | dsimp only | split | refine keeps_snd (by assumption) ?_ | refine keeps_thd (by assumption) ?_

theorem keeps_effDoubleSendEnd : ∀ x0, Keeps b s0 (effDoubleSendEnd x0 s) := by
  intros
  unfold effDoubleSendEnd
  with_reducible repeat' first | assumption | apply keeps_endDouble | apply keeps_ite | rfl

theorem keeps_startPlanned : ∀ x0, Keeps b s0 (startPlanned x0 s) := by
  intros
  unfold startPlanned
  with_reducible repeat' first | assumption | apply keeps_pairSet | apply keeps_ite | rfl

theorem keeps_effHandoverReqSend : Keeps b s0 (effHandoverReqSend s) := by
  unfold effHandoverReqSend
  with_reducible repeat' first | assumption | apply keeps_sendBoth | apply keeps_pairSet | apply keeps_ite | rfl

theorem keeps_effRevertRequest : Keeps b s0 (effRevertRequest s) := by
  unfold effRevertRequest
  with_reducible repeat' first | assumption | apply keeps_startPlanned | apply keeps_drawn | apply keeps_ite | rfl

theorem keeps_forceAct : ∀ x0 x1, Keeps b s0 (forceAct x0 x1 s) := by
  intros
  unfold forceAct
  with_reducible repeat' first | assumption | apply keeps_startPlanned | apply keeps_sendBoth | apply keeps_ite | rfl

theorem keeps_effPairForceWrite : ∀ x0, Keeps b s0 (effPairForceWrite x0 s) := by
  intros
  unfold effPairForceWrite
  with_reducible repeat' first | assumption | apply keeps_lockGuard | apply keeps_pairSet | apply keeps_forceAct | apply keeps_undef | apply keeps_drawn | intro _ | apply keeps_ite | refine keeps_mk (by assumption) rfl rfl rfl rfl rfl rfl rfl | rfl | split

theorem keeps_onReleased : Keeps b s0 (onReleased s) := by
  unfold onReleased
  with_reducible repeat' first | assumption | apply keeps_pairSet | apply keeps_takeOwn | apply keeps_sendBoth | apply keeps_ite | rfl

theorem keeps_seize : Keeps b s0 (seize s) := by
  unfold seize
  with_reducible repeat' first | assumption | apply keeps_latch | apply keeps_bump | apply keeps_pairSet | apply keeps_ite | rfl

theorem keeps_seizeIfAlone : Keeps b s0 (seizeIfAlone s) := by
  unfold seizeIfAlone
  with_reducible repeat' first | assumption | apply keeps_seize | apply keeps_whenS

theorem keeps_effOwnLoopReleased : ∀ x0, Keeps b s0 (effOwnLoopReleased x0 s) := by
  intros
  unfold effOwnLoopReleased
  with_reducible repeat' first | assumption | apply keeps_seizeIfAlone | apply keeps_pairSet | apply keeps_onReleased | apply keeps_ite | rfl

theorem keeps_effProbeTimeout : Keeps b s0 (effProbeTimeout s) := by
  unfold effProbeTimeout
  with_reducible repeat' first | assumption | apply keeps_takeOwn | apply keeps_ite | rfl

theorem keeps_endListen : ∀ x0, Keeps b s0 (endListen x0 s) := by
  intros
  unfold endListen
  with_reducible repeat' first | assumption | apply keeps_pairSet | apply keeps_onReleased | apply keeps_ite | rfl

theorem keeps_effListenEnd : ∀ x0, Keeps b s0 (effListenEnd x0 s) := by
  intros
  unfold effListenEnd
  with_reducible repeat' first | assumption | apply keeps_endListen | apply keeps_ite | rfl

theorem keeps_effSeizeEnd : ∀ x0, Keeps b s0 (effSeizeEnd x0 s) := by
  intros
  unfold effSeizeEnd
  with_reducible repeat' first | assumption | apply keeps_pairSet | apply keeps_onReleased | apply keeps_ite | rfl

theorem keeps_effOwnSeized : Keeps b s0 (effOwnSeized s) := by
  unfold effOwnSeized
  with_reducible repeat' first | assumption | apply keeps_becomeOutgoing | apply keeps_latch | apply keeps_bump | apply keeps_ite | rfl

theorem keeps_effGrantTimeout : Keeps b s0 (effGrantTimeout s) := by
  unfold effGrantTimeout
  with_reducible repeat' first | assumption | apply keeps_seize | apply keeps_ite | rfl

theorem keeps_hearBeat : ∀ x0 x1, Keeps b s0 (hearBeat x0 x1 s) := by
  intros
  unfold hearBeat
  with_reducible repeat' first | assumption | apply keeps_pairSet | apply keeps_bumpBy | apply keeps_ite | rfl

theorem keeps_hearPeer : ∀ x0, Keeps b s0 (hearPeer x0 s) := by
  intros
  exact keeps_pairSet h _

theorem keeps_hearListen : Keeps b s0 (hearListen s) := by
  unfold hearListen
  with_reducible repeat' first | assumption | apply keeps_pairSet | apply keeps_endListen | apply keeps_ite | rfl

theorem keeps_onSplit : ∀ x0, Keeps b s0 (onSplit x0 s) := by
  intros
  unfold onSplit
  with_reducible repeat' first | assumption | apply keeps_pairSet | apply keeps_blockRec | apply keeps_bump | apply keeps_latch | apply keeps_becomeOutgoing | apply keeps_drawn | apply keeps_ite | rfl

theorem keeps_onDriven : ∀ x0, Keeps b s0 (onDriven x0 s) := by
  intros
  unfold onDriven
  with_reducible repeat' first | assumption | apply keeps_enterStandby | apply keeps_ite | rfl

theorem keeps_pairHears : ∀ x0 x1, Keeps b s0 (pairHears x0 x1 s).2 := by
  intros
  exact keeps_receive h _ _

theorem keeps_effBeat : ∀ x0 x1, Keeps b s0 (effBeat x0 x1 s) := by
  intros
  unfold effBeat
  with_reducible repeat' first | assumption | apply keeps_pairHears | apply keeps_hearListen | apply keeps_onDriven | apply keeps_onSplit | apply keeps_hearPeer | apply keeps_hearBeat | apply keeps_endDouble | apply keeps_startPlanned | apply keeps_whenS | intro _ | apply keeps_ite | rfl

theorem keeps_effProbe : ∀ x0 x1, Keeps b s0 (effProbe x0 x1 s) := by
  intros
  unfold effProbe
  with_reducible repeat' first | assumption | apply keeps_pairHears | apply keeps_hearPeer | apply keeps_sendOnP | apply keeps_sendOnF | apply keeps_ite | rfl

theorem keeps_effProbeReply : ∀ x0 x1, Keeps b s0 (effProbeReply x0 x1 s) := by
  intros
  unfold effProbeReply
  with_reducible repeat' first | assumption | apply keeps_pairHears | apply keeps_hearPeer | apply keeps_onSplit | apply keeps_pairSet | apply keeps_bump | apply keeps_latch | apply keeps_ite | rfl

theorem keeps_sendMirrorWith : ∀ x0, Keeps b s0 (sendMirrorWith x0 s) := by
  intros
  exact keeps_sendPairP h _

theorem keeps_sendMirror : Keeps b s0 (sendMirror s) := by
  exact keeps_sendMirrorWith h _

theorem keeps_effHandoverReq : ∀ x0 x1, Keeps b s0 (effHandoverReq x0 x1 s) := by
  intros
  unfold effHandoverReq
  with_reducible repeat' first | assumption | apply keeps_pairHears | apply keeps_hearPeer | apply keeps_becomeOutgoing | apply keeps_sendBoth | apply keeps_sendMirror | apply keeps_startPlanned | apply keeps_ite | rfl

theorem keeps_effGrant : ∀ x0 x1, Keeps b s0 (effGrant x0 x1 s) := by
  intros
  unfold effGrant
  with_reducible repeat' first | assumption | apply keeps_pairHears | apply keeps_pairSet | apply keeps_hearPeer | apply keeps_takeOwn | apply keeps_ite | rfl

theorem keeps_effReleased : ∀ x0 x1, Keeps b s0 (effReleased x0 x1 s) := by
  intros
  unfold effReleased
  with_reducible repeat' first | assumption | apply keeps_pairHears | apply keeps_pairSet | apply keeps_hearPeer | apply keeps_takeOwn | apply keeps_ite | rfl

theorem keeps_effPairPathLost : ∀ x0, Keeps b s0 (effPairPathLost x0 s) := by
  intros
  unfold effPairPathLost
  with_reducible repeat' first | assumption | apply keeps_bumpBy | apply keeps_pairSet | apply keeps_latch | apply keeps_endDouble | apply keeps_seizeIfAlone | apply keeps_whenS | intro _ | apply keeps_ite | refine keeps_mk (by assumption) rfl rfl rfl rfl rfl rfl rfl | rfl | split

theorem keeps_effHandoverComplete : Keeps b s0 (effHandoverComplete s) := by
  unfold effHandoverComplete
  with_reducible repeat' first | assumption | apply keeps_sendNodeState | apply keeps_publishCat | apply keeps_newVersion | apply keeps_pairSet | apply keeps_ite | rfl

theorem keeps_effHandoverOutEnd : Keeps b s0 (effHandoverOutEnd s) := by
  unfold effHandoverOutEnd
  with_reducible repeat' first | assumption | apply keeps_enterStandby | apply keeps_ite | rfl

theorem keeps_effStandbyFaulted : Keeps b s0 (effStandbyFaulted s) := by
  unfold effStandbyFaulted
  with_reducible repeat' first | assumption | apply keeps_latch | apply keeps_pairSet | apply keeps_endDouble | apply keeps_fixRelease | apply keeps_eachS | intro _ | apply keeps_ite | rfl

theorem keeps_effCalTest : ∀ x0 x1, Keeps b s0 (effCalTest x0 x1 s) := by
  intros
  unfold effCalTest
  with_reducible repeat' first | assumption | apply keeps_pairSet | apply keeps_ite | rfl

theorem keeps_effCheckpointSend : Keeps b s0 (effCheckpointSend s) := by
  unfold effCheckpointSend
  with_reducible repeat' first | assumption | apply keeps_latch | apply keeps_sendPairP | apply keeps_pairSet | apply keeps_whenS | intro _ | apply keeps_ite | rfl

theorem keeps_rejectCkpt : Keeps b s0 (rejectCkpt s) := by
  unfold rejectCkpt
  with_reducible repeat' first | assumption | apply keeps_latch | apply keeps_bump

theorem keeps_effCheckpoint : ∀ x0 x1 x2 x3, Keeps b s0 (effCheckpoint x0 x1 x2 x3 s) := by
  intros
  unfold effCheckpoint
  with_reducible repeat' first | assumption | apply keeps_receiveAs | apply keeps_rejectCkpt | apply keeps_pairSet | apply keeps_ite | rfl

theorem keeps_effEventMirror : ∀ x0 x1 x2, Keeps b s0 (effEventMirror x0 x1 x2 s) := by
  intros
  unfold effEventMirror
  with_reducible repeat' first | assumption | apply keeps_receive | apply keeps_rejectCkpt | apply keeps_pairSet | intro _ | apply keeps_ite | refine keeps_mk (by assumption) rfl rfl rfl rfl rfl rfl rfl | rfl | apply keeps_foldl | apply keeps_ite2 | dsimp only | split

theorem keeps_effTickMirror : ∀ x0 x1, Keeps b s0 (effTickMirror x0 x1 s) := by
  intro rx m
  unfold effTickMirror
  have h1 := keeps_receive h rx (.tickMirror m)
  generalize receive rx (.tickMirror m) s = p at h1 ⊢
  obtain ⟨ok, u⟩ := p
  dsimp only at h1 ⊢
  split
  · exact h1
  · split
    · exact keeps_endDouble (keeps_rejectCkpt h1) _
    · split
      · exact keeps_endDouble h1 _
      · split
        · exact h1
        · apply keeps_runCycle
          exact ⟨h1.pending, h1.clock, h1.serial, h1.hwIssue, h1.queue, fun _ => by simp only [List.length_take]; omega, h1.windows, h1.pend,
            h1.kept, h1.slots, h1.keys⟩

end Sys2Proof.Laws
end

