-- ==== Sys2Proof/Laws/KeepsTime.lean ====
section
/-! SUPPORT. Laws/KeepsTime.lean: what each operation keeps: the time island, the analogue blocks, the display and the routes. -/
namespace Sys2Proof.Laws

open Sys2Proof.Machine

variable {b : Bool} {s0 s : State} (h : Keeps b s0 s)
include h

theorem keeps_timMod : ∀ x0, Keeps b s0 (timMod x0 s) := by
  intros
  exact keeps_mk h rfl rfl rfl rfl rfl rfl rfl

theorem keeps_talmMod : ∀ x0 x1, Keeps b s0 (talmMod x0 x1 s) := by
  intros
  exact keeps_timMod h _

theorem keeps_timeRec : ∀ x0 x1, Keeps b s0 (timeRec x0 x1 s) := by
  intros
  unfold timeRec
  with_reducible repeat' first | assumption | apply keeps_blockRec | apply keeps_timMod | intro _ | apply keeps_ite | rfl

theorem keeps_flushDue : Keeps b s0 (flushDue s) := by
  unfold flushDue
  with_reducible repeat' first | assumption | apply keeps_blockRec | apply keeps_timMod | apply keeps_eachS | intro _ | apply keeps_ite | rfl

theorem keeps_setOsf : Keeps b s0 (setOsf s) := by
  unfold setOsf
  with_reducible repeat' first | assumption | apply keeps_timeRec | apply keeps_latch | apply keeps_timMod | intro _ | apply keeps_ite | rfl

theorem keeps_reachEnd : Keeps b s0 (reachEnd s) := by
  unfold reachEnd
  with_reducible repeat' first | assumption | apply keeps_setOsf | apply keeps_timMod

theorem keeps_talmFire : ∀ x0 x1 x2, Keeps b s0 (talmFire x0 x1 x2 s) := by
  intros
  unfold talmFire
  with_reducible repeat' first | assumption | apply keeps_timeRec | apply keeps_bump | apply keeps_latch | apply keeps_talmMod | apply keeps_whenS | intro _ | apply keeps_ite | rfl

theorem keeps_talmCheck : ∀ x0 x1, Keeps b s0 (talmCheck x0 x1 s) := by
  intros
  unfold talmCheck
  with_reducible repeat' first | assumption | apply keeps_talmFire | apply keeps_drawn | apply keeps_whenS | intro _ | apply keeps_ite | rfl

theorem keeps_talmStep : ∀ x0 x1 x2, Keeps b s0 (talmStep x0 x1 x2 s) := by
  intros
  unfold talmStep
  with_reducible repeat' first | assumption | apply keeps_talmFire | apply keeps_talmCheck | apply keeps_ite | rfl

theorem keeps_timeStep : ∀ x0 x1 x2 x3, Keeps b s0 (timeStep x0 x1 x2 x3 s) := by
  intros
  unfold timeStep
  with_reducible repeat' first | assumption | apply keeps_timMod | apply keeps_reachEnd | apply keeps_timeRec | apply keeps_bump | apply keeps_latch | apply keeps_talmStep | apply keeps_whenS | intro _ | apply keeps_ite | rfl

theorem keeps_secondStart : Keeps b s0 (secondStart s) := by
  unfold secondStart
  with_reducible repeat' first | assumption | apply keeps_timMod

theorem keeps_measureVcap : ∀ x0, Keeps b s0 (measureVcap x0 s) := by
  intros
  unfold measureVcap
  with_reducible repeat' first | assumption | apply keeps_latch | apply keeps_timMod | apply keeps_whenS | intro _ | apply keeps_ite | rfl

theorem keeps_freeCount : Keeps b s0 (freeCount s) := by
  unfold freeCount
  with_reducible repeat' first | assumption | apply keeps_timMod | apply keeps_drawn | intro _ | apply keeps_ite | rfl

theorem keeps_effTimeSecondTick : ∀ x0, Keeps b s0 (effTimeSecondTick x0 s) := by
  intros
  unfold effTimeSecondTick
  with_reducible repeat' first | assumption | apply keeps_measureVcap | apply keeps_timMod | apply keeps_secondStart | apply keeps_freeCount | apply keeps_reachEnd | apply keeps_talmCheck | apply keeps_whenS | intro _ | apply keeps_ite | rfl

theorem keeps_effCrystalStop : ∀ x0, Keeps b s0 (effCrystalStop x0 s) := by
  intros
  unfold effCrystalStop
  with_reducible repeat' first | assumption | apply keeps_setOsf | apply keeps_timMod | intro _ | apply keeps_ite | rfl

theorem keeps_effCrystalRestart : Keeps b s0 (effCrystalRestart s) := by
  unfold effCrystalRestart
  with_reducible repeat' first | assumption | apply keeps_timMod

theorem keeps_effTimeIslandPowerUp : ∀ x0, Keeps b s0 (effTimeIslandPowerUp x0 s) := by
  intros
  unfold effTimeIslandPowerUp
  with_reducible repeat' first | assumption | apply keeps_timeRec | apply keeps_latch | apply keeps_ite | refine keeps_mk (by assumption) rfl rfl rfl rfl rfl rfl rfl | rfl

theorem keeps_effTimeFracRead : Keeps b s0 (effTimeFracRead s) := by
  exact keeps_timMod h _

theorem keeps_effTimeSecHiRead : Keeps b s0 (effTimeSecHiRead s) := by
  exact keeps_timMod h _

theorem keeps_effTimeSetWrite : ∀ x0, Keeps b s0 (effTimeSetWrite x0 s) := by
  intros
  exact keeps_timeStep h _ _ _ _

theorem keeps_effTimeAdjWrite : ∀ x0, Keeps b s0 (effTimeAdjWrite x0 s) := by
  intros
  unfold effTimeAdjWrite
  with_reducible repeat' first | assumption | apply keeps_latch | apply keeps_timeStep | apply keeps_ite | rfl

theorem keeps_effTimeSetTodWrite : ∀ x0, Keeps b s0 (effTimeSetTodWrite x0 s) := by
  intros
  unfold effTimeSetTodWrite
  with_reducible repeat' first | assumption | apply keeps_timMod | apply keeps_timeStep | apply keeps_undef | apply keeps_drawn | intro _ | apply keeps_ite | refine keeps_mk (by assumption) rfl rfl rfl rfl rfl rfl rfl | rfl | apply keeps_foldl | apply keeps_ite2 | dsimp only | split

theorem keeps_timeSetDateWrite : ∀ x0, Keeps b s0 (timeSetDateWrite x0 s) := by
  intros
  unfold timeSetDateWrite
  with_reducible repeat' first | assumption | apply keeps_undef | apply keeps_timMod | apply keeps_whenS | intro _ | apply keeps_ite | rfl

theorem keeps_effTalmWrite : ∀ x0 x1 x2, Keeps b s0 (effTalmWrite x0 x1 x2 s) := by
  intros
  unfold effTalmWrite
  with_reducible repeat' first | assumption | apply keeps_undef | apply keeps_talmMod | apply keeps_whenS | intro _ | apply keeps_ite | rfl

theorem keeps_effFabricTimeAdopt : Keeps b s0 (effFabricTimeAdopt s) := by
  unfold effFabricTimeAdopt
  with_reducible repeat' first | assumption | apply keeps_latch | apply keeps_timeStep | apply keeps_ite | rfl

theorem keeps_effFtDiffUpdate : Keeps b s0 (effFtDiffUpdate s) := by
  unfold effFtDiffUpdate
  with_reducible repeat' first | assumption | apply keeps_timMod | intro _ | apply keeps_ite | rfl

theorem keeps_latchInputs : Keeps b s0 (latchInputs s) := by
  exact keeps_mk h rfl rfl rfl rfl rfl rfl rfl

theorem keeps_engineServed : Keeps b s0 (engineServed s) := by
  exact keeps_mk h rfl rfl rfl rfl rfl rfl rfl

theorem keeps_effAlarmCycleTick : Keeps b s0 (effAlarmCycleTick s) := by
  unfold effAlarmCycleTick
  with_reducible repeat' first | assumption | apply keeps_latchInputs | apply keeps_sendMirrorWith | apply keeps_engineServed | apply keeps_runCycle | apply keeps_whenS | intro _ | apply keeps_ite | rfl

theorem keeps_slotChange : ∀ x0 x1, Keeps b s0 (slotChange x0 x1 s) := by
  intros
  unfold slotChange
  with_reducible repeat' first | assumption | apply keeps_useEnable | apply keeps_drawn | apply keeps_pointSet | apply keeps_emitAlarm | apply keeps_countPhase | apply keeps_offerAlarms | apply keeps_whenS | intro _ | apply keeps_ite | refine keeps_mk (by assumption) rfl rfl rfl rfl rfl rfl rfl | rfl | split

theorem keeps_effOnDelayExpiry : ∀ x0, Keeps b s0 (effOnDelayExpiry x0 s) := by
  intros
  exact keeps_slotChange h _ _

theorem keeps_effOffDelayExpiry : ∀ x0, Keeps b s0 (effOffDelayExpiry x0 s) := by
  intros
  exact keeps_slotChange h _ _

theorem keeps_effBlockDelayExpiry : ∀ x0, Keeps b s0 (effBlockDelayExpiry x0 s) := by
  intros
  exact keeps_slotChange h _ _

theorem keeps_effShelveExpiry : ∀ x0, Keeps b s0 (effShelveExpiry x0 s) := by
  intros
  exact keeps_slotChange h _ _

theorem keeps_effEventCopyRelease : Keeps b s0 (effEventCopyRelease s) := by
  unfold effEventCopyRelease
  with_reducible repeat' first | assumption | apply keeps_offerAlarms | apply keeps_ite | refine keeps_mk (by assumption) rfl rfl rfl rfl rfl rfl rfl | rfl

theorem keeps_effEventCopyDiscard : Keeps b s0 (effEventCopyDiscard s) := by
  unfold effEventCopyDiscard
  with_reducible repeat' first | assumption | apply keeps_bumpBy | apply keeps_ite | refine keeps_mk (by assumption) rfl rfl rfl rfl rfl rfl rfl | rfl

theorem keeps_blkOff : ∀ x0, Keeps b s0 (blkOff x0 s) := by
  intros
  exact keeps_blkMod h _ _

theorem keeps_latchPlug : ∀ x0, Keeps b s0 (latchPlug x0 s) := by
  intros
  unfold latchPlug
  with_reducible repeat' first | assumption | apply keeps_latch | apply keeps_eachS | intro _ | apply keeps_ite | rfl

theorem keeps_useTypes : ∀ x0, Keeps b s0 (useTypes x0 s) := by
  intros
  unfold useTypes
  with_reducible repeat' first | assumption | apply keeps_useType | apply keeps_eachS | intro _ | apply keeps_ite | rfl

theorem keeps_effPlugAccepted : ∀ x0 x1, Keeps b s0 (effPlugAccepted x0 x1 s) := by
  intros
  unfold effPlugAccepted
  with_reducible repeat' first | assumption | apply keeps_useTypes | apply keeps_latchPlug | apply keeps_blkMod | apply keeps_bump | apply keeps_chanRec | apply keeps_restartAwait | apply keeps_eachS | intro _ | apply keeps_ite | rfl

theorem keeps_effPlugRemoved : ∀ x0, Keeps b s0 (effPlugRemoved x0 s) := by
  intros
  unfold effPlugRemoved
  with_reducible repeat' first | assumption | apply keeps_latchPlug | apply keeps_blkOff | apply keeps_blkMod | apply keeps_chanMod | apply keeps_chanRec | apply keeps_restartChan | apply keeps_refreshQuality | apply keeps_eachS | intro _ | apply keeps_ite | rfl

theorem keeps_effExcUnreg : ∀ x0 x1, Keeps b s0 (effExcUnreg x0 x1 s) := by
  intros
  unfold effExcUnreg
  with_reducible repeat' first | assumption | apply keeps_useType | apply keeps_refreshQuality | apply keeps_latch | apply keeps_chanMod | apply keeps_restartChan | intro _ | apply keeps_ite | rfl

theorem keeps_effLoopLimit : ∀ x0 x1, Keeps b s0 (effLoopLimit x0 x1 s) := by
  intros
  unfold effLoopLimit
  with_reducible repeat' first | assumption | apply keeps_useType | apply keeps_latch | apply keeps_chanMod | intro _ | apply keeps_ite | rfl

theorem keeps_effExcLimit : ∀ x0 x1, Keeps b s0 (effExcLimit x0 x1 s) := by
  intros
  unfold effExcLimit
  with_reducible repeat' first | assumption | apply keeps_useType | apply keeps_refreshQuality | apply keeps_latch | apply keeps_chanMod | apply keeps_restartChan | intro _ | apply keeps_ite | rfl

theorem keeps_effBlockDrawMeasure : ∀ x0 x1, Keeps b s0 (effBlockDrawMeasure x0 x1 s) := by
  intros
  unfold effBlockDrawMeasure
  with_reducible repeat' first | assumption | apply keeps_useTypes | apply keeps_chanMod | apply keeps_bump | apply keeps_blkMod | apply keeps_whenS | intro _ | apply keeps_ite | refine keeps_mk (by assumption) rfl rfl rfl rfl rfl rfl rfl | rfl | apply keeps_foldl | apply keeps_ite2 | dsimp only | split

theorem keeps_effFoldback : ∀ x0 x1, Keeps b s0 (effFoldback x0 x1 s) := by
  intros
  unfold effFoldback
  with_reducible repeat' first | assumption | apply keeps_useTypes | apply keeps_refreshQuality | apply keeps_blkMod | apply keeps_restartChan | apply keeps_eachS | intro _ | apply keeps_ite | rfl

theorem keeps_effExcShed : ∀ x0, Keeps b s0 (effExcShed x0 s) := by
  intros
  unfold effExcShed
  with_reducible repeat' first | assumption | apply keeps_useTypes | apply keeps_chanMod | apply keeps_blkMod | apply keeps_bump | apply keeps_latch | apply keeps_chanRec | apply keeps_refreshQuality | apply keeps_eachS | intro _ | apply keeps_ite | refine keeps_mk (by assumption) rfl rfl rfl rfl rfl rfl rfl | rfl | split

theorem keeps_unshed : ∀ x0, Keeps b s0 (unshed x0 s) := by
  intros
  unfold unshed
  with_reducible repeat' first | assumption | apply keeps_chanMod | intro _ | apply keeps_ite | rfl

theorem keeps_endRetry : ∀ x0, Keeps b s0 (endRetry x0 s) := by
  intros
  unfold endRetry
  with_reducible repeat' first | assumption | apply keeps_blkMod | apply keeps_whenS | intro _ | apply keeps_ite | rfl

theorem keeps_effShedRetry : ∀ x0, Keeps b s0 (effShedRetry x0 s) := by
  intros
  unfold effShedRetry
  with_reducible repeat' first | assumption | apply keeps_useTypes | apply keeps_restartChan | apply keeps_blkMod | apply keeps_unshed | intro _ | apply keeps_ite | refine keeps_mk (by assumption) rfl rfl rfl rfl rfl rfl rfl | rfl | split

theorem keeps_effShedRetryCheck : ∀ x0, Keeps b s0 (effShedRetryCheck x0 s) := by
  intros
  unfold effShedRetryCheck
  with_reducible repeat' first | assumption | apply keeps_blkMod | intro _ | apply keeps_ite | rfl

theorem keeps_calSet : ∀ x0 x1, Keeps b s0 (calSet x0 x1 s) := by
  intros
  exact keeps_mk h rfl rfl rfl rfl rfl rfl rfl

theorem keeps_effCalGainWrite : ∀ x0 x1, Keeps b s0 (effCalGainWrite x0 x1 s) := by
  intros
  unfold effCalGainWrite
  with_reducible repeat' first | assumption | apply keeps_lockGuard | apply keeps_ownedCal | apply keeps_latch | apply keeps_calSet | apply keeps_whenS | intro _ | apply keeps_ite | rfl

theorem keeps_effCalOffsetWrite : ∀ x0 x1, Keeps b s0 (effCalOffsetWrite x0 x1 s) := by
  intros
  unfold effCalOffsetWrite
  with_reducible repeat' first | assumption | apply keeps_lockGuard | apply keeps_ownedCal | apply keeps_useType | apply keeps_latch | apply keeps_calSet | apply keeps_whenS | intro _ | apply keeps_ite | rfl

theorem keeps_restoreShed : ∀ x0, Keeps b s0 (restoreShed x0 s) := by
  intros
  unfold restoreShed
  with_reducible repeat' first | assumption | apply keeps_endRetry | apply keeps_unshed

theorem keeps_reclampOffset : ∀ x0, Keeps b s0 (reclampOffset x0 s) := by
  intros
  unfold reclampOffset
  with_reducible repeat' first | assumption | apply keeps_latch | apply keeps_calSet | apply keeps_whenS | intro _ | apply keeps_ite | rfl

theorem keeps_effAfeCfgWrite : ∀ x0 x1, Keeps b s0 (effAfeCfgWrite x0 x1 s) := by
  intros
  unfold effAfeCfgWrite
  with_reducible repeat' first | assumption | apply keeps_ownedWrite | apply keeps_useType | apply keeps_restoreShed | apply keeps_triSet | apply keeps_chanUndef | apply keeps_reclampOffset | apply keeps_latch | apply keeps_chanMod | apply keeps_refreshTrack | apply keeps_stopChan | apply keeps_restartAwait | apply keeps_restartChan | apply keeps_afterCauses | apply keeps_whenS | intro _ | apply keeps_ite | rfl

theorem keeps_effAfeExcWrite : ∀ x0 x1, Keeps b s0 (effAfeExcWrite x0 x1 s) := by
  intros
  unfold effAfeExcWrite
  with_reducible repeat' first | assumption | apply keeps_ownedWrite | apply keeps_restoreShed | apply keeps_regSet | apply keeps_useType | apply keeps_chanUndef | apply keeps_restartChan | apply keeps_whenS | intro _ | apply keeps_ite | rfl

theorem keeps_effAfeRateWrite : ∀ x0 x1, Keeps b s0 (effAfeRateWrite x0 x1 s) := by
  intros
  unfold effAfeRateWrite
  with_reducible repeat' first | assumption | apply keeps_ownedWrite | apply keeps_chanUndef | apply keeps_regSet | apply keeps_useType | apply keeps_refreshTrack | apply keeps_restartChan | apply keeps_whenS | intro _ | apply keeps_ite | rfl

theorem keeps_afeWordWrite : ∀ x0 x1 x2, Keeps b s0 (afeWordWrite x0 x1 x2 s) := by
  intros
  unfold afeWordWrite
  with_reducible repeat' first | assumption | apply keeps_ownedWrite | apply keeps_regSet | apply keeps_useType | apply keeps_chanUndef | apply keeps_whenS | intro _ | apply keeps_ite | rfl

theorem keeps_effCjMeasure : ∀ x0 x1 x2, Keeps b s0 (effCjMeasure x0 x1 x2 s) := by
  intros
  unfold effCjMeasure
  with_reducible repeat' first | assumption | apply keeps_blkMod | apply keeps_useTypes | apply keeps_refreshQuality | apply keeps_eachS | intro _ | apply keeps_ite | rfl

theorem keeps_effCjSpread : ∀ x0 x1, Keeps b s0 (effCjSpread x0 x1 s) := by
  intros
  exact keeps_blkMod h _ _

theorem keeps_judge : ∀ x0 x1 x2, Keeps b s0 (judge x0 x1 x2 s) := by
  intros
  unfold judge
  with_reducible repeat' first | assumption | apply keeps_latch | apply keeps_chanMod | apply keeps_whenS | intro _ | apply keeps_ite | rfl

theorem keeps_takeMods : ∀ x0 x1, Keeps b s0 (takeMods x0 x1 s) := by
  intros
  unfold takeMods
  with_reducible repeat' first | assumption | apply keeps_chanMod | apply keeps_whenS | intro _ | apply keeps_ite | rfl

theorem keeps_effOutputSample : ∀ x0 x1 x2 x3 x4, Keeps b s0 (effOutputSample x0 x1 x2 x3 x4 s) := by
  intros
  unfold effOutputSample
  with_reducible repeat' first | assumption | apply keeps_takeMods | apply keeps_useType | apply keeps_chanMod | apply keeps_drawn | apply keeps_judge | apply keeps_endGap | apply keeps_refreshRemotes | apply keeps_notePublish | apply keeps_writeSample | apply keeps_whenS | intro _ | apply keeps_ite | rfl

theorem keeps_effRestartPoint : ∀ x0 x1, Keeps b s0 (effRestartPoint x0 x1 s) := by
  intros
  unfold effRestartPoint
  with_reducible repeat' first | assumption | apply keeps_takeMods | apply keeps_useType | apply keeps_bump | apply keeps_chanMod | intro _ | apply keeps_ite | rfl

theorem keeps_spritzResult : ∀ x0 x1, Keeps b s0 (spritzResult x0 x1 s) := by
  intros
  unfold spritzResult
  with_reducible repeat' first | assumption | apply keeps_useType | apply keeps_chanMod | apply keeps_bump | apply keeps_latch | apply keeps_afterCauses | apply keeps_noteGone | apply keeps_whenS | intro _ | apply keeps_ite | rfl

theorem keeps_effSpritzSlot : ∀ x0 x1, Keeps b s0 (effSpritzSlot x0 x1 s) := by
  intros
  unfold effSpritzSlot
  with_reducible repeat' first | assumption | apply keeps_spritzResult | apply keeps_eachS | intro _ | apply keeps_ite | rfl

theorem keeps_effCoarseWindow : ∀ x0 x1 x2 x3, Keeps b s0 (effCoarseWindow x0 x1 x2 x3 s) := by
  intros
  unfold effCoarseWindow
  with_reducible repeat' first | assumption | apply keeps_takeMods | apply keeps_useType | apply keeps_chanMod | apply keeps_latch | apply keeps_bumpBy | apply keeps_restartChan | apply keeps_afterCauses | apply keeps_whenS | intro _ | apply keeps_ite | rfl

theorem keeps_effAfeHealthWrite : ∀ x0 x1 x2, Keeps b s0 (effAfeHealthWrite x0 x1 x2 s) := by
  intros
  unfold effAfeHealthWrite
  with_reducible repeat' first | assumption | apply keeps_ownedWrite | apply keeps_chanUndef | apply keeps_regSet | apply keeps_useType | apply keeps_afterCauses | apply keeps_chanMod | apply keeps_whenS | intro _ | apply keeps_ite | rfl

theorem keeps_dispRec : ∀ x0, Keeps b s0 (dispRec x0 s) := by
  intros
  exact keeps_blockRec h _ _ _ _

omit h in
theorem keeps_driveFrame {b : Bool} {s0 : State} {s : State} (h : Keeps b s0 s) : ∀ x0 x1, Keeps b s0 (driveFrame x0 x1 s) := by
  intro k r
  have hp : ∀ (f : DispSt → Nat → DispSt), (∀ d t, (f d t).pend = d.pend) → ∀ (l : List Nat) (d : DispSt), (l.foldl f d).pend = d.pend := by
    intro f hf l
    induction l with
    | nil => intro d; rfl
    | cons a l ih => intro d; exact (ih _).trans (hf d a)
  have e : (driveFrame k r s).disp.pend = s.disp.pend := by
    unfold driveFrame
    refine (hp _ ?_ _ _)
    intro _ _
    rfl
  exact ⟨h.pending, h.clock, h.serial, h.hwIssue, h.queue, h.cmds, h.windows, fun x => e ▸ h.pend x, h.kept, h.slots, h.keys⟩

theorem keeps_noteImbalance : Keeps b s0 (noteImbalance s) := by
  unfold noteImbalance
  with_reducible repeat' first | assumption | apply keeps_latch | apply keeps_dispMod | apply keeps_whenS | intro _ | apply keeps_ite | rfl

theorem keeps_railsUp : Keeps b s0 (railsUp s) := by
  unfold railsUp
  with_reducible repeat' first | assumption | apply keeps_dispMod | intro _ | apply keeps_ite | rfl

theorem keeps_startIn : ∀ x0 x1 x2, Keeps b s0 (startIn x0 x1 x2 s) := by
  intros
  unfold startIn
  with_reducible repeat' first | assumption | apply keeps_railsUp | apply keeps_ite | refine keeps_mk (by assumption) rfl rfl rfl rfl rfl rfl rfl | rfl

theorem keeps_startMarkers : Keeps b s0 (startMarkers s) := by
  unfold startMarkers
  with_reducible repeat' first | assumption | apply keeps_dispMod | apply keeps_startIn | apply keeps_eachS | intro _ | apply keeps_ite | refine keeps_mk (by assumption) rfl rfl rfl rfl rfl rfl rfl | rfl | split

theorem keeps_startPending : Keeps b s0 (startPending s) := by
  unfold startPending
  refine keeps_eachS (fun r t ht => ?_) h
  split
  · split
    · apply keeps_startIn
      exact ⟨ht.pending, ht.clock, ht.serial, ht.hwIssue, ht.queue, ht.cmds, ht.windows,
        fun x => Nat.le_trans (List.length_filter_le _ _) (ht.pend x), ht.kept, ht.slots, ht.keys⟩
    · exact ht
  · exact ht

theorem keeps_takeRequest : ∀ x0, Keeps b s0 (takeRequest x0 s) := by
  intros
  unfold takeRequest
  with_reducible repeat' first | assumption | apply keeps_addPending | apply keeps_startIn | intro _ | apply keeps_ite | refine keeps_mk (by assumption) rfl rfl rfl rfl rfl rfl rfl | rfl | split

theorem keeps_takeRequests : Keeps b s0 (takeRequests s) := by
  unfold takeRequests
  with_reducible repeat' first | assumption | apply keeps_takeRequest | apply keeps_dispMod | apply keeps_eachS | intro _ | apply keeps_ite | rfl

theorem keeps_noteLate : Keeps b s0 (noteLate s) := by
  unfold noteLate
  with_reducible repeat' first | assumption | apply keeps_latch | apply keeps_bump

theorem keeps_noteDrySave : Keeps b s0 (noteDrySave s) := by
  unfold noteDrySave
  with_reducible repeat' first | assumption | intro _ | apply keeps_ite | refine keeps_mk (by assumption) rfl rfl rfl rfl rfl rfl rfl | rfl | split

theorem keeps_startOver : Keeps b s0 (startOver s) := by
  unfold startOver
  with_reducible repeat' first | assumption | apply keeps_dispMod | intro _ | apply keeps_ite | rfl

theorem keeps_completeSlot : ∀ x0 x1, Keeps b s0 (completeSlot x0 x1 s) := by
  intro k r
  unfold completeSlot
  with_reducible refine keeps_mk (keeps_noteDrySave (keeps_bump (keeps_whenS (fun _ ht => keeps_noteLate ht) (keeps_startOver
    (keeps_whenS (fun _ ht => keeps_drawn ht _) ?_))))) rfl rfl rfl rfl rfl rfl rfl
  exact keeps_mk h rfl rfl rfl rfl rfl rfl rfl

theorem keeps_stopSlot : ∀ x0 x1, Keeps b s0 (stopSlot x0 x1 s) := by
  intros
  unfold stopSlot
  with_reducible repeat' first | assumption | apply keeps_dispMod | apply keeps_latch | apply keeps_bump | apply keeps_addPending | intro _ | apply keeps_ite | (refine keeps_mk ?_ rfl rfl rfl rfl rfl rfl rfl; first | assumption | apply keeps_dispMod | apply keeps_latch | apply keeps_bump | apply keeps_addPending | apply keeps_ite) | rfl | apply keeps_ite2 | apply keeps_ite3 | apply keeps_foldl | apply keeps_foldl2 | dsimp only | split | refine keeps_snd (by assumption) ?_ | refine keeps_thd (by assumption) ?_

theorem keeps_faultDischarge : Keeps b s0 (faultDischarge s) := by
  unfold faultDischarge
  with_reducible repeat' first | assumption | apply keeps_dispMod | intro _ | apply keeps_ite | rfl

theorem keeps_request : ∀ x0, Keeps b s0 (request x0 s) := by
  intros
  unfold request
  with_reducible repeat' first | assumption | apply keeps_railsUp | apply keeps_dispMod | intro _ | apply keeps_ite | rfl

theorem keeps_effImageCheck : Keeps b s0 (effImageCheck s) := by
  unfold effImageCheck
  with_reducible repeat' first | assumption | apply keeps_dispMod | apply keeps_request | apply keeps_dispRec | apply keeps_latch | apply keeps_bump | intro _ | apply keeps_ite | rfl

theorem keeps_endFrame : Keeps b s0 (endFrame s) := by
  unfold endFrame
  with_reducible repeat' first | assumption | apply keeps_bump | apply keeps_driveFrame | apply keeps_eachS | intro _ | apply keeps_ite | rfl

theorem keeps_beginFrame : Keeps b s0 (beginFrame s) := by
  unfold beginFrame
  with_reducible repeat' first | assumption | apply keeps_dispMod | apply keeps_whenS | apply keeps_eachS | intro _ | apply keeps_ite | rfl

theorem keeps_effDisplayFrameBoundary : Keeps b s0 (effDisplayFrameBoundary s) := by
  unfold effDisplayFrameBoundary
  with_reducible repeat' first | assumption | apply keeps_endFrame | apply keeps_completeSlot | apply keeps_stopSlot | apply keeps_noteImbalance | apply keeps_takeRequests | apply keeps_startPending | apply keeps_startMarkers | apply keeps_faultDischarge | apply keeps_dispMod | apply keeps_effImageCheck | apply keeps_beginFrame | apply keeps_whenS | apply keeps_eachS | intro _ | apply keeps_ite | rfl

theorem keeps_finishSlot : ∀ x0, Keeps b s0 (finishSlot x0 s) := by
  intros
  unfold finishSlot
  with_reducible repeat' first | assumption | apply keeps_driveFrame | apply keeps_noteImbalance | apply keeps_completeSlot | intro _ | apply keeps_ite | refine keeps_mk (by assumption) rfl rfl rfl rfl rfl rfl rfl | rfl | apply keeps_foldl | apply keeps_ite2 | dsimp only | split

theorem keeps_abortSlot : ∀ x0 x1, Keeps b s0 (abortSlot x0 x1 s) := by
  intros
  unfold abortSlot
  with_reducible repeat' first | assumption | apply keeps_dispMod | intro _ | apply keeps_ite | refine keeps_mk (by assumption) rfl rfl rfl rfl rfl rfl rfl | rfl | split

theorem keeps_effDispAbortWrite : ∀ x0 x1, Keeps b s0 (effDispAbortWrite x0 x1 s) := by
  intros
  unfold effDispAbortWrite
  with_reducible repeat' first | assumption | apply keeps_finishSlot | apply keeps_abortSlot | apply keeps_whenS | apply keeps_eachS | intro _ | apply keeps_ite | rfl

theorem keeps_effPanelTempRead : ∀ x0 x1, Keeps b s0 (effPanelTempRead x0 x1 s) := by
  intros
  unfold effPanelTempRead
  with_reducible repeat' first | assumption | apply keeps_dispMod | intro _ | apply keeps_ite | rfl

theorem keeps_effRailsSleep : Keeps b s0 (effRailsSleep s) := by
  unfold effRailsSleep
  with_reducible repeat' first | assumption | apply keeps_dispMod | intro _ | apply keeps_ite | rfl

omit h in
theorem keeps_noPend {b : Bool} {s0 s : State} {f : DispSt → DispSt} (hf : (f s.disp).pend = []) (h : Keeps b s0 s) : Keeps b s0 (dispMod f s) :=
  ⟨h.pending, h.clock, h.serial, h.hwIssue, h.queue, h.cmds, h.windows, fun _ => by simp [dispMod, hf], h.kept, h.slots, h.keys⟩

theorem keeps_effRailFault : Keeps b s0 (effRailFault s) := by
  unfold effRailFault
  split
  · exact h
  · dsimp only
    apply keeps_faultDischarge
    apply keeps_dispRec
    have h1 : Keeps b s0 (eachS (List.finRange 8) (abortSlot true) s) := keeps_eachS (fun _ _ ht => keeps_abortSlot ht _ _) h
    generalize eachS (List.finRange 8) (abortSlot true) s = u at h1 ⊢
    have h2 : ∀ f : DispSt → DispSt, (f u.disp).pend = u.disp.pend → Keeps b s0 (latch aDISP_EVENT 5 (bump 0x0D0034 (dispMod f u))) :=
      fun f hf => keeps_latch (keeps_bump (keeps_dispMod hf h1))
    refine keeps_ite (keeps_latch (keeps_noPend ?_ (h2 _ ?_))) (h2 _ ?_) <;> rfl

theorem keeps_effRailRetry : Keeps b s0 (effRailRetry s) := by
  unfold effRailRetry
  with_reducible repeat' first | assumption | apply keeps_dispMod | apply keeps_railsUp | intro _ | apply keeps_ite | rfl

theorem keeps_tsMark : Keeps b s0 (tsMark s) := by
  exact keeps_mk h rfl rfl rfl rfl rfl rfl rfl

theorem keeps_ftStep : ∀ x0, Keeps b s0 (ftStep x0 s) := by
  intros
  unfold ftStep
  with_reducible repeat' first | assumption | apply keeps_blockRec | apply keeps_latch | apply keeps_bump | apply keeps_ite | refine keeps_mk (by assumption) rfl rfl rfl rfl rfl rfl rfl | rfl

theorem keeps_ftSlew : ∀ x0 x1, Keeps b s0 (ftSlew x0 x1 s) := by
  intros
  exact keeps_mk h rfl rfl rfl rfl rfl rfl rfl

theorem keeps_refreshSynced : Keeps b s0 (refreshSynced s) := by
  exact keeps_mk h rfl rfl rfl rfl rfl rfl rfl

theorem keeps_effTimeMarkSend : Keeps b s0 (effTimeMarkSend s) := by
  unfold effTimeMarkSend
  with_reducible repeat' first | assumption | apply keeps_enqueue | apply keeps_tsMark | apply keeps_eachS | intro _ | apply keeps_ite | (refine keeps_mk ?_ rfl rfl rfl rfl rfl rfl rfl; first | assumption | apply keeps_enqueue | apply keeps_tsMark | apply keeps_eachS | apply keeps_ite) | rfl | apply keeps_ite2 | apply keeps_ite3 | apply keeps_foldl | apply keeps_foldl2 | dsimp only | split | refine keeps_snd (by assumption) ?_ | refine keeps_thd (by assumption) ?_

theorem keeps_onMark : ∀ x0 x1 x2, Keeps b s0 (onMark x0 x1 x2 s) := by
  intros
  unfold onMark
  with_reducible repeat' first | assumption | apply keeps_bump | apply keeps_enqueue | apply keeps_tsMark | apply keeps_refreshSynced | apply keeps_ftStep | apply keeps_ftSlew | apply keeps_eachS | intro _ | apply keeps_ite | (refine keeps_mk ?_ rfl rfl rfl rfl rfl rfl rfl; first | assumption | apply keeps_bump | apply keeps_enqueue | apply keeps_tsMark | apply keeps_refreshSynced | apply keeps_ftStep | apply keeps_ftSlew | apply keeps_eachS | apply keeps_ite) | rfl | apply keeps_ite2 | apply keeps_ite3 | apply keeps_foldl | apply keeps_foldl2 | dsimp only | split | refine keeps_snd (by assumption) ?_ | refine keeps_thd (by assumption) ?_

theorem keeps_effTimeMark : ∀ x0 x1, Keeps b s0 (effTimeMark x0 x1 s) := by
  intros
  unfold effTimeMark
  with_reducible repeat' first | assumption | apply keeps_receive | apply keeps_onMark | intro _ | apply keeps_ite | (refine keeps_mk ?_ rfl rfl rfl rfl rfl rfl rfl; first | assumption | apply keeps_receive | apply keeps_onMark | apply keeps_ite) | rfl | apply keeps_ite2 | apply keeps_ite3 | apply keeps_foldl | apply keeps_foldl2 | dsimp only | split | refine keeps_snd (by assumption) ?_ | refine keeps_thd (by assumption) ?_

theorem keeps_effZoneOffsetReport : Keeps b s0 (effZoneOffsetReport s) := by
  unfold effZoneOffsetReport
  with_reducible repeat' first | assumption | apply keeps_sendUni | intro _ | apply keeps_ite | refine keeps_mk (by assumption) rfl rfl rfl rfl rfl rfl rfl | rfl | split

theorem keeps_effMeanOffsetReport : ∀ x0 x1, Keeps b s0 (effMeanOffsetReport x0 x1 s) := by
  intros
  unfold effMeanOffsetReport
  with_reducible repeat' first | assumption | apply keeps_receive | apply keeps_ftStep | apply keeps_ftSlew | intro _ | apply keeps_ite | (refine keeps_mk ?_ rfl rfl rfl rfl rfl rfl rfl; first | assumption | apply keeps_receive | apply keeps_ftStep | apply keeps_ftSlew | apply keeps_ite) | rfl | apply keeps_ite2 | apply keeps_ite3 | apply keeps_foldl | apply keeps_foldl2 | dsimp only | split | refine keeps_snd (by assumption) ?_ | refine keeps_thd (by assumption) ?_

theorem keeps_refreshRoot : ∀ x0, Keeps b s0 (refreshRoot x0 s) := by
  intros
  unfold refreshRoot
  with_reducible repeat' first | assumption | apply keeps_latch | apply keeps_refreshSynced | apply keeps_whenS | intro _ | apply keeps_ite | refine keeps_mk (by assumption) rfl rfl rfl rfl rfl rfl rfl | rfl

theorem keeps_refreshRemote : Keeps b s0 (refreshRemote s) := by
  unfold refreshRemote
  with_reducible repeat' first | assumption | apply keeps_installView | apply keeps_ite | rfl

theorem keeps_effRouteCompute : Keeps b s0 (effRouteCompute s) := by
  unfold effRouteCompute
  with_reducible repeat' first | assumption | apply keeps_bump | apply keeps_useZone | apply keeps_refreshRoot | apply keeps_installView | intro _ | apply keeps_ite | (refine keeps_mk ?_ rfl rfl rfl rfl rfl rfl rfl; first | assumption | apply keeps_bump | apply keeps_useZone | apply keeps_refreshRoot | apply keeps_installView | apply keeps_ite) | rfl | apply keeps_ite2 | apply keeps_ite3 | apply keeps_foldl | apply keeps_foldl2 | dsimp only | split | refine keeps_snd (by assumption) ?_ | refine keeps_thd (by assumption) ?_

theorem keeps_effClaimWin : Keeps b s0 (effClaimWin s) := by
  unfold effClaimWin
  with_reducible repeat' first | assumption | apply keeps_sendNodeState | apply keeps_originate | intro _ | apply keeps_ite | refine keeps_mk (by assumption) rfl rfl rfl rfl rfl rfl rfl | rfl | split

theorem keeps_effDrydownNotice : ∀ x0 x1 x2, Keeps b s0 (effDrydownNotice x0 x1 x2 s) := by
  intros
  unfold effDrydownNotice
  with_reducible repeat' first | assumption | apply keeps_receive | apply keeps_loseTwoWay | apply keeps_installView | apply keeps_refreshRemote | intro _ | apply keeps_ite | (refine keeps_mk ?_ rfl rfl rfl rfl rfl rfl rfl; first | assumption | apply keeps_receive | apply keeps_loseTwoWay | apply keeps_installView | apply keeps_refreshRemote | apply keeps_ite) | rfl | apply keeps_ite2 | apply keeps_ite3 | apply keeps_foldl | apply keeps_foldl2 | dsimp only | split | refine keeps_snd (by assumption) ?_ | refine keeps_thd (by assumption) ?_

theorem keeps_effZoneUpdateSend : Keeps b s0 (effZoneUpdateSend s) := by
  unfold effZoneUpdateSend
  with_reducible repeat' first | assumption | apply keeps_sendLocal | apply keeps_drawn | apply keeps_eachS | intro _ | apply keeps_ite | rfl

theorem keeps_effZoneUpdate : ∀ x0 x1, Keeps b s0 (effZoneUpdate x0 x1 s) := by
  intros
  unfold effZoneUpdate
  with_reducible repeat' first | assumption | apply keeps_receive | intro _ | apply keeps_ite | (refine keeps_mk ?_ rfl rfl rfl rfl rfl rfl rfl; first | assumption | apply keeps_receive | apply keeps_ite) | rfl | apply keeps_ite2 | apply keeps_ite3 | apply keeps_foldl | apply keeps_foldl2 | dsimp only | split | refine keeps_snd (by assumption) ?_ | refine keeps_thd (by assumption) ?_

theorem keeps_noteSummary : ∀ x0 x1, Keeps b s0 (noteSummary x0 x1 s) := by
  intros
  unfold noteSummary
  with_reducible repeat' first | assumption | apply keeps_refreshRemote | apply keeps_ite | refine keeps_mk (by assumption) rfl rfl rfl rfl rfl rfl rfl | rfl

theorem keeps_effZoneSummarySend : Keeps b s0 (effZoneSummarySend s) := by
  unfold effZoneSummarySend
  with_reducible repeat' first | assumption | apply keeps_sendFlood | apply keeps_noteSummary | apply keeps_drawn | apply keeps_eachS | intro _ | apply keeps_ite | refine keeps_mk (by assumption) rfl rfl rfl rfl rfl rfl rfl | rfl | split

theorem keeps_effZoneSummary : ∀ x0 x1, Keeps b s0 (effZoneSummary x0 x1 s) := by
  intros
  unfold effZoneSummary
  with_reducible repeat' first | assumption | apply keeps_receive | apply keeps_noteSummary | apply keeps_ite | rfl

theorem keeps_effFrameForward : ∀ x0 x1, Keeps b s0 (effFrameForward x0 x1 s) := by
  intros
  exact keeps_receiveAs h _ _ _

theorem keeps_effLinkFrameEnd : ∀ x0, Keeps b s0 (effLinkFrameEnd x0 s) := by
  intros
  unfold effLinkFrameEnd
  with_reducible repeat' first | assumption | apply keeps_bump | apply keeps_latch | apply keeps_linkMod | intro _ | apply keeps_ite | refine keeps_mk (by assumption) rfl rfl rfl rfl rfl rfl rfl | rfl | split

theorem keeps_effFrameAgeDrop : ∀ x0 x1 x2, Keeps b s0 (effFrameAgeDrop x0 x1 x2 s) := by
  intros
  unfold effFrameAgeDrop
  with_reducible repeat' first | assumption | apply keeps_bump | apply keeps_linkMod | intro _ | apply keeps_ite | refine keeps_mk (by assumption) rfl rfl rfl rfl rfl rfl rfl | rfl | split

theorem keeps_effSubscribeSend : Keeps b s0 (effSubscribeSend s) := by
  unfold effSubscribeSend
  with_reducible repeat' first | assumption | apply keeps_sendUni | apply keeps_eachS | intro _ | apply keeps_ite | rfl

theorem keeps_effSubscribe : ∀ x0 x1, Keeps b s0 (effSubscribe x0 x1 s) := by
  intros
  unfold effSubscribe
  with_reducible repeat' first | assumption | apply keeps_receive | intro _ | apply keeps_ite | (refine keeps_mk ?_ rfl rfl rfl rfl rfl rfl rfl; first | assumption | apply keeps_receive | apply keeps_ite) | rfl | apply keeps_ite2 | apply keeps_ite3 | apply keeps_foldl | apply keeps_foldl2 | dsimp only | split | refine keeps_snd (by assumption) ?_ | refine keeps_thd (by assumption) ?_

theorem keeps_publishTo : ∀ x0, Keeps b s0 (publishTo x0 s) := by
  intros
  unfold publishTo
  with_reducible repeat' first | assumption | apply keeps_sendUni | intro _ | apply keeps_ite | (refine keeps_mk ?_ rfl rfl rfl rfl rfl rfl rfl; first | assumption | apply keeps_sendUni | apply keeps_ite) | rfl | apply keeps_ite2 | apply keeps_ite3 | apply keeps_foldl | apply keeps_foldl2 | dsimp only | split | refine keeps_snd (by assumption) ?_ | refine keeps_thd (by assumption) ?_

theorem keeps_effPublicationSend : Keeps b s0 (effPublicationSend s) := by
  unfold effPublicationSend
  with_reducible repeat' first | assumption | apply keeps_publishTo | apply keeps_eachS | intro _ | apply keeps_ite | rfl

theorem keeps_takeEntry : ∀ x0 x1, Keeps b s0 (takeEntry x0 x1 s) := by
  intros
  unfold takeEntry
  with_reducible repeat' first | assumption | apply keeps_eachS | intro _ | apply keeps_ite | refine keeps_mk (by assumption) rfl rfl rfl rfl rfl rfl rfl | rfl

theorem keeps_effPublication : ∀ x0 x1, Keeps b s0 (effPublication x0 x1 s) := by
  intros
  unfold effPublication
  with_reducible repeat' first | assumption | apply keeps_receive | apply keeps_refreshRemotes | apply keeps_takeEntry | apply keeps_eachS | intro _ | apply keeps_ite | rfl

theorem keeps_effSubscriptionTimeout : ∀ x0, Keeps b s0 (effSubscriptionTimeout x0 s) := by
  intros
  unfold effSubscriptionTimeout
  with_reducible repeat' first | assumption | apply keeps_entryOut | apply keeps_ite | rfl

end Sys2Proof.Laws
end

