-- ==== Sys2Proof/Laws/KeepsPanel.lean ====
section
/-! SUPPORT. Laws/KeepsPanel.lean: what each operation keeps: the front panel, the recorder, resets and the supply. -/
namespace Sys2Proof.Laws

open Sys2Proof.Machine

variable {b : Bool} {s0 s : State} (h : Keeps b s0 s)
include h

theorem keeps_drawLine : ∀ x0, Keeps b s0 (drawLine x0 s) := by
  intros
  unfold drawLine
  with_reducible repeat' first | assumption | apply keeps_dispMod | intro _ | apply keeps_ite | rfl

theorem keeps_drawRect : ∀ x0, Keeps b s0 (drawRect x0 s) := by
  intros
  unfold drawRect
  with_reducible repeat' first | assumption | apply keeps_drawLine | apply keeps_eachS | intro _ | apply keeps_ite | rfl

theorem keeps_effUpdateRequest : ∀ x0, Keeps b s0 (effUpdateRequest x0 s) := by
  intros
  unfold effUpdateRequest
  with_reducible repeat' first | assumption | apply keeps_dispMod | apply keeps_request | apply keeps_drawRect | intro _ | apply keeps_ite | rfl

theorem keeps_pressed : Keeps b s0 (pressed s) := by
  unfold pressed
  with_reducible repeat' first | assumption | apply keeps_dispRec | apply keeps_bump

theorem keeps_effFrontAckPress : ∀ x0, Keeps b s0 (effFrontAckPress x0 s) := by
  intros
  unfold effFrontAckPress
  with_reducible repeat' first | assumption | apply keeps_dispMod | apply keeps_pressed | apply keeps_queueCmd | intro _ | apply keeps_ite | refine keeps_mk (by assumption) rfl rfl rfl rfl rfl rfl rfl | rfl | split

theorem keeps_silenceFront : Keeps b s0 (silenceFront s) := by
  exact keeps_mk h rfl rfl rfl rfl rfl rfl rfl

theorem keeps_effFrontSilencePress : ∀ x0, Keeps b s0 (effFrontSilencePress x0 s) := by
  intros
  unfold effFrontSilencePress
  with_reducible repeat' first | assumption | apply keeps_dispMod | apply keeps_silenceFront | apply keeps_pressed | intro _ | apply keeps_ite | rfl

theorem keeps_effPanelTest : Keeps b s0 (effPanelTest s) := by
  unfold effPanelTest
  with_reducible repeat' first | assumption | apply keeps_request | apply keeps_drawRect | apply keeps_dispMod | intro _ | apply keeps_ite | rfl

theorem keeps_touchAct : ∀ x0, Keeps b s0 (touchAct x0 s) := by
  intros
  unfold touchAct
  with_reducible repeat' first | assumption | apply keeps_dispMod | intro _ | apply keeps_ite | refine keeps_mk (by assumption) rfl rfl rfl rfl rfl rfl rfl | rfl | split

theorem keeps_effTouchKey : ∀ x0 x1, Keeps b s0 (effTouchKey x0 x1 s) := by
  intros
  unfold effTouchKey
  with_reducible repeat' first | assumption | apply keeps_dispMod | apply keeps_touchAct | intro _ | apply keeps_ite | rfl

theorem keeps_effTouchStuck : ∀ x0, Keeps b s0 (effTouchStuck x0 s) := by
  intros
  unfold effTouchStuck
  with_reducible repeat' first | assumption | apply keeps_latch | apply keeps_dispMod | intro _ | apply keeps_ite | rfl

theorem keeps_effSelectHeld : Keeps b s0 (effSelectHeld s) := by
  unfold effSelectHeld
  with_reducible repeat' first | assumption | apply keeps_dispMod | intro _ | apply keeps_ite | rfl

theorem keeps_effPinEntry : Keeps b s0 (effPinEntry s) := by
  unfold effPinEntry
  with_reducible repeat' first | assumption | apply keeps_dispMod | intro _ | apply keeps_ite | refine keeps_mk (by assumption) rfl rfl rfl rfl rfl rfl rfl | rfl | split

theorem keeps_effRendererCallStateSend : ∀ x0, Keeps b s0 (effRendererCallStateSend x0 s) := by
  intros
  unfold effRendererCallStateSend
  with_reducible repeat' first | assumption | apply keeps_sendItem | apply keeps_eachS | intro _ | apply keeps_ite | refine keeps_mk (by assumption) rfl rfl rfl rfl rfl rfl rfl | rfl | split

theorem keeps_effRendererCallState : ∀ x0 x1 x2 x3 x4 x5 x6, Keeps b s0 (effRendererCallState x0 x1 x2 x3 x4 x5 x6 s) := by
  intros
  unfold effRendererCallState
  with_reducible repeat' first | assumption | apply keeps_receive | apply keeps_eachS | intro _ | apply keeps_ite | (refine keeps_mk ?_ rfl rfl rfl rfl rfl rfl rfl; first | assumption | apply keeps_receive | apply keeps_eachS | apply keeps_ite) | rfl | apply keeps_ite2 | apply keeps_ite3 | apply keeps_foldl | apply keeps_foldl2 | dsimp only | split | refine keeps_snd (by assumption) ?_ | refine keeps_thd (by assumption) ?_

theorem keeps_sendPage : ∀ x0 x1 x2 x3, Keeps b s0 (sendPage x0 x1 x2 x3 s) := by
  intros
  unfold sendPage
  with_reducible repeat' first | assumption | apply keeps_sendItem | apply keeps_eachS | intro _ | apply keeps_ite | rfl

theorem keeps_effPageRenderSend : ∀ x0 x1, Keeps b s0 (effPageRenderSend x0 x1 s) := by
  intros
  unfold effPageRenderSend
  with_reducible repeat' first | assumption | apply keeps_sendPage | apply keeps_eachS | intro _ | apply keeps_ite | refine keeps_mk (by assumption) rfl rfl rfl rfl rfl rfl rfl | rfl

theorem keeps_writeRecord : ∀ x0, Keeps b s0 (writeRecord x0 s) := by
  intros
  unfold writeRecord
  with_reducible repeat' first | assumption | apply keeps_rcdMod | apply keeps_storeAt | apply keeps_latch | apply keeps_bump | intro _ | apply keeps_ite | refine keeps_mk (by assumption) rfl rfl rfl rfl rfl rfl rfl | rfl | split

theorem keeps_logBlock : ∀ x0 x1 x2 x3, Keeps b s0 (logBlock x0 x1 x2 x3 s) := by
  intros
  exact keeps_writeRecord h _

theorem keeps_effRecorderTakeEvent : Keeps b s0 (effRecorderTakeEvent s) := by
  unfold effRecorderTakeEvent
  dsimp only
  split
  · exact h
  · split
    · with_reducible apply keeps_writeRecord
      exact keeps_mk h rfl rfl rfl rfl rfl rfl rfl
    · split
      · exact keeps_writeRecord (keeps_rcdMod rfl rfl h) _
      · split
        · exact h
        · rename_i e
          apply keeps_writeRecord
          exact ⟨h.pending, h.clock, h.serial, h.hwIssue, fun x => by have := h.queue x; rw [e] at this; simp [rcdMod] at this ⊢; omega, h.cmds,
            h.windows, h.pend, h.kept, h.slots, h.keys⟩

theorem keeps_drainQueue : Keeps b s0 (drainQueue s) := by
  unfold drainQueue
  with_reducible repeat' first | assumption | apply keeps_effRecorderTakeEvent | intro _ | apply keeps_ite | refine keeps_mk (by assumption) rfl rfl rfl rfl rfl rfl rfl | rfl | apply keeps_foldl | apply keeps_ite2 | dsimp only | split

theorem keeps_closeLog : Keeps b s0 (closeLog s) := by
  unfold closeLog
  with_reducible repeat' first | assumption | apply keeps_rcdMod | intro _ | apply keeps_ite | rfl

theorem keeps_effLogIndexRebuild : Keeps b s0 (effLogIndexRebuild s) := by
  unfold effLogIndexRebuild
  split
  · exact h
  · dsimp only
    apply keeps_latch
    refine keeps_whenS (fun _ ht => keeps_latch ht) ?_
    exact ⟨h.pending, h.clock, h.serial, h.hwIssue, h.queue, h.cmds, h.windows, h.pend, h.kept,
      fun k x => by simp only [rcdMod, isSome_map]; exact h.slots k x, h.keys⟩

theorem keeps_effLogSelWrite : ∀ x0, Keeps b s0 (effLogSelWrite x0 s) := by
  intros
  unfold effLogSelWrite
  with_reducible repeat' first | assumption | apply keeps_rcdMod | intro _ | apply keeps_ite | rfl

theorem keeps_effLogWindowLoaded : Keeps b s0 (effLogWindowLoaded s) := by
  unfold effLogWindowLoaded
  with_reducible repeat' first | assumption | apply keeps_rcdMod | intro _ | apply keeps_ite | refine keeps_mk (by assumption) rfl rfl rfl rfl rfl rfl rfl | rfl | apply keeps_foldl | apply keeps_ite2 | dsimp only | split

theorem keeps_sysMod : ∀ x0, Keeps b s0 (sysMod x0 s) := by
  intros
  exact keeps_mk h rfl rfl rfl rfl rfl rfl rfl

theorem keeps_afterReset : Keeps b s0 (afterReset s) := by
  exact ⟨h.pending, h.clock, h.serial, h.hwIssue, fun _ => Nat.zero_le _, fun _ => Nat.zero_le _, fun _ => Nat.zero_le _, fun _ => Nat.zero_le _,
    fun _ => Nat.zero_le _, h.slots, h.keys⟩

theorem keeps_keepQueue : Keeps b s0 (keepQueue s) := by
  exact keeps_mk h rfl rfl rfl rfl rfl rfl rfl

theorem keeps_holdReset : Keeps b s0 (holdReset s) := by
  unfold holdReset
  with_reducible repeat' first | assumption | apply keeps_sysMod | apply keeps_afterReset | apply keeps_keepQueue

theorem keeps_nodeReset : ∀ x0 x1, Keeps b s0 (nodeReset x0 x1 s) := by
  intros
  unfold nodeReset
  with_reducible repeat' first | assumption | apply keeps_freezeAll | apply keeps_sysMod | apply keeps_holdReset | apply keeps_afterReset | apply keeps_keepQueue | intro _ | apply keeps_ite | (refine keeps_mk ?_ rfl rfl rfl rfl rfl rfl rfl; first | assumption | apply keeps_freezeAll | apply keeps_sysMod | apply keeps_holdReset | apply keeps_afterReset | apply keeps_keepQueue | apply keeps_ite) | rfl | apply keeps_ite2 | apply keeps_ite3 | apply keeps_foldl | apply keeps_foldl2 | dsimp only | split | refine keeps_snd (by assumption) ?_ | refine keeps_thd (by assumption) ?_

theorem keeps_effLockstepFailure : Keeps b s0 (effLockstepFailure s) := by
  exact keeps_nodeReset h _ _

theorem keeps_effPartitionViolation : ∀ x0 x1, Keeps b s0 (effPartitionViolation x0 x1 s) := by
  intros
  unfold effPartitionViolation
  with_reducible repeat' first | assumption | apply keeps_nodeReset | apply keeps_ite | rfl

theorem keeps_effClockFailure : ∀ x0, Keeps b s0 (effClockFailure x0 s) := by
  intros
  unfold effClockFailure
  with_reducible repeat' first | assumption | apply keeps_effCrystalStop | apply keeps_nodeReset | intro _ | apply keeps_ite | refine keeps_mk (by assumption) rfl rfl rfl rfl rfl rfl rfl | rfl | split

theorem keeps_wdMod : ∀ x0 x1, Keeps b s0 (wdMod x0 x1 s) := by
  intros
  unfold wdMod
  with_reducible repeat' first | assumption | apply keeps_sysMod | intro _ | apply keeps_ite | refine keeps_mk (by assumption) rfl rfl rfl rfl rfl rfl rfl | rfl | split

theorem keeps_effWatchdogService : ∀ x0 x1, Keeps b s0 (effWatchdogService x0 x1 s) := by
  intros
  exact keeps_wdMod h _ _

theorem keeps_effWatchdogExpiry : ∀ x0, Keeps b s0 (effWatchdogExpiry x0 s) := by
  intros
  unfold effWatchdogExpiry
  with_reducible repeat' first | assumption | apply keeps_nodeReset | apply keeps_ite | rfl

theorem keeps_effVoteFailReset : Keeps b s0 (effVoteFailReset s) := by
  unfold effVoteFailReset
  with_reducible repeat' first | assumption | apply keeps_nodeReset | apply keeps_logBlock | intro _ | apply keeps_ite | refine keeps_mk (by assumption) rfl rfl rfl rfl rfl rfl rfl | rfl | split

theorem keeps_effEccUncorrReset : Keeps b s0 (effEccUncorrReset s) := by
  unfold effEccUncorrReset
  with_reducible repeat' first | assumption | apply keeps_nodeReset | apply keeps_logBlock | intro _ | apply keeps_ite | refine keeps_mk (by assumption) rfl rfl rfl rfl rfl rfl rfl | rfl | split

theorem keeps_eccRec : ∀ x0, Keeps b s0 (eccRec x0 s) := by
  intros
  exact keeps_blockRec h _ _ _ _

theorem keeps_defaultSetting : ∀ x0, Keeps b s0 (defaultSetting x0 s) := by
  intros
  unfold defaultSetting
  with_reducible repeat' first | assumption | apply keeps_storeMod | apply keeps_timMod | apply keeps_rcdMod | intro _ | apply keeps_ite | refine keeps_mk (by assumption) rfl rfl rfl rfl rfl rfl rfl | rfl | split

theorem keeps_corruptSlot : ∀ x0, Keeps b s0 (corruptSlot x0 s) := by
  intro k
  unfold corruptSlot
  split
  · exact h
  · split
    · exact h
    · exact ⟨h.pending, h.clock, h.serial, h.hwIssue, h.queue, h.cmds, h.windows, h.pend, h.kept, fun j x => isSome_put (h.slots j x), h.keys⟩

theorem keeps_uncorrAct : ∀ x0 x1, Keeps b s0 (uncorrAct x0 x1 s) := by
  intros
  unfold uncorrAct
  with_reducible repeat' first | assumption | apply keeps_sysMod | apply keeps_eccRec | apply keeps_pointSet | apply keeps_corruptSlot | apply keeps_storeMod | apply keeps_defaultSetting | apply keeps_request | apply keeps_dispMod | apply keeps_timMod | intro _ | apply keeps_ite | refine keeps_mk (by assumption) rfl rfl rfl rfl rfl rfl rfl | rfl | split

theorem keeps_eccLastSet : ∀ x0 x1 x2, Keeps b s0 (eccLastSet x0 x1 x2 s) := by
  intros
  exact keeps_sysMod h _

theorem keeps_endPass : ∀ x0, Keeps b s0 (endPass x0 s) := by
  intros
  unfold endPass
  with_reducible repeat' first | assumption | apply keeps_bump | apply keeps_sysMod

theorem keeps_writeBack : ∀ x0 x1 x2, Keeps b s0 (writeBack x0 x1 x2 s) := by
  intro m w v
  unfold writeBack
  split
  · split
    · exact keeps_pointSet h _ _
    · exact h
  · split
    · exact ⟨h.pending, h.clock, h.serial, h.hwIssue, h.queue, h.cmds, h.windows, h.pend, h.kept, fun j x => isSome_put (h.slots j x), h.keys⟩
    · exact h
  · split
    · exact keeps_dispMod rfl h
    · exact h
  · split
    · exact keeps_timMod h _
    · exact h
  · exact h

theorem keeps_effScrubRead : ∀ x0 x1 x2 x3 x4 x5, Keeps b s0 (effScrubRead x0 x1 x2 x3 x4 x5 s) := by
  intros
  unfold effScrubRead
  with_reducible repeat' first | assumption | apply keeps_writeBack | apply keeps_latch | apply keeps_bump | apply keeps_eccLastSet | apply keeps_uncorrAct | apply keeps_endPass | apply keeps_whenS | intro _ | apply keeps_ite | refine keeps_mk (by assumption) rfl rfl rfl rfl rfl rfl rfl | rfl | split

theorem keeps_effScrubBehind : ∀ x0, Keeps b s0 (effScrubBehind x0 s) := by
  intros
  exact keeps_sysMod h _

theorem keeps_rsqMod : ∀ x0 x1, Keeps b s0 (rsqMod x0 x1 s) := by
  intros
  exact keeps_mk h rfl rfl rfl rfl rfl rfl rfl

theorem keeps_effEventRegisterLatch : Keeps b s0 (effEventRegisterLatch s) := by
  exact keeps_mk h rfl rfl rfl rfl rfl rfl rfl

theorem keeps_effRsqClearWrite : ∀ x0 x1 x2, Keeps b s0 (effRsqClearWrite x0 x1 x2 s) := by
  intros
  unfold effRsqClearWrite
  with_reducible repeat' first | assumption | apply keeps_rsqMod | apply keeps_whenS | intro _ | apply keeps_ite | rfl

theorem keeps_setLock : Keeps b s0 (setLock s) := by
  exact keeps_sysMod h _

theorem keeps_effLockSet : ∀ x0, Keeps b s0 (effLockSet x0 s) := by
  intros
  unfold effLockSet
  with_reducible repeat' first | assumption | apply keeps_setLock | apply keeps_whenS

theorem keeps_effLockPolicyTimer : Keeps b s0 (effLockPolicyTimer s) := by
  unfold effLockPolicyTimer
  with_reducible repeat' first | assumption | apply keeps_setLock | apply keeps_whenS

theorem keeps_snapMod : ∀ x0, Keeps b s0 (snapMod x0 s) := by
  intros
  exact keeps_sysMod h _

theorem keeps_effSnapshotStart : Keeps b s0 (effSnapshotStart s) := by
  unfold effSnapshotStart
  with_reducible repeat' first | assumption | apply keeps_latch | apply keeps_bump | apply keeps_drawn | apply keeps_snapMod | intro _ | apply keeps_ite | rfl

theorem keeps_effSnapshotComplete : Keeps b s0 (effSnapshotComplete s) := by
  unfold effSnapshotComplete
  with_reducible repeat' first | assumption | apply keeps_snapMod | intro _ | apply keeps_ite | rfl

theorem keeps_effSnapshotAbort : ∀ x0, Keeps b s0 (effSnapshotAbort x0 s) := by
  intros
  unfold effSnapshotAbort
  with_reducible repeat' first | assumption | apply keeps_latch | apply keeps_snapMod | apply keeps_effSnapshotComplete | intro _ | apply keeps_ite | rfl

theorem keeps_bankMod : ∀ x0 x1, Keeps b s0 (bankMod x0 x1 s) := by
  intros
  unfold bankMod
  with_reducible repeat' first | assumption | apply keeps_storeMod | intro _ | apply keeps_ite | refine keeps_mk (by assumption) rfl rfl rfl rfl rfl rfl rfl | rfl | split

theorem keeps_putCkpt : ∀ x0, Keeps b s0 (putCkpt x0 s) := by
  intros
  unfold putCkpt
  with_reducible repeat' first | assumption | apply keeps_storeMod | intro _ | apply keeps_ite | rfl

theorem keeps_writeCkpt : Keeps b s0 (writeCkpt s) := by
  exact keeps_putCkpt h _

theorem keeps_effCheckpointSecond : Keeps b s0 (effCheckpointSecond s) := by
  unfold effCheckpointSecond
  with_reducible repeat' first | assumption | apply keeps_writeCkpt | apply keeps_ite | rfl

theorem keeps_effOpSecondsTick : Keeps b s0 (effOpSecondsTick s) := by
  unfold effOpSecondsTick
  with_reducible repeat' first | assumption | apply keeps_storeMod | intro _ | apply keeps_ite | rfl

theorem keeps_effFlaconRemoved : Keeps b s0 (effFlaconRemoved s) := by
  unfold effFlaconRemoved
  with_reducible repeat' first | assumption | apply keeps_latch | apply keeps_blockRec | apply keeps_whenS | intro _ | apply keeps_ite | refine keeps_mk (by assumption) rfl rfl rfl rfl rfl rfl rfl | rfl

theorem keeps_effFlaconInserted : ∀ x0 x1, Keeps b s0 (effFlaconInserted x0 x1 s) := by
  intros
  exact keeps_mk h rfl rfl rfl rfl rfl rfl rfl

theorem keeps_supMod : ∀ x0, Keeps b s0 (supMod x0 s) := by
  intros
  exact keeps_mk h rfl rfl rfl rfl rfl rfl rfl

theorem keeps_supRise : ∀ x0 x1 x2, Keeps b s0 (supRise x0 x1 x2 s) := by
  intros
  unfold supRise
  with_reducible repeat' first | assumption | apply keeps_blockRec | apply keeps_latch | apply keeps_ite | rfl

theorem keeps_effMainsLost : ∀ x0, Keeps b s0 (effMainsLost x0 s) := by
  intros
  unfold effMainsLost
  with_reducible repeat' first | assumption | apply keeps_supMod | apply keeps_refreshTracks | apply keeps_supRise | intro _ | apply keeps_ite | rfl

theorem keeps_effMainsLostClear : Keeps b s0 (effMainsLostClear s) := by
  exact keeps_supMod h _

theorem keeps_judgeLow : ∀ x0, Keeps b s0 (judgeLow x0 s) := by
  intros
  unfold judgeLow
  with_reducible repeat' first | assumption | apply keeps_supRise | apply keeps_supMod | apply keeps_whenS | intro _ | apply keeps_ite | rfl

theorem keeps_judgeFreq : ∀ x0, Keeps b s0 (judgeFreq x0 s) := by
  intros
  unfold judgeFreq
  with_reducible repeat' first | assumption | apply keeps_supMod | apply keeps_supRise | apply keeps_refreshTracks | apply keeps_whenS | intro _ | apply keeps_ite | (refine keeps_mk ?_ rfl rfl rfl rfl rfl rfl rfl; first | assumption | apply keeps_supMod | apply keeps_supRise | apply keeps_refreshTracks | apply keeps_whenS | apply keeps_ite) | rfl | apply keeps_ite2 | apply keeps_ite3 | apply keeps_foldl | apply keeps_foldl2 | dsimp only | split | refine keeps_snd (by assumption) ?_ | refine keeps_thd (by assumption) ?_

theorem keeps_effMainsCycleEnd : ∀ x0 x1 x2, Keeps b s0 (effMainsCycleEnd x0 x1 x2 s) := by
  intros
  unfold effMainsCycleEnd
  with_reducible repeat' first | assumption | apply keeps_judgeFreq | apply keeps_judgeLow | apply keeps_whenS | intro _ | apply keeps_ite | rfl

theorem keeps_effRideThroughEnd : Keeps b s0 (effRideThroughEnd s) := by
  unfold effRideThroughEnd
  with_reducible repeat' first | assumption | apply keeps_supRise | apply keeps_bump | apply keeps_supMod | intro _ | apply keeps_ite | rfl

theorem keeps_dryDisplay : ∀ x0, Keeps b s0 (dryDisplay x0 s) := by
  intro bus
  unfold dryDisplay
  refine keeps_eachS (fun _ _ ht => keeps_ite ht (keeps_abortSlot ht _ _)) ?_
  exact keeps_noPend rfl (keeps_supMod h _)

theorem keeps_dryMarkers : Keeps b s0 (dryMarkers s) := by
  unfold dryMarkers
  with_reducible repeat' first | assumption | apply keeps_storeMod | intro _ | apply keeps_ite | rfl

theorem keeps_sendNotices : ∀ x0, Keeps b s0 (sendNotices x0 s) := by
  intros
  unfold sendNotices
  with_reducible repeat' first | assumption | apply keeps_sendLocal | apply keeps_whenS | apply keeps_eachS | intro _ | apply keeps_ite | rfl

theorem keeps_dryLink : ∀ x0, Keeps b s0 (dryLink x0 s) := by
  intros
  unfold dryLink
  with_reducible repeat' first | assumption | apply keeps_bump | apply keeps_linkMod | apply keeps_flushLink | apply keeps_loseTwoWay | apply keeps_whenS | intro _ | apply keeps_ite | rfl

theorem keeps_publishHeld : Keeps b s0 (publishHeld s) := by
  unfold publishHeld
  with_reducible repeat' first | assumption | apply keeps_refreshAll | apply keeps_writeQuality | apply keeps_eachS | intro _ | apply keeps_ite | rfl

theorem keeps_saveCounters : Keeps b s0 (saveCounters s) := by
  unfold saveCounters
  with_reducible repeat' first | assumption | apply keeps_storeMod | intro _ | apply keeps_ite | rfl

theorem keeps_dryLog : ∀ x0, Keeps b s0 (dryLog x0 s) := by
  intros
  unfold dryLog
  with_reducible repeat' first | assumption | apply keeps_drainQueue | apply keeps_effLogIndexRebuild | apply keeps_closeLog | apply keeps_writeRecord | apply keeps_ite | rfl

theorem keeps_stopPlanes : Keeps b s0 (stopPlanes s) := by
  unfold stopPlanes
  with_reducible repeat' first | assumption | apply keeps_placeEnd | apply keeps_ite | refine keeps_mk (by assumption) rfl rfl rfl rfl rfl rfl rfl | rfl

theorem keeps_resumeNode : Keeps b s0 (resumeNode s) := by
  unfold resumeNode
  with_reducible repeat' first | assumption | apply keeps_placeBegin | apply keeps_doRefreshAll | apply keeps_fixTakeUp | apply keeps_arUpdateAll | apply keeps_refreshAll | apply keeps_eachS | intro _ | apply keeps_ite | refine keeps_mk (by assumption) rfl rfl rfl rfl rfl rfl rfl | rfl | apply keeps_foldl | apply keeps_ite2 | dsimp only | split

theorem keeps_cancelActivation : Keeps b s0 (cancelActivation s) := by
  unfold cancelActivation
  with_reducible repeat' first | assumption | apply keeps_resumeNode | apply keeps_ite | refine keeps_mk (by assumption) rfl rfl rfl rfl rfl rfl rfl | rfl

theorem keeps_effDrydownTrigger : ∀ x0 x1 x2, Keeps b s0 (effDrydownTrigger x0 x1 x2 s) := by
  intros
  unfold effDrydownTrigger
  with_reducible repeat' first | assumption | apply keeps_cancelActivation | apply keeps_drawn | apply keeps_supMod | apply keeps_storeMod | apply keeps_freezeAll | apply keeps_sysMod | apply keeps_publishHeld | apply keeps_arUpdateAll | apply keeps_dryMarkers | apply keeps_dryDisplay | apply keeps_releaseOwn | apply keeps_pbClose | apply keeps_sendNotices | apply keeps_dryLink | apply keeps_putCkpt | apply keeps_stopPlanes | apply keeps_saveCounters | apply keeps_dryLog | apply keeps_dispMod | apply keeps_whenS | apply keeps_eachS | intro _ | apply keeps_ite | (refine keeps_mk ?_ rfl rfl rfl rfl rfl rfl rfl; first | assumption | apply keeps_cancelActivation | apply keeps_drawn | apply keeps_supMod | apply keeps_storeMod | apply keeps_freezeAll | apply keeps_sysMod | apply keeps_publishHeld | apply keeps_arUpdateAll | apply keeps_dryMarkers | apply keeps_dryDisplay | apply keeps_releaseOwn | apply keeps_pbClose | apply keeps_sendNotices | apply keeps_dryLink | apply keeps_putCkpt | apply keeps_stopPlanes | apply keeps_saveCounters | apply keeps_dryLog | apply keeps_dispMod | apply keeps_whenS | apply keeps_eachS | apply keeps_ite) | rfl | apply keeps_ite2 | apply keeps_ite3 | apply keeps_foldl | apply keeps_foldl2 | dsimp only | split | refine keeps_snd (by assumption) ?_ | refine keeps_thd (by assumption) ?_

theorem keeps_effDrydownGuard : ∀ x0, Keeps b s0 (effDrydownGuard x0 s) := by
  intros
  unfold effDrydownGuard
  with_reducible repeat' first | assumption | apply keeps_abortSlot | apply keeps_supMod | apply keeps_eachS | intro _ | apply keeps_ite | rfl

theorem keeps_effDrydownComplete : ∀ x0 x1, Keeps b s0 (effDrydownComplete x0 x1 s) := by
  intros
  unfold effDrydownComplete
  with_reducible repeat' first | assumption | apply keeps_storeMod | apply keeps_supMod | apply keeps_bump | apply keeps_holdReset | intro _ | apply keeps_ite | rfl

theorem keeps_effDrydownAbandon : ∀ x0, Keeps b s0 (effDrydownAbandon x0 s) := by
  intros
  unfold effDrydownAbandon
  with_reducible repeat' first | assumption | apply keeps_holdReset | apply keeps_supMod | intro _ | apply keeps_ite | rfl

theorem keeps_effRestartRelease : Keeps b s0 (effRestartRelease s) := by
  unfold effRestartRelease
  with_reducible repeat' first | assumption | apply keeps_sysMod | apply keeps_supMod | intro _ | apply keeps_ite | rfl

theorem keeps_effSupplyCollapse : Keeps b s0 (effSupplyCollapse s) := by
  unfold effSupplyCollapse
  with_reducible repeat' first | assumption | apply keeps_holdReset | apply keeps_freezeAll | apply keeps_sysMod | apply keeps_supMod | intro _ | apply keeps_ite | rfl

theorem keeps_effFieldSupplyMonitor : ∀ x0 x1 x2 x3 x4, Keeps b s0 (effFieldSupplyMonitor x0 x1 x2 x3 x4 s) := by
  intros
  unfold effFieldSupplyMonitor
  with_reducible repeat' first | assumption | apply keeps_supplyMod | apply keeps_supRise | apply keeps_fixRelease | apply keeps_fixTrack | apply keeps_doRefresh | apply keeps_whenS | apply keeps_eachS | intro _ | apply keeps_ite | rfl

end Sys2Proof.Laws
end

