-- ==== Sys2Proof/Laws/KeepsService.lean ====
section
/-! SUPPORT. Laws/KeepsService.lean: what each operation keeps: starts, the register map, the service port and updates. -/
namespace Sys2Proof.Laws

open Sys2Proof.Machine

variable {b : Bool} {s0 s : State} (h : Keeps b s0 s)
include h

theorem keeps_updRec : ∀ x0 x1, Keeps b s0 (updRec x0 x1 s) := by
  intros
  exact keeps_blockRec h _ _ _ _

theorem keeps_sysRec : ∀ x0 x1, Keeps b s0 (sysRec x0 x1 s) := by
  intros
  exact keeps_blockRec h _ _ _ _

theorem keeps_zeroCounters : Keeps b s0 (zeroCounters s) := by
  exact keeps_mk h rfl rfl rfl rfl rfl rfl rfl

theorem keeps_carryLost : Keeps b s0 (carryLost s) := by
  exact keeps_mk h rfl rfl rfl rfl rfl rfl rfl

theorem keeps_notePrior : Keeps b s0 (notePrior s) := by
  unfold notePrior
  with_reducible repeat' first | assumption | apply keeps_latch | apply keeps_storeMod | apply keeps_bump | apply keeps_supMod | intro _ | apply keeps_ite | refine keeps_mk (by assumption) rfl rfl rfl rfl rfl rfl rfl | rfl | split

theorem keeps_countStart : Keeps b s0 (countStart s) := by
  unfold countStart
  with_reducible repeat' first | assumption | apply keeps_sysMod | apply keeps_storeMod | intro _ | apply keeps_ite | rfl

theorem keeps_startZero : Keeps b s0 (startZero s) := by
  unfold startZero
  with_reducible repeat' first | assumption | apply keeps_countStart | apply keeps_notePrior | apply keeps_carryLost | apply keeps_zeroCounters

theorem keeps_restoreBefore : Keeps b s0 (restoreBefore s) := by
  unfold restoreBefore
  with_reducible repeat' first | assumption | apply keeps_timMod | apply keeps_storeMod | intro _ | apply keeps_ite | refine keeps_mk (by assumption) rfl rfl rfl rfl rfl rfl rfl | rfl | split

theorem keeps_rollback : Keeps b s0 (rollback s) := by
  unfold rollback
  with_reducible repeat' first | assumption | apply keeps_updRec | apply keeps_latch | apply keeps_restoreBefore | apply keeps_storeMod | intro _ | apply keeps_ite | rfl

theorem keeps_setBank : ∀ x0 x1, Keeps b s0 (setBank x0 x1 s) := by
  intros
  exact keeps_bankMod h _ _

theorem keeps_dropLoading : ∀ x0, Keeps b s0 (dropLoading x0 s) := by
  intros
  unfold dropLoading
  with_reducible repeat' first | assumption | apply keeps_bankMod | intro _ | apply keeps_ite | rfl

theorem keeps_trialStart : Keeps b s0 (trialStart s).2 := by
  unfold trialStart
  with_reducible repeat' first | assumption | apply keeps_storeMod | apply keeps_rollback | apply keeps_setBank | intro _ | apply keeps_ite | refine keeps_mk (by assumption) rfl rfl rfl rfl rfl rfl rfl | rfl | apply keeps_foldl | apply keeps_ite2 | dsimp only | split

theorem keeps_selectBank : ∀ x0, Keeps b s0 (selectBank x0 s).2 := by
  intros
  unfold selectBank
  with_reducible repeat' first | assumption | apply keeps_trialStart | apply keeps_setBank | apply keeps_rollback | intro _ | apply keeps_ite | refine keeps_mk (by assumption) rfl rfl rfl rfl rfl rfl rfl | rfl | apply keeps_foldl | apply keeps_ite2 | dsimp only | split

theorem keeps_bootImage : ∀ x0, Keeps b s0 (bootImage x0 s).2 := by
  intros
  unfold bootImage
  with_reducible repeat' first | assumption | apply keeps_selectBank | apply keeps_dropLoading | apply keeps_storeMod | intro _ | apply keeps_ite | (refine keeps_mk ?_ rfl rfl rfl rfl rfl rfl rfl; first | assumption | apply keeps_selectBank | apply keeps_dropLoading | apply keeps_storeMod | apply keeps_ite) | rfl | apply keeps_ite2 | apply keeps_ite3 | apply keeps_foldl | apply keeps_foldl2 | dsimp only | split | refine keeps_snd (by assumption) ?_ | refine keeps_thd (by assumption) ?_

theorem keeps_resetSetting : ∀ x0, Keeps b s0 (resetSetting x0 s) := by
  intros
  unfold resetSetting
  with_reducible repeat' first | assumption | apply keeps_sysRec | apply keeps_defaultSetting

theorem keeps_migrateOne : ∀ x0 x1, Keeps b s0 (migrateOne x0 x1 s) := by
  intros
  unfold migrateOne
  with_reducible repeat' first | assumption | apply keeps_resetSetting | apply keeps_storeMod | intro _ | apply keeps_ite | rfl

theorem keeps_migrate : Keeps b s0 (migrate s) := by
  unfold migrate
  with_reducible repeat' first | assumption | apply keeps_storeMod | apply keeps_migrateOne | apply keeps_eachS | intro _ | apply keeps_ite | rfl

theorem keeps_loadTrim : Keeps b s0 (loadTrim s) := by
  exact keeps_timMod h _

theorem keeps_loadDisplay : Keeps b s0 (loadDisplay s) := by
  unfold loadDisplay
  with_reducible repeat' first | assumption | apply keeps_dispMod | apply keeps_railsUp | intro _ | apply keeps_ite | rfl

theorem keeps_portUp : Keeps b s0 (portUp s) := by
  exact keeps_mk h rfl rfl rfl rfl rfl rfl rfl

theorem keeps_noteHoldEnd : ∀ x0, Keeps b s0 (noteHoldEnd x0 s) := by
  intros
  unfold noteHoldEnd
  with_reducible repeat' first | assumption | apply keeps_blockRec | apply keeps_latch | apply keeps_doMod | intro _ | apply keeps_ite | rfl

theorem keeps_startStore : Keeps b s0 (startStore s) := by
  unfold startStore
  with_reducible repeat' first | assumption | apply keeps_noteHoldEnd | apply keeps_portUp | apply keeps_loadDisplay | apply keeps_loadTrim | apply keeps_migrate | apply keeps_eachS | intro _ | apply keeps_ite | rfl

theorem keeps_showPage : ∀ x0, Keeps b s0 (showPage x0 s) := by
  intros
  unfold showPage
  with_reducible repeat' first | assumption | apply keeps_dispMod | apply keeps_request | apply keeps_drawRect | intro _ | apply keeps_ite | rfl

theorem keeps_applyPolicy : ∀ x0, Keeps b s0 (applyPolicy x0 s) := by
  intros
  unfold applyPolicy
  with_reducible repeat' first | assumption | apply keeps_sysMod | apply keeps_setLock | apply keeps_whenS

theorem keeps_startRecorder : Keeps b s0 (startRecorder s) := by
  unfold startRecorder
  with_reducible repeat' first | assumption | apply keeps_flushDue | apply keeps_rcdMod | intro _ | apply keeps_ite | rfl

theorem keeps_startRecord : Keeps b s0 (startRecord s) := by
  unfold startRecord
  with_reducible repeat' first | assumption | apply keeps_rcdMod | intro _ | apply keeps_ite | rfl

theorem keeps_setReason : ∀ x0, Keeps b s0 (setReason x0 s) := by
  intros
  exact keeps_mk h rfl rfl rfl rfl rfl rfl rfl

theorem keeps_enterSafeIdle : ∀ x0 x1, Keeps b s0 (enterSafeIdle x0 x1 s) := by
  intros
  unfold enterSafeIdle
  with_reducible repeat' first | assumption | apply keeps_sysMod | apply keeps_setReason | apply keeps_fixRelease | apply keeps_arUpdateAll | apply keeps_startRecorder | apply keeps_applyPolicy | apply keeps_emit | apply keeps_startRecord | apply keeps_showPage | apply keeps_eachS | intro _ | apply keeps_ite | refine keeps_mk (by assumption) rfl rfl rfl rfl rfl rfl rfl | rfl

theorem keeps_enterRecovery : Keeps b s0 (enterRecovery s) := by
  unfold enterRecovery
  with_reducible repeat' first | assumption | apply keeps_sysMod | apply keeps_fixRelease | apply keeps_showPage | apply keeps_portUp | apply keeps_eachS | intro _ | apply keeps_ite | rfl

theorem keeps_loadConfig : ∀ x0 x1, Keeps b s0 (loadConfig x0 x1 s) := by
  intros
  unfold loadConfig
  with_reducible repeat' first | assumption | apply keeps_triSet | apply keeps_regSet | apply keeps_dispMod | apply keeps_storeMod | apply keeps_eachS | intro _ | apply keeps_ite | refine keeps_mk (by assumption) rfl rfl rfl rfl rfl rfl rfl | rfl

theorem keeps_noteUndefined : ∀ x0, Keeps b s0 (noteUndefined x0 s) := by
  intros
  unfold noteUndefined
  with_reducible repeat' first | assumption | apply keeps_undef | apply keeps_whenS | apply keeps_eachS | intro _ | apply keeps_ite | rfl

theorem keeps_restoreCkpt : Keeps b s0 (restoreCkpt s) := by
  unfold restoreCkpt
  with_reducible repeat' first | assumption | apply keeps_storeMod | apply keeps_sysRec | intro _ | apply keeps_ite | (refine keeps_mk ?_ rfl rfl rfl rfl rfl rfl rfl; first | assumption | apply keeps_storeMod | apply keeps_sysRec | apply keeps_ite) | rfl | apply keeps_ite2 | apply keeps_ite3 | apply keeps_foldl | apply keeps_foldl2 | dsimp only | split | refine keeps_snd (by assumption) ?_ | refine keeps_thd (by assumption) ?_

theorem keeps_startOutput : ∀ x0, Keeps b s0 (startOutput x0 s) := by
  intros
  unfold startOutput
  with_reducible repeat' first | assumption | apply keeps_fixRelease | apply keeps_fixTakeUp | apply keeps_doMod | apply keeps_fixTrack | intro _ | apply keeps_ite | rfl

theorem keeps_startChannels : Keeps b s0 (startChannels s) := by
  unfold startChannels
  with_reducible repeat' first | assumption | apply keeps_restartChan | apply keeps_refreshTracks | apply keeps_eachS | intro _ | apply keeps_ite | rfl

theorem keeps_startLinks : Keeps b s0 (startLinks s) := by
  unfold startLinks
  with_reducible repeat' first | assumption | apply keeps_triSet | apply keeps_linkMod | apply keeps_eachS | intro _ | apply keeps_ite | (refine keeps_mk ?_ rfl rfl rfl rfl rfl rfl rfl; first | assumption | apply keeps_triSet | apply keeps_linkMod | apply keeps_eachS | apply keeps_ite) | rfl | apply keeps_ite2 | apply keeps_ite3 | apply keeps_foldl | apply keeps_foldl2 | dsimp only | split | refine keeps_snd (by assumption) ?_ | refine keeps_thd (by assumption) ?_

theorem keeps_startFabTime : Keeps b s0 (startFabTime s) := by
  exact keeps_mk h rfl rfl rfl rfl rfl rfl rfl

theorem keeps_beginSelftest : Keeps b s0 (beginSelftest s) := by
  unfold beginSelftest
  with_reducible repeat' first | assumption | apply keeps_effHealthWordUpdate | apply keeps_linkMod | apply keeps_pairSet | apply keeps_whenS | intro _ | apply keeps_ite | rfl

theorem keeps_startPair : ∀ x0 x1, Keeps b s0 (startPair x0 x1 s) := by
  intros
  unfold startPair
  with_reducible repeat' first | assumption | apply keeps_pairSet | apply keeps_enterStandby | apply keeps_fixRelease | apply keeps_latch | apply keeps_effHealthWordUpdate | apply keeps_eachS | intro _ | apply keeps_ite | rfl

theorem keeps_startSingle : Keeps b s0 (startSingle s) := by
  unfold startSingle
  with_reducible repeat' first | assumption | apply keeps_startOutput | apply keeps_startChannels | apply keeps_arUpdateAll | apply keeps_eachS | intro _ | apply keeps_ite | (refine keeps_mk ?_ rfl rfl rfl rfl rfl rfl rfl; first | assumption | apply keeps_startOutput | apply keeps_startChannels | apply keeps_arUpdateAll | apply keeps_eachS | apply keeps_ite) | rfl | apply keeps_ite2 | apply keeps_ite3 | apply keeps_foldl | apply keeps_foldl2 | dsimp only | split | refine keeps_snd (by assumption) ?_ | refine keeps_thd (by assumption) ?_

theorem keeps_goLive : ∀ x0 x1 x2 x3, Keeps b s0 (goLive x0 x1 x2 x3 s) := by
  intros
  unfold goLive
  with_reducible repeat' first | assumption | apply keeps_noteUndefined | apply keeps_loadConfig | apply keeps_setReason | apply keeps_startFabTime | apply keeps_sysMod | apply keeps_startRecord | apply keeps_startRecorder | apply keeps_beginSelftest | intro _ | apply keeps_ite | (refine keeps_mk ?_ rfl rfl rfl rfl rfl rfl rfl; first | assumption | apply keeps_noteUndefined | apply keeps_loadConfig | apply keeps_setReason | apply keeps_startFabTime | apply keeps_sysMod | apply keeps_startRecord | apply keeps_startRecorder | apply keeps_beginSelftest | apply keeps_ite) | rfl | apply keeps_ite2 | apply keeps_ite3 | apply keeps_foldl | apply keeps_foldl2 | dsimp only | split | refine keeps_snd (by assumption) ?_ | refine keeps_thd (by assumption) ?_

theorem keeps_endStart : ∀ x0, Keeps b s0 (endStart x0 s) := by
  intros
  unfold endStart
  with_reducible repeat' first | assumption | apply keeps_sysMod | apply keeps_restoreCkpt | apply keeps_startPair | apply keeps_startSingle | apply keeps_placeBegin | apply keeps_startLinks | apply keeps_pbJoin | apply keeps_showPage | apply keeps_applyPolicy | intro _ | apply keeps_ite | (refine keeps_mk ?_ rfl rfl rfl rfl rfl rfl rfl; first | assumption | apply keeps_sysMod | apply keeps_restoreCkpt | apply keeps_startPair | apply keeps_startSingle | apply keeps_placeBegin | apply keeps_startLinks | apply keeps_pbJoin | apply keeps_showPage | apply keeps_applyPolicy | apply keeps_ite) | rfl | apply keeps_ite2 | apply keeps_ite3 | apply keeps_foldl | apply keeps_foldl2 | dsimp only | split | refine keeps_snd (by assumption) ?_ | refine keeps_thd (by assumption) ?_

theorem keeps_noteHeader : ∀ x0, Keeps b s0 (noteHeader x0 s) := by
  intros
  unfold noteHeader
  with_reducible repeat' first | assumption | apply keeps_storeMod | intro _ | apply keeps_ite | refine keeps_mk (by assumption) rfl rfl rfl rfl rfl rfl rfl | rfl | split

theorem keeps_runPlug : ∀ x0 x1, Keeps b s0 (runPlug x0 x1 s) := by
  intros
  unfold runPlug
  with_reducible repeat' first | assumption | apply keeps_enterSafeIdle | apply keeps_noteHeader | apply keeps_effFlaconRemoved | apply keeps_goLive | apply keeps_endStart | apply keeps_whenS | intro _ | apply keeps_ite | refine keeps_mk (by assumption) rfl rfl rfl rfl rfl rfl rfl | rfl | apply keeps_foldl | apply keeps_ite2 | dsimp only | split

theorem keeps_effStartSequence : ∀ x0, Keeps b s0 (effStartSequence x0 s) := by
  intros
  unfold effStartSequence
  with_reducible repeat' first | assumption | apply keeps_endStart | apply keeps_bootImage | apply keeps_startZero | apply keeps_runPlug | apply keeps_startStore | apply keeps_enterRecovery | intro _ | apply keeps_ite | (refine keeps_mk ?_ rfl rfl rfl rfl rfl rfl rfl; first | assumption | apply keeps_endStart | apply keeps_bootImage | apply keeps_startZero | apply keeps_runPlug | apply keeps_startStore | apply keeps_enterRecovery | apply keeps_ite) | rfl | apply keeps_ite2 | apply keeps_ite3 | apply keeps_foldl | apply keeps_foldl2 | dsimp only | split | refine keeps_snd (by assumption) ?_ | refine keeps_thd (by assumption) ?_

theorem keeps_effFlaconRetry : ∀ x0, Keeps b s0 (effFlaconRetry x0 s) := by
  intros
  unfold effFlaconRetry
  with_reducible repeat' first | assumption | apply keeps_runPlug | apply keeps_ite | rfl

theorem keeps_addrMiss : Keeps b s0 (addrMiss s) := by
  unfold addrMiss
  with_reducible repeat' first | assumption | apply keeps_latch | apply keeps_bump

theorem keeps_readEffect : ∀ x0, Keeps b s0 (readEffect x0 s) := by
  intros
  unfold readEffect
  with_reducible repeat' first | assumption | apply keeps_effTimeFracRead | apply keeps_voteUse | apply keeps_useEnable | apply keeps_ite | refine keeps_mk (by assumption) rfl rfl rfl rfl rfl rfl rfl | rfl

theorem keeps_readAfter : ∀ x0, Keeps b s0 (readAfter x0 s) := by
  intros
  unfold readAfter
  with_reducible repeat' first | assumption | apply keeps_effTimeSecHiRead | apply keeps_ite | rfl

theorem keeps_readFree : Keeps b s0 (readFree s).2 := by
  exact keeps_drawn h _

theorem keeps_readReg : ∀ x0, Keeps b s0 (readReg x0 s).2 := by
  intros
  unfold readReg
  with_reducible repeat' first | assumption | apply keeps_readFree | apply keeps_undef | apply keeps_readEffect | apply keeps_addrMiss | apply keeps_readAfter | intro _ | apply keeps_ite | refine keeps_mk (by assumption) rfl rfl rfl rfl rfl rfl rfl | rfl | apply keeps_foldl | apply keeps_ite2 | dsimp only | split

theorem keeps_updMod : ∀ x0, Keeps b s0 (updMod x0 s) := by
  intros
  exact keeps_mk h rfl rfl rfl rfl rfl rfl rfl

theorem keeps_activationLog : Keeps b s0 (activationLog s) := by
  unfold activationLog
  with_reducible repeat' first | assumption | apply keeps_closeLog | apply keeps_logBlock | apply keeps_drainQueue | apply keeps_effLogIndexRebuild | apply keeps_ite | rfl

theorem keeps_activationSteps : Keeps b s0 (activationSteps s) := by
  unfold activationSteps
  with_reducible repeat' first | assumption | apply keeps_arUpdateAll | apply keeps_publishHeld | apply keeps_putCkpt | apply keeps_stopPlanes | apply keeps_saveCounters | apply keeps_sendNotices | apply keeps_activationLog | apply keeps_whenS | intro _ | apply keeps_ite | refine keeps_mk (by assumption) rfl rfl rfl rfl rfl rfl rfl | rfl

theorem keeps_acceptActivate : Keeps b s0 (acceptActivate s) := by
  unfold acceptActivate
  with_reducible repeat' first | assumption | apply keeps_latch | apply keeps_updMod | apply keeps_activationSteps | apply keeps_bump | intro _ | apply keeps_ite | refine keeps_mk (by assumption) rfl rfl rfl rfl rfl rfl rfl | rfl | split

theorem keeps_writeActivate : Keeps b s0 (writeActivate s) := by
  unfold writeActivate
  with_reducible repeat' first | assumption | apply keeps_acceptActivate | apply keeps_lockGuard | apply keeps_ite | rfl

theorem keeps_commitActivation : Keeps b s0 (commitActivation s) := by
  unfold commitActivation
  with_reducible repeat' first | assumption | apply keeps_nodeReset | apply keeps_storeMod | intro _ | apply keeps_ite | rfl

theorem keeps_effUpdActivate : ∀ x0, Keeps b s0 (effUpdActivate x0 s) := by
  intros
  unfold effUpdActivate
  with_reducible repeat' first | assumption | apply keeps_writeActivate | apply keeps_commitActivation | apply keeps_ite | rfl

theorem keeps_emptyLoading : Keeps b s0 (emptyLoading s) := by
  exact keeps_bankMod h _ _

theorem keeps_endLoad : Keeps b s0 (endLoad s) := by
  unfold endLoad
  with_reducible repeat' first | assumption | apply keeps_emptyLoading | apply keeps_updMod

theorem keeps_abortUpdate : Keeps b s0 (abortUpdate s) := by
  unfold abortUpdate
  with_reducible repeat' first | assumption | apply keeps_endLoad | apply keeps_cancelActivation | intro _ | apply keeps_ite | refine keeps_mk (by assumption) rfl rfl rfl rfl rfl rfl rfl | rfl | split

theorem keeps_effUpdAbort : ∀ x0, Keeps b s0 (effUpdAbort x0 s) := by
  intros
  unfold effUpdAbort
  with_reducible repeat' first | assumption | apply keeps_latch | apply keeps_bump | apply keeps_abortUpdate | apply keeps_ite | rfl

theorem keeps_effUpdSessionTimeout : Keeps b s0 (effUpdSessionTimeout s) := by
  unfold effUpdSessionTimeout
  with_reducible repeat' first | assumption | apply keeps_abortUpdate | apply keeps_ite | rfl

theorem keeps_effTrialConfirm : Keeps b s0 (effTrialConfirm s) := by
  unfold effTrialConfirm
  with_reducible repeat' first | assumption | apply keeps_latch | apply keeps_updMod | apply keeps_storeMod | apply keeps_bankMod | intro _ | apply keeps_ite | rfl

theorem keeps_writeBlock : ∀ x0 x1 x2, Keeps b s0 (writeBlock x0 x1 x2 s) := by
  intros
  unfold writeBlock
  with_reducible repeat' first | assumption | apply keeps_bankMod | apply keeps_updMod

theorem keeps_failBlock : ∀ x0 x1, Keeps b s0 (failBlock x0 x1 s) := by
  intros
  unfold failBlock
  with_reducible repeat' first | assumption | apply keeps_bump | apply keeps_updMod

theorem keeps_writeSnap : ∀ x0, Keeps b s0 (writeSnap x0 s) := by
  intros
  unfold writeSnap
  with_reducible repeat' first | assumption | apply keeps_effSnapshotAbort | apply keeps_effSnapshotStart | apply keeps_whenS | intro _ | apply keeps_ite | rfl

theorem keeps_writeAlmCmd : ∀ x0, Keeps b s0 (writeAlmCmd x0 s) := by
  intros
  unfold writeAlmCmd
  with_reducible repeat' first | assumption | apply keeps_queueCmd | apply keeps_undef | intro _ | apply keeps_ite | refine keeps_mk (by assumption) rfl rfl rfl rfl rfl rfl rfl | rfl | split

theorem keeps_writeAdmit : ∀ x0 x1, Keeps b s0 (writeAdmit x0 x1 s) := by
  intros
  unfold writeAdmit
  with_reducible repeat' first | assumption | apply keeps_undef | apply keeps_pbMod | apply keeps_whenS | intro _ | apply keeps_ite | rfl

theorem keeps_writeRole : ∀ x0, Keeps b s0 (writeRole x0 s) := by
  intros
  unfold writeRole
  with_reducible repeat' first | assumption | apply keeps_lockGuard | apply keeps_triSet | apply keeps_voteUse | apply keeps_undef | apply keeps_whenS | intro _ | apply keeps_ite | (refine keeps_mk ?_ rfl rfl rfl rfl rfl rfl rfl; first | assumption | apply keeps_lockGuard | apply keeps_triSet | apply keeps_voteUse | apply keeps_undef | apply keeps_whenS | apply keeps_ite) | rfl | apply keeps_ite2 | apply keeps_ite3 | apply keeps_foldl | apply keeps_foldl2 | dsimp only | split | refine keeps_snd (by assumption) ?_ | refine keeps_thd (by assumption) ?_

theorem keeps_writeTrim : ∀ x0, Keeps b s0 (writeTrim x0 s) := by
  intros
  unfold writeTrim
  with_reducible repeat' first | assumption | apply keeps_lockGuard | apply keeps_undef | apply keeps_timMod | apply keeps_storeMod | apply keeps_whenS | intro _ | apply keeps_ite | rfl

theorem keeps_writeVcom : ∀ x0, Keeps b s0 (writeVcom x0 s) := by
  intros
  unfold writeVcom
  with_reducible repeat' first | assumption | apply keeps_lockGuard | apply keeps_undef | apply keeps_storeMod | apply keeps_whenS | intro _ | apply keeps_ite | rfl

theorem keeps_writeUpdCtrl : ∀ x0, Keeps b s0 (writeUpdCtrl x0 s) := by
  intros
  unfold writeUpdCtrl
  with_reducible repeat' first | assumption | apply keeps_abortUpdate | apply keeps_writeActivate | apply keeps_whenS

theorem keeps_writeSys : ∀ x0 x1, Keeps b s0 (writeSys x0 x1 s) := by
  intros
  unfold writeSys
  with_reducible repeat' first | assumption | apply keeps_effLockSet | apply keeps_writeSnap | intro _ | apply keeps_ite | refine keeps_mk (by assumption) rfl rfl rfl rfl rfl rfl rfl | rfl | split

theorem keeps_writeTime : ∀ x0 x1, Keeps b s0 (writeTime x0 x1 s) := by
  intros
  unfold writeTime
  with_reducible repeat' first | assumption | apply keeps_timMod | apply keeps_effTimeSetWrite | apply keeps_effTimeAdjWrite | apply keeps_timeSetDateWrite | apply keeps_effTimeSetTodWrite | apply keeps_writeTrim | apply keeps_effTalmWrite | intro _ | apply keeps_ite | refine keeps_mk (by assumption) rfl rfl rfl rfl rfl rfl rfl | rfl | split

theorem keeps_writeAfe : ∀ x0 x1 x2, Keeps b s0 (writeAfe x0 x1 x2 s) := by
  intros
  unfold writeAfe
  with_reducible repeat' first | assumption | apply keeps_effAfeCfgWrite | apply keeps_effAfeExcWrite | apply keeps_effAfeRateWrite | apply keeps_afeWordWrite | apply keeps_effAfeHealthWrite | apply keeps_effCalGainWrite | apply keeps_effCalOffsetWrite | intro _ | apply keeps_ite | refine keeps_mk (by assumption) rfl rfl rfl rfl rfl rfl rfl | rfl | split

theorem keeps_writeAr : ∀ x0 x1 x2, Keeps b s0 (writeAr x0 x1 x2 s) := by
  intros
  unfold writeAr
  with_reducible repeat' first | assumption | apply keeps_arWordWrite | apply keeps_arForceWrite | intro _ | apply keeps_ite | refine keeps_mk (by assumption) rfl rfl rfl rfl rfl rfl rfl | rfl | split

theorem keeps_writeDio : ∀ x0 x1, Keeps b s0 (writeDio x0 x1 s) := by
  intros
  unfold writeDio
  with_reducible repeat' first | assumption | apply keeps_effDiCfgWrite | apply keeps_doCfgWrite | apply keeps_doFixWrite | apply keeps_doFailWrite | apply keeps_doForceWrite | intro _ | apply keeps_ite | refine keeps_mk (by assumption) rfl rfl rfl rfl rfl rfl rfl | rfl | split

theorem keeps_writeAlm : ∀ x0 x1, Keeps b s0 (writeAlm x0 x1 s) := by
  intros
  unfold writeAlm
  with_reducible repeat' first | assumption | apply keeps_recWrite | apply keeps_writeAlmCmd | intro _ | apply keeps_ite | refine keeps_mk (by assumption) rfl rfl rfl rfl rfl rfl rfl | rfl | split

theorem keeps_writeCall : ∀ x0 x1, Keeps b s0 (writeCall x0 x1 s) := by
  intros
  unfold writeCall
  with_reducible repeat' first | assumption | intro _ | apply keeps_ite | refine keeps_mk (by assumption) rfl rfl rfl rfl rfl rfl rfl | rfl | split

theorem keeps_writePlace : ∀ x0 x1, Keeps b s0 (writePlace x0 x1 s) := by
  intros
  unfold writePlace
  with_reducible repeat' first | assumption | apply keeps_effPlaceCalcWrite | intro _ | apply keeps_ite | refine keeps_mk (by assumption) rfl rfl rfl rfl rfl rfl rfl | rfl | split

theorem keeps_writePair : ∀ x0 x1, Keeps b s0 (writePair x0 x1 s) := by
  intros
  unfold writePair
  with_reducible repeat' first | assumption | apply keeps_writeRole | apply keeps_effPairForceWrite | apply keeps_pairSet | intro _ | apply keeps_ite | refine keeps_mk (by assumption) rfl rfl rfl rfl rfl rfl rfl | rfl | split

theorem keeps_writeDisp : ∀ x0 x1, Keeps b s0 (writeDisp x0 x1 s) := by
  intros
  unfold writeDisp
  with_reducible repeat' first | assumption | apply keeps_writeVcom | apply keeps_effDispAbortWrite | intro _ | apply keeps_ite | refine keeps_mk (by assumption) rfl rfl rfl rfl rfl rfl rfl | rfl | split

theorem keeps_writeBlk : ∀ x0 x1, Keeps b s0 (writeBlk x0 x1 s) := by
  intros
  unfold writeBlk
  with_reducible repeat' first | assumption | apply keeps_writeSys | apply keeps_writeTime | apply keeps_writeAfe | apply keeps_writeAr | apply keeps_writeDio | apply keeps_writeAlm | apply keeps_writeCall | apply keeps_writeAdmit | apply keeps_effFabAddrWrite | apply keeps_writePlace | apply keeps_writePair | apply keeps_writeDisp | apply keeps_effLogSelWrite | apply keeps_writeUpdCtrl | intro _ | apply keeps_ite | refine keeps_mk (by assumption) rfl rfl rfl rfl rfl rfl rfl | rfl | split

theorem keeps_writeReg : ∀ x0 x1, Keeps b s0 (writeReg x0 x1 s).2 := by
  intros
  unfold writeReg
  with_reducible repeat' first | assumption | apply keeps_undef | apply keeps_addrMiss | apply keeps_effRsqClearWrite | apply keeps_writeBlk | intro _ | apply keeps_ite | refine keeps_mk (by assumption) rfl rfl rfl rfl rfl rfl rfl | rfl | split

theorem keeps_effRegisterWrite : ∀ x0 x1, Keeps b s0 (effRegisterWrite x0 x1 s) := by
  intros
  unfold effRegisterWrite
  with_reducible repeat' first | assumption | apply keeps_writeReg | apply keeps_ite | rfl

theorem keeps_sendReply : ∀ x0 x1, Keeps b s0 (sendReply x0 x1 s) := by
  intros
  unfold sendReply
  with_reducible repeat' first | assumption | apply keeps_svcMod | apply keeps_sendUni | intro _ | apply keeps_ite | refine keeps_mk (by assumption) rfl rfl rfl rfl rfl rfl rfl | rfl | split

theorem keeps_answer : ∀ x0 x1 x2 x3, Keeps b s0 (answer x0 x1 x2 x3 s) := by
  intros
  unfold answer
  with_reducible repeat' first | assumption | apply keeps_keepReply | apply keeps_sendReply

theorem keeps_forward : ∀ x0 x1 x2, Keeps b s0 (forward x0 x1 x2 s) := by
  intros
  unfold forward
  with_reducible repeat' first | assumption | apply keeps_sendReply | apply keeps_svcMod | apply keeps_sendUni | apply keeps_bump | intro _ | apply keeps_ite | rfl

theorem keeps_svcQueue : ∀ x0, Keeps b s0 (svcQueue x0 s) := by
  intros
  unfold svcQueue
  with_reducible repeat' first | assumption | apply keeps_bump | apply keeps_svcMod | intro _ | apply keeps_ite | rfl

omit h in
theorem keeps_svcRequest {b : Bool} {s0 s : State} {f : Op} (hf : ∀ t, Keeps b s0 t → Keeps b s0 (f t).2) (h : Keeps b s0 s) :
    ∀ c q op o g, Keeps b s0 (svcRequest c q op o g f s) := by
  intro c q op o g
  unfold svcRequest
  dsimp only
  split
  · exact h
  · split
    · exact keeps_svcQueue h _
    · split
      · exact keeps_sendReply h _ _
      · split
        · exact keeps_forward h _ _ _
        · split
          · exact keeps_answer (keeps_bump h) _ _ _ _
          · exact keeps_runOp (fun _ _ ht => keeps_answer ht _ _ _ _) hf h

theorem keeps_opDiscover : Keeps b s0 (opDiscover s).2 := by
  exact keeps_mk h rfl rfl rfl rfl rfl rfl rfl

omit h in
theorem keeps_readWords {b : Bool} {s0 : State} {s : State} (h : Keeps b s0 s) : ∀ x0 x1, Keeps b s0 (readWords x0 x1 s).2 := by
  intro n
  induction n generalizing s with
  | zero => intro _; exact h
  | succ n ih => intro a; exact ih (keeps_readReg h _) _

omit h in
theorem keeps_writeWords {b : Bool} {s0 : State} {s : State} (h : Keeps b s0 s) : ∀ x0 x1 x2, Keeps b s0 (writeWords x0 x1 x2 s).2 := by
  intro l
  induction l generalizing s with
  | nil => intro _ _; exact h
  | cons v r ih =>
    intro a i
    unfold writeWords
    dsimp only
    split
    · exact keeps_writeReg h _ _
    · exact ih (keeps_writeReg h _ _) _ _

theorem keeps_opRead : ∀ x0 x1, Keeps b s0 (opRead x0 x1 s).2 := by
  intros
  unfold opRead
  with_reducible repeat' first | assumption | apply keeps_readWords | intro _ | apply keeps_ite | refine keeps_mk (by assumption) rfl rfl rfl rfl rfl rfl rfl | rfl | split

theorem keeps_opWrite : ∀ x0 x1, Keeps b s0 (opWrite x0 x1 s).2 := by
  intros
  unfold opWrite
  with_reducible repeat' first | assumption | apply keeps_writeWords | intro _ | apply keeps_ite | (refine keeps_mk ?_ rfl rfl rfl rfl rfl rfl rfl; first | assumption | apply keeps_writeWords | apply keeps_ite) | rfl | apply keeps_ite2 | apply keeps_ite3 | apply keeps_foldl | apply keeps_foldl2 | dsimp only | split | refine keeps_snd (by assumption) ?_ | refine keeps_thd (by assumption) ?_

theorem keeps_opLogRead : ∀ x0 x1, Keeps b s0 (opLogRead x0 x1 s).2 := by
  intros
  unfold opLogRead
  with_reducible repeat' first | assumption | intro _ | apply keeps_ite | refine keeps_mk (by assumption) rfl rfl rfl rfl rfl rfl rfl | rfl | split

theorem keeps_opTrendRead : ∀ x0 x1 x2, Keeps b s0 (opTrendRead x0 x1 x2 s).2 := by
  intros
  unfold opTrendRead
  with_reducible repeat' first | assumption | intro _ | apply keeps_ite | refine keeps_mk (by assumption) rfl rfl rfl rfl rfl rfl rfl | rfl | split

theorem keeps_opReset : ∀ x0, Keeps b s0 (opReset x0 s).2 := by
  intros
  exact keeps_mk h rfl rfl rfl rfl rfl rfl rfl

theorem keeps_afterResetOp : ∀ x0 x1, Keeps b s0 (afterResetOp x0 x1 s) := by
  intros
  unfold afterResetOp
  with_reducible repeat' first | assumption | apply keeps_svcMod | apply keeps_nodeReset | intro _ | apply keeps_ite | rfl

theorem keeps_effDiscover : ∀ x0 x1, Keeps b s0 (effDiscover x0 x1 s) := by
  intros
  exact keeps_svcRequest (fun _ ht => keeps_opDiscover ht) h _ _ _ _ _

theorem keeps_effRead : ∀ x0 x1 x2, Keeps b s0 (effRead x0 x1 x2 s) := by
  intros
  exact keeps_svcRequest (fun _ ht => keeps_opRead ht _ _) h _ _ _ _ _

theorem keeps_effWrite : ∀ x0 x1 x2, Keeps b s0 (effWrite x0 x1 x2 s) := by
  intros
  exact keeps_svcRequest (fun _ ht => keeps_opWrite ht _ _) h _ _ _ _ _

theorem keeps_effLogRead : ∀ x0 x1 x2, Keeps b s0 (effLogRead x0 x1 x2 s) := by
  intros
  exact keeps_svcRequest (fun _ ht => keeps_opLogRead ht _ _) h _ _ _ _ _

theorem keeps_effTrendRead : ∀ x0 x1 x2 x3, Keeps b s0 (effTrendRead x0 x1 x2 x3 s) := by
  intros
  exact keeps_svcRequest (fun _ ht => keeps_opTrendRead ht _ _ _) h _ _ _ _ _

theorem keeps_effReset : ∀ x0 x1, Keeps b s0 (effReset x0 x1 s) := by
  intro q w
  unfold effReset
  exact keeps_afterResetOp (keeps_svcRequest (fun _ ht => keeps_opReset ht _) h _ _ _ _ _) _ _

theorem keeps_opChallenge : ∀ x0, Keeps b s0 (opChallenge x0 s).2 := by
  intros
  unfold opChallenge
  with_reducible repeat' first | assumption | apply keeps_svcMod | intro _ | apply keeps_ite | rfl

theorem keeps_effChallenge : ∀ x0 x1, Keeps b s0 (effChallenge x0 x1 s) := by
  intros
  exact keeps_svcRequest (fun _ ht => keeps_opChallenge ht _) h _ _ _ _ _

theorem keeps_effNonceExpiry : Keeps b s0 (effNonceExpiry s) := by
  unfold effNonceExpiry
  with_reducible repeat' first | assumption | apply keeps_svcMod | intro _ | apply keeps_ite | rfl

omit h in
theorem keeps_opKey {s0 : State} {s : State} (h : Keeps false s0 s) : ∀ x0 x1, Keeps false s0 (opKey x0 x1 s).2 := by
  intro i k
  unfold opKey
  have h1 : Keeps false s0 (effNonceExpiry s) := keeps_effNonceExpiry h
  dsimp only
  refine keeps_ite2 h1 (keeps_ite2 (keeps_bump h1) (keeps_updRec (keeps_latch ?_) _ _))
  exact ⟨h1.pending, h1.clock, h1.serial, h1.hwIssue, h1.queue, h1.cmds, h1.windows, h1.pend, h1.kept, h1.slots, nofun⟩

omit h in
theorem keeps_effKeyInstall {s0 : State} {s : State} (h : Keeps false s0 s) : ∀ x0 x1, Keeps false s0 (effKeyInstall x0 x1 s) := by
  intros
  exact keeps_svcRequest (fun _ ht => keeps_opKey ht _ _) h _ _ _ _ _

omit h in
theorem keeps_effKeyRemove {s0 : State} {s : State} (h : Keeps false s0 s) : ∀ x0 x1, Keeps false s0 (effKeyRemove x0 x1 s) := by
  intros
  exact keeps_svcRequest (fun _ ht => keeps_opKey ht _ _) h _ _ _ _ _

omit h in
theorem keeps_mgmtRun {b : Bool} {s0 s : State} (h : Keeps b s0 s) : ∀ g, Keeps b s0 ((mgmtRun g).2 s).2 := by
  intro g
  unfold mgmtRun
  split
  · exact h
  · exact keeps_opRead h _ _
  · exact keeps_opWrite h _ _
  · exact keeps_opLogRead h _ _
  · exact keeps_opTrendRead h _ _ _
  · exact keeps_opReset h _
  · exact h
  · exact h

theorem keeps_effMgmtRequest : ∀ x0 x1 x2, Keeps b s0 (effMgmtRequest x0 x1 x2 s) := by
  intro rx tag g
  unfold effMgmtRequest
  dsimp only
  have h1 := keeps_receive h rx (.mgmtRequest tag g)
  split
  · exact h1
  · split
    · exact keeps_sendReply h1 _ _
    · have h2 : Keeps b s0 (runOp (.gateway rx.hdr.src) (mgmtRun g).1 tag (mgmtRun g).2 (receive rx (.mgmtRequest tag g) s).2) :=
        keeps_runOp (fun _ _ ht => keeps_answer ht _ _ _ _) (fun _ ht => keeps_mgmtRun ht _) h1
      split
      · exact keeps_whenS (fun _ ht => keeps_svcMod rfl ht) h2
      · exact h2

theorem keeps_endWaiting : ∀ x0 x1, Keeps b s0 (endWaiting x0 x1 s) := by
  intros
  unfold endWaiting
  with_reducible repeat' first | assumption | apply keeps_svcMod | apply keeps_keepReply | apply keeps_sendReply | intro _ | apply keeps_ite | rfl

theorem keeps_effMgmtReply : ∀ x0 x1, Keeps b s0 (effMgmtReply x0 x1 s) := by
  intros
  unfold effMgmtReply
  with_reducible repeat' first | assumption | apply keeps_receive | apply keeps_endWaiting | intro _ | apply keeps_ite | refine keeps_mk (by assumption) rfl rfl rfl rfl rfl rfl rfl | rfl | split

theorem keeps_effMgmtTimeout : ∀ x0 x1, Keeps b s0 (effMgmtTimeout x0 x1 s) := by
  intros
  unfold effMgmtTimeout
  with_reducible repeat' first | assumption | apply keeps_endWaiting | intro _ | apply keeps_ite | refine keeps_mk (by assumption) rfl rfl rfl rfl rfl rfl rfl | rfl | split

theorem keeps_effReplyCacheExpiry : ∀ x0 x1, Keeps b s0 (effReplyCacheExpiry x0 x1 s) := by
  intro _ _
  exact ⟨h.pending, h.clock, h.serial, h.hwIssue, h.queue, h.cmds, h.windows, h.pend, fun x => Nat.le_trans (List.length_filter_le _ _) (h.kept x),
    h.slots, h.keys⟩

theorem keeps_effBadDatagram : ∀ x0 x1 x2, Keeps b s0 (effBadDatagram x0 x1 x2 s) := by
  intro q op d
  unfold effBadDatagram
  split
  · exact h
  · split
    · exact keeps_bump h
    · exact keeps_bump h
    · exact keeps_sendReply h _ _
    · exact keeps_svcRequest (fun _ ht => ht) h _ _ _ _ _

theorem keeps_effArp : ∀ x0, Keeps b s0 (effArp x0 s) := by
  intros
  unfold effArp
  with_reducible repeat' first | assumption | apply keeps_svcMod | apply keeps_drawn | intro _ | apply keeps_ite | rfl

theorem keeps_effIcmpEcho : Keeps b s0 (effIcmpEcho s) := by
  unfold effIcmpEcho
  with_reducible repeat' first | assumption | apply keeps_svcMod | intro _ | apply keeps_ite | rfl

theorem keeps_refuse : ∀ x0, Keeps b s0 (refuse x0 s).2 := by
  intros
  unfold refuse
  with_reducible repeat' first | assumption | apply keeps_updMod

theorem keeps_openSession : ∀ x0 x1 x2, Keeps b s0 (openSession x0 x1 x2 s) := by
  intros
  unfold openSession
  with_reducible repeat' first | assumption | apply keeps_bankMod | apply keeps_updMod

theorem keeps_opUpdBegin : ∀ x0 x1 x2 x3, Keeps b s0 (opUpdBegin x0 x1 x2 x3 s).2 := by
  intros
  unfold opUpdBegin
  with_reducible repeat' first | assumption | apply keeps_refuse | apply keeps_openSession | intro _ | apply keeps_ite | refine keeps_mk (by assumption) rfl rfl rfl rfl rfl rfl rfl | rfl | split

theorem keeps_effUpdBegin : ∀ x0 x1 x2 x3, Keeps b s0 (effUpdBegin x0 x1 x2 x3 s) := by
  intros
  exact keeps_svcRequest (fun _ ht => keeps_opUpdBegin ht _ _ _ _) h _ _ _ _ _

theorem keeps_setPartial : ∀ x0 x1, Keeps b s0 (setPartial x0 x1 s) := by
  intros
  exact keeps_updMod h _

theorem keeps_finishRecord : ∀ x0 x1 x2, Keeps b s0 (finishRecord x0 x1 x2 s).2 := by
  intros
  unfold finishRecord
  with_reducible repeat' first | assumption | apply keeps_setPartial | apply keeps_failBlock | apply keeps_writeBlock | intro _ | apply keeps_ite | refine keeps_mk (by assumption) rfl rfl rfl rfl rfl rfl rfl | rfl | split

theorem keeps_opUpdBlock : ∀ x0 x1, Keeps b s0 (opUpdBlock x0 x1 s).2 := by
  intros
  unfold opUpdBlock
  with_reducible repeat' first | assumption | apply keeps_refuse | apply keeps_setPartial | apply keeps_finishRecord | intro _ | apply keeps_ite | refine keeps_mk (by assumption) rfl rfl rfl rfl rfl rfl rfl | rfl | split

theorem keeps_effUpdBlock : ∀ x0 x1, Keeps b s0 (effUpdBlock x0 x1 s) := by
  intros
  exact keeps_svcRequest (fun _ ht => keeps_opUpdBlock ht _ _) h _ _ _ _ _

theorem keeps_opUpdFinish : ∀ x0 x1, Keeps b s0 (opUpdFinish x0 x1 s).2 := by
  intros
  unfold opUpdFinish
  with_reducible repeat' first | assumption | apply keeps_refuse | apply keeps_updMod | intro _ | apply keeps_ite | refine keeps_mk (by assumption) rfl rfl rfl rfl rfl rfl rfl | rfl | split

theorem keeps_effUpdFinish : ∀ x0, Keeps b s0 (effUpdFinish x0 s) := by
  intros
  exact keeps_svcRequest (fun _ ht => keeps_opUpdFinish ht _ _) h _ _ _ _ _

theorem keeps_verdict : ∀ x0, Keeps b s0 (verdict x0 s) := by
  intros
  unfold verdict
  with_reducible repeat' first | assumption | apply keeps_setBank | apply keeps_updMod | apply keeps_latch

theorem keeps_effUpdVerifyDone : Keeps b s0 (effUpdVerifyDone s) := by
  unfold effUpdVerifyDone
  with_reducible repeat' first | assumption | apply keeps_verdict | apply keeps_answer | intro _ | apply keeps_ite | refine keeps_mk (by assumption) rfl rfl rfl rfl rfl rfl rfl | rfl | apply keeps_foldl | apply keeps_ite2 | dsimp only | split

end Sys2Proof.Laws
end

