-- ==== Sys2Proof/Laws/State.lean ====
section
/-! SUPPORT. Laws/State.lean: which parts of the state each named update leaves as they were. -/
namespace Sys2Proof.Laws

open Sys2Proof.Machine

set_option linter.unusedVariables false

/-! A step under a condition, and over a list. -/

@[simp] theorem whenS_state (c : Bool) (f : State → State) (s : State) :
    (whenS c f s).pending = (if c then (f s).pending else s.pending) ∧ (whenS c f s).selfQ = (if c then (f s).selfQ else s.selfQ) ∧
    (whenS c f s).taking = (if c then (f s).taking else s.taking) ∧ (whenS c f s).clock = (if c then (f s).clock else s.clock) ∧
    (whenS c f s).fresh = (if c then (f s).fresh else s.fresh) ∧ (whenS c f s).unspec = (if c then (f s).unspec else s.unspec) ∧
    (whenS c f s).serial = (if c then (f s).serial else s.serial) ∧ (whenS c f s).hwIssue = (if c then (f s).hwIssue else s.hwIssue) ∧
    (whenS c f s).rsq = (if c then (f s).rsq else s.rsq) ∧ (whenS c f s).ctr = (if c then (f s).ctr else s.ctr) ∧
    (whenS c f s).reg = (if c then (f s).reg else s.reg) ∧ (whenS c f s).tri = (if c then (f s).tri else s.tri) ∧
    (whenS c f s).vals = (if c then (f s).vals else s.vals) ∧ (whenS c f s).sys = (if c then (f s).sys else s.sys) ∧
    (whenS c f s).rcd = (if c then (f s).rcd else s.rcd) ∧ (whenS c f s).cfg = (if c then (f s).cfg else s.cfg) ∧
    (whenS c f s).alm = (if c then (f s).alm else s.alm) ∧ (whenS c f s).call = (if c then (f s).call else s.call) ∧
    (whenS c f s).fab = (if c then (f s).fab else s.fab) ∧ (whenS c f s).pb = (if c then (f s).pb else s.pb) ∧
    (whenS c f s).plc = (if c then (f s).plc else s.plc) ∧ (whenS c f s).pair = (if c then (f s).pair else s.pair) ∧
    (whenS c f s).tim = (if c then (f s).tim else s.tim) ∧ (whenS c f s).sup = (if c then (f s).sup else s.sup) ∧
    (whenS c f s).afe = (if c then (f s).afe else s.afe) ∧ (whenS c f s).io = (if c then (f s).io else s.io) ∧
    (whenS c f s).store = (if c then (f s).store else s.store) ∧ (whenS c f s).flacon = (if c then (f s).flacon else s.flacon) ∧
    (whenS c f s).disp = (if c then (f s).disp else s.disp) ∧ (whenS c f s).svc = (if c then (f s).svc else s.svc) ∧
    (whenS c f s).upd = (if c then (f s).upd else s.upd) := by
  unfold whenS; cases c <;> simp

theorem eachS_proj {α β : Type} (π : State → β) (l : List α) (f : α → State → State) (s : State) (h : ∀ a t, π (f a t) = π t) :
    π (eachS l f s) = π s := by
  unfold eachS; induction l generalizing s with
  | nil => rfl
  | cons a l ih => exact (ih (f a s)).trans (h a s)

variable {α : Type} (l : List α) (f : α → State → State) (s : State)

@[simp] theorem eachS_pending (h : ∀ a t, (f a t).pending = t.pending) : (eachS l f s).pending = s.pending := eachS_proj (·.pending) l f s h
@[simp] theorem eachS_selfQ (h : ∀ a t, (f a t).selfQ = t.selfQ) : (eachS l f s).selfQ = s.selfQ := eachS_proj (·.selfQ) l f s h
@[simp] theorem eachS_taking (h : ∀ a t, (f a t).taking = t.taking) : (eachS l f s).taking = s.taking := eachS_proj (·.taking) l f s h
@[simp] theorem eachS_clock (h : ∀ a t, (f a t).clock = t.clock) : (eachS l f s).clock = s.clock := eachS_proj (·.clock) l f s h
@[simp] theorem eachS_fresh (h : ∀ a t, (f a t).fresh = t.fresh) : (eachS l f s).fresh = s.fresh := eachS_proj (·.fresh) l f s h
@[simp] theorem eachS_unspec (h : ∀ a t, (f a t).unspec = t.unspec) : (eachS l f s).unspec = s.unspec := eachS_proj (·.unspec) l f s h
@[simp] theorem eachS_serial (h : ∀ a t, (f a t).serial = t.serial) : (eachS l f s).serial = s.serial := eachS_proj (·.serial) l f s h
@[simp] theorem eachS_hwIssue (h : ∀ a t, (f a t).hwIssue = t.hwIssue) : (eachS l f s).hwIssue = s.hwIssue := eachS_proj (·.hwIssue) l f s h
@[simp] theorem eachS_rsq (h : ∀ a t, (f a t).rsq = t.rsq) : (eachS l f s).rsq = s.rsq := eachS_proj (·.rsq) l f s h
@[simp] theorem eachS_ctr (h : ∀ a t, (f a t).ctr = t.ctr) : (eachS l f s).ctr = s.ctr := eachS_proj (·.ctr) l f s h
@[simp] theorem eachS_reg (h : ∀ a t, (f a t).reg = t.reg) : (eachS l f s).reg = s.reg := eachS_proj (·.reg) l f s h
@[simp] theorem eachS_tri (h : ∀ a t, (f a t).tri = t.tri) : (eachS l f s).tri = s.tri := eachS_proj (·.tri) l f s h
@[simp] theorem eachS_vals (h : ∀ a t, (f a t).vals = t.vals) : (eachS l f s).vals = s.vals := eachS_proj (·.vals) l f s h
@[simp] theorem eachS_sys (h : ∀ a t, (f a t).sys = t.sys) : (eachS l f s).sys = s.sys := eachS_proj (·.sys) l f s h
@[simp] theorem eachS_rcd (h : ∀ a t, (f a t).rcd = t.rcd) : (eachS l f s).rcd = s.rcd := eachS_proj (·.rcd) l f s h
@[simp] theorem eachS_cfg (h : ∀ a t, (f a t).cfg = t.cfg) : (eachS l f s).cfg = s.cfg := eachS_proj (·.cfg) l f s h
@[simp] theorem eachS_alm (h : ∀ a t, (f a t).alm = t.alm) : (eachS l f s).alm = s.alm := eachS_proj (·.alm) l f s h
@[simp] theorem eachS_call (h : ∀ a t, (f a t).call = t.call) : (eachS l f s).call = s.call := eachS_proj (·.call) l f s h
@[simp] theorem eachS_fab (h : ∀ a t, (f a t).fab = t.fab) : (eachS l f s).fab = s.fab := eachS_proj (·.fab) l f s h
@[simp] theorem eachS_pb (h : ∀ a t, (f a t).pb = t.pb) : (eachS l f s).pb = s.pb := eachS_proj (·.pb) l f s h
@[simp] theorem eachS_plc (h : ∀ a t, (f a t).plc = t.plc) : (eachS l f s).plc = s.plc := eachS_proj (·.plc) l f s h
@[simp] theorem eachS_pair (h : ∀ a t, (f a t).pair = t.pair) : (eachS l f s).pair = s.pair := eachS_proj (·.pair) l f s h
@[simp] theorem eachS_tim (h : ∀ a t, (f a t).tim = t.tim) : (eachS l f s).tim = s.tim := eachS_proj (·.tim) l f s h
@[simp] theorem eachS_sup (h : ∀ a t, (f a t).sup = t.sup) : (eachS l f s).sup = s.sup := eachS_proj (·.sup) l f s h
@[simp] theorem eachS_afe (h : ∀ a t, (f a t).afe = t.afe) : (eachS l f s).afe = s.afe := eachS_proj (·.afe) l f s h
@[simp] theorem eachS_io (h : ∀ a t, (f a t).io = t.io) : (eachS l f s).io = s.io := eachS_proj (·.io) l f s h
@[simp] theorem eachS_store (h : ∀ a t, (f a t).store = t.store) : (eachS l f s).store = s.store := eachS_proj (·.store) l f s h
@[simp] theorem eachS_flacon (h : ∀ a t, (f a t).flacon = t.flacon) : (eachS l f s).flacon = s.flacon := eachS_proj (·.flacon) l f s h
@[simp] theorem eachS_disp (h : ∀ a t, (f a t).disp = t.disp) : (eachS l f s).disp = s.disp := eachS_proj (·.disp) l f s h
@[simp] theorem eachS_svc (h : ∀ a t, (f a t).svc = t.svc) : (eachS l f s).svc = s.svc := eachS_proj (·.svc) l f s h
@[simp] theorem eachS_upd (h : ∀ a t, (f a t).upd = t.upd) : (eachS l f s).upd = s.upd := eachS_proj (·.upd) l f s h

/-! The named updates. -/

@[simp] theorem bumpBy_state (x0 : Nat) (x1 : Nat) (s : State) :
    (bumpBy x0 x1 s).pending = s.pending ∧ (bumpBy x0 x1 s).selfQ = s.selfQ ∧ (bumpBy x0 x1 s).taking = s.taking ∧
    (bumpBy x0 x1 s).clock = s.clock ∧ (bumpBy x0 x1 s).fresh = s.fresh ∧ (bumpBy x0 x1 s).unspec = s.unspec ∧
    (bumpBy x0 x1 s).serial = s.serial ∧ (bumpBy x0 x1 s).hwIssue = s.hwIssue ∧ (bumpBy x0 x1 s).rsq = s.rsq ∧
    (bumpBy x0 x1 s).reg = s.reg ∧ (bumpBy x0 x1 s).tri = s.tri ∧ (bumpBy x0 x1 s).vals = s.vals ∧ (bumpBy x0 x1 s).sys = s.sys ∧
    (bumpBy x0 x1 s).rcd = s.rcd ∧ (bumpBy x0 x1 s).cfg = s.cfg ∧ (bumpBy x0 x1 s).alm = s.alm ∧ (bumpBy x0 x1 s).call = s.call ∧
    (bumpBy x0 x1 s).fab = s.fab ∧ (bumpBy x0 x1 s).pb = s.pb ∧ (bumpBy x0 x1 s).plc = s.plc ∧ (bumpBy x0 x1 s).pair = s.pair ∧
    (bumpBy x0 x1 s).tim = s.tim ∧ (bumpBy x0 x1 s).sup = s.sup ∧ (bumpBy x0 x1 s).afe = s.afe ∧ (bumpBy x0 x1 s).io = s.io ∧
    (bumpBy x0 x1 s).store = s.store ∧ (bumpBy x0 x1 s).flacon = s.flacon ∧ (bumpBy x0 x1 s).disp = s.disp ∧ (bumpBy x0 x1 s).svc = s.svc ∧
    (bumpBy x0 x1 s).upd = s.upd := by
  refine ⟨?_, ?_, ?_, ?_, ?_, ?_, ?_, ?_, ?_, ?_, ?_, ?_, ?_, ?_, ?_, ?_, ?_, ?_, ?_, ?_, ?_, ?_, ?_, ?_, ?_, ?_, ?_, ?_, ?_, ?_⟩ <;> rfl

@[simp] theorem bump_state (x0 : Nat) (s : State) :
    (bump x0 s).pending = s.pending ∧ (bump x0 s).selfQ = s.selfQ ∧ (bump x0 s).taking = s.taking ∧ (bump x0 s).clock = s.clock ∧
    (bump x0 s).fresh = s.fresh ∧ (bump x0 s).unspec = s.unspec ∧ (bump x0 s).serial = s.serial ∧ (bump x0 s).hwIssue = s.hwIssue ∧
    (bump x0 s).rsq = s.rsq ∧ (bump x0 s).reg = s.reg ∧ (bump x0 s).tri = s.tri ∧ (bump x0 s).vals = s.vals ∧ (bump x0 s).sys = s.sys ∧
    (bump x0 s).rcd = s.rcd ∧ (bump x0 s).cfg = s.cfg ∧ (bump x0 s).alm = s.alm ∧ (bump x0 s).call = s.call ∧ (bump x0 s).fab = s.fab ∧
    (bump x0 s).pb = s.pb ∧ (bump x0 s).plc = s.plc ∧ (bump x0 s).pair = s.pair ∧ (bump x0 s).tim = s.tim ∧ (bump x0 s).sup = s.sup ∧
    (bump x0 s).afe = s.afe ∧ (bump x0 s).io = s.io ∧ (bump x0 s).store = s.store ∧ (bump x0 s).flacon = s.flacon ∧
    (bump x0 s).disp = s.disp ∧ (bump x0 s).svc = s.svc ∧ (bump x0 s).upd = s.upd := by
  refine ⟨?_, ?_, ?_, ?_, ?_, ?_, ?_, ?_, ?_, ?_, ?_, ?_, ?_, ?_, ?_, ?_, ?_, ?_, ?_, ?_, ?_, ?_, ?_, ?_, ?_, ?_, ?_, ?_, ?_, ?_⟩ <;> rfl

@[simp] theorem regSet_state (x0 : Nat) (x1 : Word) (s : State) :
    (regSet x0 x1 s).pending = s.pending ∧ (regSet x0 x1 s).selfQ = s.selfQ ∧ (regSet x0 x1 s).taking = s.taking ∧
    (regSet x0 x1 s).clock = s.clock ∧ (regSet x0 x1 s).fresh = s.fresh ∧ (regSet x0 x1 s).unspec = s.unspec ∧
    (regSet x0 x1 s).serial = s.serial ∧ (regSet x0 x1 s).hwIssue = s.hwIssue ∧ (regSet x0 x1 s).rsq = s.rsq ∧
    (regSet x0 x1 s).ctr = s.ctr ∧ (regSet x0 x1 s).tri = s.tri ∧ (regSet x0 x1 s).vals = s.vals ∧ (regSet x0 x1 s).sys = s.sys ∧
    (regSet x0 x1 s).rcd = s.rcd ∧ (regSet x0 x1 s).cfg = s.cfg ∧ (regSet x0 x1 s).alm = s.alm ∧ (regSet x0 x1 s).call = s.call ∧
    (regSet x0 x1 s).fab = s.fab ∧ (regSet x0 x1 s).pb = s.pb ∧ (regSet x0 x1 s).plc = s.plc ∧ (regSet x0 x1 s).pair = s.pair ∧
    (regSet x0 x1 s).tim = s.tim ∧ (regSet x0 x1 s).sup = s.sup ∧ (regSet x0 x1 s).afe = s.afe ∧ (regSet x0 x1 s).io = s.io ∧
    (regSet x0 x1 s).store = s.store ∧ (regSet x0 x1 s).flacon = s.flacon ∧ (regSet x0 x1 s).disp = s.disp ∧ (regSet x0 x1 s).svc = s.svc ∧
    (regSet x0 x1 s).upd = s.upd := by
  refine ⟨?_, ?_, ?_, ?_, ?_, ?_, ?_, ?_, ?_, ?_, ?_, ?_, ?_, ?_, ?_, ?_, ?_, ?_, ?_, ?_, ?_, ?_, ?_, ?_, ?_, ?_, ?_, ?_, ?_, ?_⟩ <;> rfl

@[simp] theorem latch_state (x0 : Nat) (x1 : Nat) (s : State) :
    (latch x0 x1 s).pending = s.pending ∧ (latch x0 x1 s).selfQ = s.selfQ ∧ (latch x0 x1 s).taking = s.taking ∧
    (latch x0 x1 s).clock = s.clock ∧ (latch x0 x1 s).fresh = s.fresh ∧ (latch x0 x1 s).unspec = s.unspec ∧
    (latch x0 x1 s).serial = s.serial ∧ (latch x0 x1 s).hwIssue = s.hwIssue ∧ (latch x0 x1 s).ctr = s.ctr ∧ (latch x0 x1 s).reg = s.reg ∧
    (latch x0 x1 s).tri = s.tri ∧ (latch x0 x1 s).vals = s.vals ∧ (latch x0 x1 s).sys = s.sys ∧ (latch x0 x1 s).rcd = s.rcd ∧
    (latch x0 x1 s).cfg = s.cfg ∧ (latch x0 x1 s).alm = s.alm ∧ (latch x0 x1 s).call = s.call ∧ (latch x0 x1 s).fab = s.fab ∧
    (latch x0 x1 s).pb = s.pb ∧ (latch x0 x1 s).plc = s.plc ∧ (latch x0 x1 s).pair = s.pair ∧ (latch x0 x1 s).tim = s.tim ∧
    (latch x0 x1 s).sup = s.sup ∧ (latch x0 x1 s).afe = s.afe ∧ (latch x0 x1 s).io = s.io ∧ (latch x0 x1 s).store = s.store ∧
    (latch x0 x1 s).flacon = s.flacon ∧ (latch x0 x1 s).disp = s.disp ∧ (latch x0 x1 s).svc = s.svc ∧ (latch x0 x1 s).upd = s.upd := by
  refine ⟨?_, ?_, ?_, ?_, ?_, ?_, ?_, ?_, ?_, ?_, ?_, ?_, ?_, ?_, ?_, ?_, ?_, ?_, ?_, ?_, ?_, ?_, ?_, ?_, ?_, ?_, ?_, ?_, ?_, ?_⟩ <;> rfl

@[simp] theorem drawn_state (x0 : Nat) (s : State) :
    (drawn x0 s).pending = s.pending ∧ (drawn x0 s).selfQ = s.selfQ ∧ (drawn x0 s).taking = s.taking ∧ (drawn x0 s).clock = s.clock ∧
    (drawn x0 s).unspec = s.unspec ∧ (drawn x0 s).serial = s.serial ∧ (drawn x0 s).hwIssue = s.hwIssue ∧ (drawn x0 s).rsq = s.rsq ∧
    (drawn x0 s).ctr = s.ctr ∧ (drawn x0 s).reg = s.reg ∧ (drawn x0 s).tri = s.tri ∧ (drawn x0 s).vals = s.vals ∧
    (drawn x0 s).sys = s.sys ∧ (drawn x0 s).rcd = s.rcd ∧ (drawn x0 s).cfg = s.cfg ∧ (drawn x0 s).alm = s.alm ∧
    (drawn x0 s).call = s.call ∧ (drawn x0 s).fab = s.fab ∧ (drawn x0 s).pb = s.pb ∧ (drawn x0 s).plc = s.plc ∧
    (drawn x0 s).pair = s.pair ∧ (drawn x0 s).tim = s.tim ∧ (drawn x0 s).sup = s.sup ∧ (drawn x0 s).afe = s.afe ∧ (drawn x0 s).io = s.io ∧
    (drawn x0 s).store = s.store ∧ (drawn x0 s).flacon = s.flacon ∧ (drawn x0 s).disp = s.disp ∧ (drawn x0 s).svc = s.svc ∧
    (drawn x0 s).upd = s.upd := by
  refine ⟨?_, ?_, ?_, ?_, ?_, ?_, ?_, ?_, ?_, ?_, ?_, ?_, ?_, ?_, ?_, ?_, ?_, ?_, ?_, ?_, ?_, ?_, ?_, ?_, ?_, ?_, ?_, ?_, ?_, ?_⟩ <;> rfl

@[simp] theorem undef_state (x0 : Nat) (s : State) :
    (undef x0 s).pending = s.pending ∧ (undef x0 s).selfQ = s.selfQ ∧ (undef x0 s).taking = s.taking ∧ (undef x0 s).clock = s.clock ∧
    (undef x0 s).fresh = s.fresh ∧ (undef x0 s).serial = s.serial ∧ (undef x0 s).hwIssue = s.hwIssue ∧ (undef x0 s).rsq = s.rsq ∧
    (undef x0 s).ctr = s.ctr ∧ (undef x0 s).reg = s.reg ∧ (undef x0 s).tri = s.tri ∧ (undef x0 s).vals = s.vals ∧
    (undef x0 s).sys = s.sys ∧ (undef x0 s).rcd = s.rcd ∧ (undef x0 s).cfg = s.cfg ∧ (undef x0 s).alm = s.alm ∧
    (undef x0 s).call = s.call ∧ (undef x0 s).fab = s.fab ∧ (undef x0 s).pb = s.pb ∧ (undef x0 s).plc = s.plc ∧
    (undef x0 s).pair = s.pair ∧ (undef x0 s).tim = s.tim ∧ (undef x0 s).sup = s.sup ∧ (undef x0 s).afe = s.afe ∧ (undef x0 s).io = s.io ∧
    (undef x0 s).store = s.store ∧ (undef x0 s).flacon = s.flacon ∧ (undef x0 s).disp = s.disp ∧ (undef x0 s).svc = s.svc ∧
    (undef x0 s).upd = s.upd := by
  unfold undef; (repeat' split) <;> refine ⟨?_, ?_, ?_, ?_, ?_, ?_, ?_, ?_, ?_, ?_, ?_, ?_, ?_, ?_, ?_, ?_, ?_, ?_, ?_, ?_, ?_, ?_, ?_, ?_, ?_, ?_, ?_, ?_, ?_, ?_⟩ <;> first | rfl | simp

@[simp] theorem triSet_state (x0 : Nat) (x1 : Word) (s : State) :
    (triSet x0 x1 s).pending = s.pending ∧ (triSet x0 x1 s).selfQ = s.selfQ ∧ (triSet x0 x1 s).taking = s.taking ∧
    (triSet x0 x1 s).clock = s.clock ∧ (triSet x0 x1 s).fresh = s.fresh ∧ (triSet x0 x1 s).unspec = s.unspec ∧
    (triSet x0 x1 s).serial = s.serial ∧ (triSet x0 x1 s).hwIssue = s.hwIssue ∧ (triSet x0 x1 s).rsq = s.rsq ∧
    (triSet x0 x1 s).ctr = s.ctr ∧ (triSet x0 x1 s).reg = s.reg ∧ (triSet x0 x1 s).vals = s.vals ∧ (triSet x0 x1 s).sys = s.sys ∧
    (triSet x0 x1 s).rcd = s.rcd ∧ (triSet x0 x1 s).cfg = s.cfg ∧ (triSet x0 x1 s).alm = s.alm ∧ (triSet x0 x1 s).call = s.call ∧
    (triSet x0 x1 s).fab = s.fab ∧ (triSet x0 x1 s).pb = s.pb ∧ (triSet x0 x1 s).plc = s.plc ∧ (triSet x0 x1 s).pair = s.pair ∧
    (triSet x0 x1 s).tim = s.tim ∧ (triSet x0 x1 s).sup = s.sup ∧ (triSet x0 x1 s).afe = s.afe ∧ (triSet x0 x1 s).io = s.io ∧
    (triSet x0 x1 s).store = s.store ∧ (triSet x0 x1 s).flacon = s.flacon ∧ (triSet x0 x1 s).disp = s.disp ∧ (triSet x0 x1 s).svc = s.svc ∧
    (triSet x0 x1 s).upd = s.upd := by
  refine ⟨?_, ?_, ?_, ?_, ?_, ?_, ?_, ?_, ?_, ?_, ?_, ?_, ?_, ?_, ?_, ?_, ?_, ?_, ?_, ?_, ?_, ?_, ?_, ?_, ?_, ?_, ?_, ?_, ?_, ?_⟩ <;> rfl

@[simp] theorem emit_state (x0 : BitVec 8) (x1 : BitVec 8) (x2 : BitVec 2) (x3 : Word) (x4 : List Word) (s : State) :
    (emit x0 x1 x2 x3 x4 s).pending = s.pending ∧ (emit x0 x1 x2 x3 x4 s).selfQ = s.selfQ ∧ (emit x0 x1 x2 x3 x4 s).taking = s.taking ∧
    (emit x0 x1 x2 x3 x4 s).clock = s.clock ∧ (emit x0 x1 x2 x3 x4 s).fresh = s.fresh ∧ (emit x0 x1 x2 x3 x4 s).unspec = s.unspec ∧
    (emit x0 x1 x2 x3 x4 s).serial = s.serial ∧ (emit x0 x1 x2 x3 x4 s).hwIssue = s.hwIssue ∧ (emit x0 x1 x2 x3 x4 s).reg = s.reg ∧
    (emit x0 x1 x2 x3 x4 s).tri = s.tri ∧ (emit x0 x1 x2 x3 x4 s).vals = s.vals ∧ (emit x0 x1 x2 x3 x4 s).sys = s.sys ∧
    (emit x0 x1 x2 x3 x4 s).cfg = s.cfg ∧ (emit x0 x1 x2 x3 x4 s).alm = s.alm ∧ (emit x0 x1 x2 x3 x4 s).call = s.call ∧
    (emit x0 x1 x2 x3 x4 s).fab = s.fab ∧ (emit x0 x1 x2 x3 x4 s).pb = s.pb ∧ (emit x0 x1 x2 x3 x4 s).plc = s.plc ∧
    (emit x0 x1 x2 x3 x4 s).pair = s.pair ∧ (emit x0 x1 x2 x3 x4 s).tim = s.tim ∧ (emit x0 x1 x2 x3 x4 s).sup = s.sup ∧
    (emit x0 x1 x2 x3 x4 s).afe = s.afe ∧ (emit x0 x1 x2 x3 x4 s).io = s.io ∧ (emit x0 x1 x2 x3 x4 s).store = s.store ∧
    (emit x0 x1 x2 x3 x4 s).flacon = s.flacon ∧ (emit x0 x1 x2 x3 x4 s).disp = s.disp ∧ (emit x0 x1 x2 x3 x4 s).svc = s.svc ∧
    (emit x0 x1 x2 x3 x4 s).upd = s.upd := by
  unfold emit; (repeat' split) <;> refine ⟨?_, ?_, ?_, ?_, ?_, ?_, ?_, ?_, ?_, ?_, ?_, ?_, ?_, ?_, ?_, ?_, ?_, ?_, ?_, ?_, ?_, ?_, ?_, ?_, ?_, ?_, ?_, ?_⟩ <;> first | rfl | simp

@[simp] theorem blockRec_state (x0 : BitVec 2) (x1 : Nat) (x2 : Nat) (x3 : List Word) (s : State) :
    (blockRec x0 x1 x2 x3 s).pending = s.pending ∧ (blockRec x0 x1 x2 x3 s).selfQ = s.selfQ ∧ (blockRec x0 x1 x2 x3 s).taking = s.taking ∧
    (blockRec x0 x1 x2 x3 s).clock = s.clock ∧ (blockRec x0 x1 x2 x3 s).fresh = s.fresh ∧ (blockRec x0 x1 x2 x3 s).unspec = s.unspec ∧
    (blockRec x0 x1 x2 x3 s).serial = s.serial ∧ (blockRec x0 x1 x2 x3 s).hwIssue = s.hwIssue ∧ (blockRec x0 x1 x2 x3 s).reg = s.reg ∧
    (blockRec x0 x1 x2 x3 s).tri = s.tri ∧ (blockRec x0 x1 x2 x3 s).vals = s.vals ∧ (blockRec x0 x1 x2 x3 s).sys = s.sys ∧
    (blockRec x0 x1 x2 x3 s).cfg = s.cfg ∧ (blockRec x0 x1 x2 x3 s).alm = s.alm ∧ (blockRec x0 x1 x2 x3 s).call = s.call ∧
    (blockRec x0 x1 x2 x3 s).fab = s.fab ∧ (blockRec x0 x1 x2 x3 s).pb = s.pb ∧ (blockRec x0 x1 x2 x3 s).plc = s.plc ∧
    (blockRec x0 x1 x2 x3 s).pair = s.pair ∧ (blockRec x0 x1 x2 x3 s).tim = s.tim ∧ (blockRec x0 x1 x2 x3 s).sup = s.sup ∧
    (blockRec x0 x1 x2 x3 s).afe = s.afe ∧ (blockRec x0 x1 x2 x3 s).io = s.io ∧ (blockRec x0 x1 x2 x3 s).store = s.store ∧
    (blockRec x0 x1 x2 x3 s).flacon = s.flacon ∧ (blockRec x0 x1 x2 x3 s).disp = s.disp ∧ (blockRec x0 x1 x2 x3 s).svc = s.svc ∧
    (blockRec x0 x1 x2 x3 s).upd = s.upd := by
  unfold blockRec; simp

@[simp] theorem linkMod_state (x0 : Link) (x1 : LinkSt → LinkSt) (s : State) :
    (linkMod x0 x1 s).pending = s.pending ∧ (linkMod x0 x1 s).selfQ = s.selfQ ∧ (linkMod x0 x1 s).taking = s.taking ∧
    (linkMod x0 x1 s).clock = s.clock ∧ (linkMod x0 x1 s).fresh = s.fresh ∧ (linkMod x0 x1 s).unspec = s.unspec ∧
    (linkMod x0 x1 s).serial = s.serial ∧ (linkMod x0 x1 s).hwIssue = s.hwIssue ∧ (linkMod x0 x1 s).rsq = s.rsq ∧
    (linkMod x0 x1 s).ctr = s.ctr ∧ (linkMod x0 x1 s).reg = s.reg ∧ (linkMod x0 x1 s).tri = s.tri ∧ (linkMod x0 x1 s).vals = s.vals ∧
    (linkMod x0 x1 s).sys = s.sys ∧ (linkMod x0 x1 s).rcd = s.rcd ∧ (linkMod x0 x1 s).cfg = s.cfg ∧ (linkMod x0 x1 s).alm = s.alm ∧
    (linkMod x0 x1 s).call = s.call ∧ (linkMod x0 x1 s).pb = s.pb ∧ (linkMod x0 x1 s).plc = s.plc ∧ (linkMod x0 x1 s).pair = s.pair ∧
    (linkMod x0 x1 s).tim = s.tim ∧ (linkMod x0 x1 s).sup = s.sup ∧ (linkMod x0 x1 s).afe = s.afe ∧ (linkMod x0 x1 s).io = s.io ∧
    (linkMod x0 x1 s).store = s.store ∧ (linkMod x0 x1 s).flacon = s.flacon ∧ (linkMod x0 x1 s).disp = s.disp ∧
    (linkMod x0 x1 s).svc = s.svc ∧ (linkMod x0 x1 s).upd = s.upd := by
  refine ⟨?_, ?_, ?_, ?_, ?_, ?_, ?_, ?_, ?_, ?_, ?_, ?_, ?_, ?_, ?_, ?_, ?_, ?_, ?_, ?_, ?_, ?_, ?_, ?_, ?_, ?_, ?_, ?_, ?_, ?_⟩ <;> rfl

@[simp] theorem pointSet_state (x0 : Nat) (x1 : Point) (s : State) :
    (pointSet x0 x1 s).pending = s.pending ∧ (pointSet x0 x1 s).selfQ = s.selfQ ∧ (pointSet x0 x1 s).taking = s.taking ∧
    (pointSet x0 x1 s).clock = s.clock ∧ (pointSet x0 x1 s).fresh = s.fresh ∧ (pointSet x0 x1 s).unspec = s.unspec ∧
    (pointSet x0 x1 s).serial = s.serial ∧ (pointSet x0 x1 s).hwIssue = s.hwIssue ∧ (pointSet x0 x1 s).rsq = s.rsq ∧
    (pointSet x0 x1 s).ctr = s.ctr ∧ (pointSet x0 x1 s).reg = s.reg ∧ (pointSet x0 x1 s).tri = s.tri ∧ (pointSet x0 x1 s).vals = s.vals ∧
    (pointSet x0 x1 s).sys = s.sys ∧ (pointSet x0 x1 s).rcd = s.rcd ∧ (pointSet x0 x1 s).cfg = s.cfg ∧ (pointSet x0 x1 s).call = s.call ∧
    (pointSet x0 x1 s).fab = s.fab ∧ (pointSet x0 x1 s).pb = s.pb ∧ (pointSet x0 x1 s).plc = s.plc ∧ (pointSet x0 x1 s).pair = s.pair ∧
    (pointSet x0 x1 s).tim = s.tim ∧ (pointSet x0 x1 s).sup = s.sup ∧ (pointSet x0 x1 s).afe = s.afe ∧ (pointSet x0 x1 s).io = s.io ∧
    (pointSet x0 x1 s).store = s.store ∧ (pointSet x0 x1 s).flacon = s.flacon ∧ (pointSet x0 x1 s).disp = s.disp ∧
    (pointSet x0 x1 s).svc = s.svc ∧ (pointSet x0 x1 s).upd = s.upd := by
  refine ⟨?_, ?_, ?_, ?_, ?_, ?_, ?_, ?_, ?_, ?_, ?_, ?_, ?_, ?_, ?_, ?_, ?_, ?_, ?_, ?_, ?_, ?_, ?_, ?_, ?_, ?_, ?_, ?_, ?_, ?_⟩ <;> rfl

@[simp] theorem queueCmd_state (x0 : BitVec 12) (x1 : AlmOp) (s : State) :
    (queueCmd x0 x1 s).pending = s.pending ∧ (queueCmd x0 x1 s).selfQ = s.selfQ ∧ (queueCmd x0 x1 s).taking = s.taking ∧
    (queueCmd x0 x1 s).clock = s.clock ∧ (queueCmd x0 x1 s).fresh = s.fresh ∧ (queueCmd x0 x1 s).unspec = s.unspec ∧
    (queueCmd x0 x1 s).serial = s.serial ∧ (queueCmd x0 x1 s).hwIssue = s.hwIssue ∧ (queueCmd x0 x1 s).reg = s.reg ∧
    (queueCmd x0 x1 s).tri = s.tri ∧ (queueCmd x0 x1 s).vals = s.vals ∧ (queueCmd x0 x1 s).sys = s.sys ∧ (queueCmd x0 x1 s).rcd = s.rcd ∧
    (queueCmd x0 x1 s).cfg = s.cfg ∧ (queueCmd x0 x1 s).call = s.call ∧ (queueCmd x0 x1 s).fab = s.fab ∧ (queueCmd x0 x1 s).pb = s.pb ∧
    (queueCmd x0 x1 s).plc = s.plc ∧ (queueCmd x0 x1 s).pair = s.pair ∧ (queueCmd x0 x1 s).tim = s.tim ∧ (queueCmd x0 x1 s).sup = s.sup ∧
    (queueCmd x0 x1 s).afe = s.afe ∧ (queueCmd x0 x1 s).io = s.io ∧ (queueCmd x0 x1 s).store = s.store ∧
    (queueCmd x0 x1 s).flacon = s.flacon ∧ (queueCmd x0 x1 s).disp = s.disp ∧ (queueCmd x0 x1 s).svc = s.svc ∧
    (queueCmd x0 x1 s).upd = s.upd := by
  unfold queueCmd; (repeat' split) <;> refine ⟨?_, ?_, ?_, ?_, ?_, ?_, ?_, ?_, ?_, ?_, ?_, ?_, ?_, ?_, ?_, ?_, ?_, ?_, ?_, ?_, ?_, ?_, ?_, ?_, ?_, ?_, ?_, ?_⟩ <;> first | rfl | simp

@[simp] theorem accSet_state (x0 : BitVec 16) (x1 : AccItem) (s : State) :
    (accSet x0 x1 s).pending = s.pending ∧ (accSet x0 x1 s).selfQ = s.selfQ ∧ (accSet x0 x1 s).taking = s.taking ∧
    (accSet x0 x1 s).clock = s.clock ∧ (accSet x0 x1 s).fresh = s.fresh ∧ (accSet x0 x1 s).unspec = s.unspec ∧
    (accSet x0 x1 s).serial = s.serial ∧ (accSet x0 x1 s).hwIssue = s.hwIssue ∧ (accSet x0 x1 s).rsq = s.rsq ∧
    (accSet x0 x1 s).ctr = s.ctr ∧ (accSet x0 x1 s).reg = s.reg ∧ (accSet x0 x1 s).tri = s.tri ∧ (accSet x0 x1 s).vals = s.vals ∧
    (accSet x0 x1 s).sys = s.sys ∧ (accSet x0 x1 s).rcd = s.rcd ∧ (accSet x0 x1 s).cfg = s.cfg ∧ (accSet x0 x1 s).alm = s.alm ∧
    (accSet x0 x1 s).fab = s.fab ∧ (accSet x0 x1 s).pb = s.pb ∧ (accSet x0 x1 s).plc = s.plc ∧ (accSet x0 x1 s).pair = s.pair ∧
    (accSet x0 x1 s).tim = s.tim ∧ (accSet x0 x1 s).sup = s.sup ∧ (accSet x0 x1 s).afe = s.afe ∧ (accSet x0 x1 s).io = s.io ∧
    (accSet x0 x1 s).store = s.store ∧ (accSet x0 x1 s).flacon = s.flacon ∧ (accSet x0 x1 s).disp = s.disp ∧ (accSet x0 x1 s).svc = s.svc ∧
    (accSet x0 x1 s).upd = s.upd := by
  refine ⟨?_, ?_, ?_, ?_, ?_, ?_, ?_, ?_, ?_, ?_, ?_, ?_, ?_, ?_, ?_, ?_, ?_, ?_, ?_, ?_, ?_, ?_, ?_, ?_, ?_, ?_, ?_, ?_, ?_, ?_⟩ <;> rfl

@[simp] theorem pbMod_state (x0 : Fin 2) (x1 : PbPort → PbPort) (s : State) :
    (pbMod x0 x1 s).pending = s.pending ∧ (pbMod x0 x1 s).selfQ = s.selfQ ∧ (pbMod x0 x1 s).taking = s.taking ∧
    (pbMod x0 x1 s).clock = s.clock ∧ (pbMod x0 x1 s).fresh = s.fresh ∧ (pbMod x0 x1 s).unspec = s.unspec ∧
    (pbMod x0 x1 s).serial = s.serial ∧ (pbMod x0 x1 s).hwIssue = s.hwIssue ∧ (pbMod x0 x1 s).rsq = s.rsq ∧ (pbMod x0 x1 s).ctr = s.ctr ∧
    (pbMod x0 x1 s).reg = s.reg ∧ (pbMod x0 x1 s).tri = s.tri ∧ (pbMod x0 x1 s).vals = s.vals ∧ (pbMod x0 x1 s).sys = s.sys ∧
    (pbMod x0 x1 s).rcd = s.rcd ∧ (pbMod x0 x1 s).cfg = s.cfg ∧ (pbMod x0 x1 s).alm = s.alm ∧ (pbMod x0 x1 s).call = s.call ∧
    (pbMod x0 x1 s).fab = s.fab ∧ (pbMod x0 x1 s).plc = s.plc ∧ (pbMod x0 x1 s).pair = s.pair ∧ (pbMod x0 x1 s).tim = s.tim ∧
    (pbMod x0 x1 s).sup = s.sup ∧ (pbMod x0 x1 s).afe = s.afe ∧ (pbMod x0 x1 s).io = s.io ∧ (pbMod x0 x1 s).store = s.store ∧
    (pbMod x0 x1 s).flacon = s.flacon ∧ (pbMod x0 x1 s).disp = s.disp ∧ (pbMod x0 x1 s).svc = s.svc ∧ (pbMod x0 x1 s).upd = s.upd := by
  unfold pbMod; (repeat' split) <;> refine ⟨?_, ?_, ?_, ?_, ?_, ?_, ?_, ?_, ?_, ?_, ?_, ?_, ?_, ?_, ?_, ?_, ?_, ?_, ?_, ?_, ?_, ?_, ?_, ?_, ?_, ?_, ?_, ?_, ?_, ?_⟩ <;> first | rfl | simp

@[simp] theorem panelMod_state (x0 : Fin 2) (x1 : Fin 64) (x2 : PanelSt → PanelSt) (s : State) :
    (panelMod x0 x1 x2 s).pending = s.pending ∧ (panelMod x0 x1 x2 s).selfQ = s.selfQ ∧ (panelMod x0 x1 x2 s).taking = s.taking ∧
    (panelMod x0 x1 x2 s).clock = s.clock ∧ (panelMod x0 x1 x2 s).fresh = s.fresh ∧ (panelMod x0 x1 x2 s).unspec = s.unspec ∧
    (panelMod x0 x1 x2 s).serial = s.serial ∧ (panelMod x0 x1 x2 s).hwIssue = s.hwIssue ∧ (panelMod x0 x1 x2 s).rsq = s.rsq ∧
    (panelMod x0 x1 x2 s).ctr = s.ctr ∧ (panelMod x0 x1 x2 s).reg = s.reg ∧ (panelMod x0 x1 x2 s).tri = s.tri ∧
    (panelMod x0 x1 x2 s).vals = s.vals ∧ (panelMod x0 x1 x2 s).sys = s.sys ∧ (panelMod x0 x1 x2 s).rcd = s.rcd ∧
    (panelMod x0 x1 x2 s).cfg = s.cfg ∧ (panelMod x0 x1 x2 s).alm = s.alm ∧ (panelMod x0 x1 x2 s).call = s.call ∧
    (panelMod x0 x1 x2 s).fab = s.fab ∧ (panelMod x0 x1 x2 s).plc = s.plc ∧ (panelMod x0 x1 x2 s).pair = s.pair ∧
    (panelMod x0 x1 x2 s).tim = s.tim ∧ (panelMod x0 x1 x2 s).sup = s.sup ∧ (panelMod x0 x1 x2 s).afe = s.afe ∧
    (panelMod x0 x1 x2 s).io = s.io ∧ (panelMod x0 x1 x2 s).store = s.store ∧ (panelMod x0 x1 x2 s).flacon = s.flacon ∧
    (panelMod x0 x1 x2 s).disp = s.disp ∧ (panelMod x0 x1 x2 s).svc = s.svc ∧ (panelMod x0 x1 x2 s).upd = s.upd := by
  refine ⟨?_, ?_, ?_, ?_, ?_, ?_, ?_, ?_, ?_, ?_, ?_, ?_, ?_, ?_, ?_, ?_, ?_, ?_, ?_, ?_, ?_, ?_, ?_, ?_, ?_, ?_, ?_, ?_, ?_, ?_⟩ <;> rfl

@[simp] theorem rosSet_state (x0 : Word) (x1 : CallItem) (s : State) :
    (rosSet x0 x1 s).pending = s.pending ∧ (rosSet x0 x1 s).selfQ = s.selfQ ∧ (rosSet x0 x1 s).taking = s.taking ∧
    (rosSet x0 x1 s).clock = s.clock ∧ (rosSet x0 x1 s).fresh = s.fresh ∧ (rosSet x0 x1 s).unspec = s.unspec ∧
    (rosSet x0 x1 s).serial = s.serial ∧ (rosSet x0 x1 s).hwIssue = s.hwIssue ∧ (rosSet x0 x1 s).rsq = s.rsq ∧
    (rosSet x0 x1 s).ctr = s.ctr ∧ (rosSet x0 x1 s).reg = s.reg ∧ (rosSet x0 x1 s).tri = s.tri ∧ (rosSet x0 x1 s).vals = s.vals ∧
    (rosSet x0 x1 s).sys = s.sys ∧ (rosSet x0 x1 s).rcd = s.rcd ∧ (rosSet x0 x1 s).cfg = s.cfg ∧ (rosSet x0 x1 s).alm = s.alm ∧
    (rosSet x0 x1 s).fab = s.fab ∧ (rosSet x0 x1 s).pb = s.pb ∧ (rosSet x0 x1 s).plc = s.plc ∧ (rosSet x0 x1 s).pair = s.pair ∧
    (rosSet x0 x1 s).tim = s.tim ∧ (rosSet x0 x1 s).sup = s.sup ∧ (rosSet x0 x1 s).afe = s.afe ∧ (rosSet x0 x1 s).io = s.io ∧
    (rosSet x0 x1 s).store = s.store ∧ (rosSet x0 x1 s).flacon = s.flacon ∧ (rosSet x0 x1 s).disp = s.disp ∧ (rosSet x0 x1 s).svc = s.svc ∧
    (rosSet x0 x1 s).upd = s.upd := by
  refine ⟨?_, ?_, ?_, ?_, ?_, ?_, ?_, ?_, ?_, ?_, ?_, ?_, ?_, ?_, ?_, ?_, ?_, ?_, ?_, ?_, ?_, ?_, ?_, ?_, ?_, ?_, ?_, ?_, ?_, ?_⟩ <;> rfl

@[simp] theorem itemMod_state (x0 : Word) (x1 : ItemSt → ItemSt) (s : State) :
    (itemMod x0 x1 s).pending = s.pending ∧ (itemMod x0 x1 s).selfQ = s.selfQ ∧ (itemMod x0 x1 s).taking = s.taking ∧
    (itemMod x0 x1 s).clock = s.clock ∧ (itemMod x0 x1 s).fresh = s.fresh ∧ (itemMod x0 x1 s).unspec = s.unspec ∧
    (itemMod x0 x1 s).serial = s.serial ∧ (itemMod x0 x1 s).hwIssue = s.hwIssue ∧ (itemMod x0 x1 s).rsq = s.rsq ∧
    (itemMod x0 x1 s).ctr = s.ctr ∧ (itemMod x0 x1 s).reg = s.reg ∧ (itemMod x0 x1 s).tri = s.tri ∧ (itemMod x0 x1 s).vals = s.vals ∧
    (itemMod x0 x1 s).sys = s.sys ∧ (itemMod x0 x1 s).rcd = s.rcd ∧ (itemMod x0 x1 s).cfg = s.cfg ∧ (itemMod x0 x1 s).alm = s.alm ∧
    (itemMod x0 x1 s).call = s.call ∧ (itemMod x0 x1 s).fab = s.fab ∧ (itemMod x0 x1 s).pb = s.pb ∧ (itemMod x0 x1 s).pair = s.pair ∧
    (itemMod x0 x1 s).tim = s.tim ∧ (itemMod x0 x1 s).sup = s.sup ∧ (itemMod x0 x1 s).afe = s.afe ∧ (itemMod x0 x1 s).io = s.io ∧
    (itemMod x0 x1 s).store = s.store ∧ (itemMod x0 x1 s).flacon = s.flacon ∧ (itemMod x0 x1 s).disp = s.disp ∧
    (itemMod x0 x1 s).svc = s.svc ∧ (itemMod x0 x1 s).upd = s.upd := by
  refine ⟨?_, ?_, ?_, ?_, ?_, ?_, ?_, ?_, ?_, ?_, ?_, ?_, ?_, ?_, ?_, ?_, ?_, ?_, ?_, ?_, ?_, ?_, ?_, ?_, ?_, ?_, ?_, ?_, ?_, ?_⟩ <;> rfl

@[simp] theorem chanMod_state (x0 : Fin 64) (x1 : Chan → Chan) (s : State) :
    (chanMod x0 x1 s).pending = s.pending ∧ (chanMod x0 x1 s).selfQ = s.selfQ ∧ (chanMod x0 x1 s).taking = s.taking ∧
    (chanMod x0 x1 s).clock = s.clock ∧ (chanMod x0 x1 s).fresh = s.fresh ∧ (chanMod x0 x1 s).unspec = s.unspec ∧
    (chanMod x0 x1 s).serial = s.serial ∧ (chanMod x0 x1 s).hwIssue = s.hwIssue ∧ (chanMod x0 x1 s).rsq = s.rsq ∧
    (chanMod x0 x1 s).ctr = s.ctr ∧ (chanMod x0 x1 s).reg = s.reg ∧ (chanMod x0 x1 s).tri = s.tri ∧ (chanMod x0 x1 s).vals = s.vals ∧
    (chanMod x0 x1 s).sys = s.sys ∧ (chanMod x0 x1 s).rcd = s.rcd ∧ (chanMod x0 x1 s).cfg = s.cfg ∧ (chanMod x0 x1 s).alm = s.alm ∧
    (chanMod x0 x1 s).call = s.call ∧ (chanMod x0 x1 s).fab = s.fab ∧ (chanMod x0 x1 s).pb = s.pb ∧ (chanMod x0 x1 s).plc = s.plc ∧
    (chanMod x0 x1 s).pair = s.pair ∧ (chanMod x0 x1 s).tim = s.tim ∧ (chanMod x0 x1 s).sup = s.sup ∧ (chanMod x0 x1 s).io = s.io ∧
    (chanMod x0 x1 s).store = s.store ∧ (chanMod x0 x1 s).flacon = s.flacon ∧ (chanMod x0 x1 s).disp = s.disp ∧
    (chanMod x0 x1 s).svc = s.svc ∧ (chanMod x0 x1 s).upd = s.upd := by
  refine ⟨?_, ?_, ?_, ?_, ?_, ?_, ?_, ?_, ?_, ?_, ?_, ?_, ?_, ?_, ?_, ?_, ?_, ?_, ?_, ?_, ?_, ?_, ?_, ?_, ?_, ?_, ?_, ?_, ?_, ?_⟩ <;> rfl

@[simp] theorem blkMod_state (x0 : Fin 8) (x1 : Blk → Blk) (s : State) :
    (blkMod x0 x1 s).pending = s.pending ∧ (blkMod x0 x1 s).selfQ = s.selfQ ∧ (blkMod x0 x1 s).taking = s.taking ∧
    (blkMod x0 x1 s).clock = s.clock ∧ (blkMod x0 x1 s).fresh = s.fresh ∧ (blkMod x0 x1 s).unspec = s.unspec ∧
    (blkMod x0 x1 s).serial = s.serial ∧ (blkMod x0 x1 s).hwIssue = s.hwIssue ∧ (blkMod x0 x1 s).rsq = s.rsq ∧
    (blkMod x0 x1 s).ctr = s.ctr ∧ (blkMod x0 x1 s).reg = s.reg ∧ (blkMod x0 x1 s).tri = s.tri ∧ (blkMod x0 x1 s).vals = s.vals ∧
    (blkMod x0 x1 s).sys = s.sys ∧ (blkMod x0 x1 s).rcd = s.rcd ∧ (blkMod x0 x1 s).cfg = s.cfg ∧ (blkMod x0 x1 s).alm = s.alm ∧
    (blkMod x0 x1 s).call = s.call ∧ (blkMod x0 x1 s).fab = s.fab ∧ (blkMod x0 x1 s).pb = s.pb ∧ (blkMod x0 x1 s).plc = s.plc ∧
    (blkMod x0 x1 s).pair = s.pair ∧ (blkMod x0 x1 s).tim = s.tim ∧ (blkMod x0 x1 s).sup = s.sup ∧ (blkMod x0 x1 s).io = s.io ∧
    (blkMod x0 x1 s).store = s.store ∧ (blkMod x0 x1 s).flacon = s.flacon ∧ (blkMod x0 x1 s).disp = s.disp ∧ (blkMod x0 x1 s).svc = s.svc ∧
    (blkMod x0 x1 s).upd = s.upd := by
  refine ⟨?_, ?_, ?_, ?_, ?_, ?_, ?_, ?_, ?_, ?_, ?_, ?_, ?_, ?_, ?_, ?_, ?_, ?_, ?_, ?_, ?_, ?_, ?_, ?_, ?_, ?_, ?_, ?_, ?_, ?_⟩ <;> rfl

@[simp] theorem chanRec_state (x0 : BitVec 2) (x1 : Fin 64) (s : State) :
    (chanRec x0 x1 s).pending = s.pending ∧ (chanRec x0 x1 s).selfQ = s.selfQ ∧ (chanRec x0 x1 s).taking = s.taking ∧
    (chanRec x0 x1 s).clock = s.clock ∧ (chanRec x0 x1 s).fresh = s.fresh ∧ (chanRec x0 x1 s).unspec = s.unspec ∧
    (chanRec x0 x1 s).serial = s.serial ∧ (chanRec x0 x1 s).hwIssue = s.hwIssue ∧ (chanRec x0 x1 s).reg = s.reg ∧
    (chanRec x0 x1 s).tri = s.tri ∧ (chanRec x0 x1 s).vals = s.vals ∧ (chanRec x0 x1 s).sys = s.sys ∧ (chanRec x0 x1 s).cfg = s.cfg ∧
    (chanRec x0 x1 s).alm = s.alm ∧ (chanRec x0 x1 s).call = s.call ∧ (chanRec x0 x1 s).fab = s.fab ∧ (chanRec x0 x1 s).pb = s.pb ∧
    (chanRec x0 x1 s).plc = s.plc ∧ (chanRec x0 x1 s).pair = s.pair ∧ (chanRec x0 x1 s).tim = s.tim ∧ (chanRec x0 x1 s).sup = s.sup ∧
    (chanRec x0 x1 s).afe = s.afe ∧ (chanRec x0 x1 s).io = s.io ∧ (chanRec x0 x1 s).store = s.store ∧ (chanRec x0 x1 s).flacon = s.flacon ∧
    (chanRec x0 x1 s).disp = s.disp ∧ (chanRec x0 x1 s).svc = s.svc ∧ (chanRec x0 x1 s).upd = s.upd := by
  unfold chanRec; simp

@[simp] theorem chanUndef_state (x0 : Fin 64) (s : State) :
    (chanUndef x0 s).pending = s.pending ∧ (chanUndef x0 s).selfQ = s.selfQ ∧ (chanUndef x0 s).taking = s.taking ∧
    (chanUndef x0 s).clock = s.clock ∧ (chanUndef x0 s).fresh = s.fresh ∧ (chanUndef x0 s).serial = s.serial ∧
    (chanUndef x0 s).hwIssue = s.hwIssue ∧ (chanUndef x0 s).rsq = s.rsq ∧ (chanUndef x0 s).ctr = s.ctr ∧ (chanUndef x0 s).reg = s.reg ∧
    (chanUndef x0 s).tri = s.tri ∧ (chanUndef x0 s).vals = s.vals ∧ (chanUndef x0 s).sys = s.sys ∧ (chanUndef x0 s).rcd = s.rcd ∧
    (chanUndef x0 s).cfg = s.cfg ∧ (chanUndef x0 s).alm = s.alm ∧ (chanUndef x0 s).call = s.call ∧ (chanUndef x0 s).fab = s.fab ∧
    (chanUndef x0 s).pb = s.pb ∧ (chanUndef x0 s).plc = s.plc ∧ (chanUndef x0 s).pair = s.pair ∧ (chanUndef x0 s).tim = s.tim ∧
    (chanUndef x0 s).sup = s.sup ∧ (chanUndef x0 s).afe = s.afe ∧ (chanUndef x0 s).io = s.io ∧ (chanUndef x0 s).store = s.store ∧
    (chanUndef x0 s).flacon = s.flacon ∧ (chanUndef x0 s).disp = s.disp ∧ (chanUndef x0 s).svc = s.svc ∧ (chanUndef x0 s).upd = s.upd := by
  unfold chanUndef; simp

@[simp] theorem arMod_state (x0 : Fin 8) (x1 : ArSt → ArSt) (s : State) :
    (arMod x0 x1 s).pending = s.pending ∧ (arMod x0 x1 s).selfQ = s.selfQ ∧ (arMod x0 x1 s).taking = s.taking ∧
    (arMod x0 x1 s).clock = s.clock ∧ (arMod x0 x1 s).fresh = s.fresh ∧ (arMod x0 x1 s).unspec = s.unspec ∧
    (arMod x0 x1 s).serial = s.serial ∧ (arMod x0 x1 s).hwIssue = s.hwIssue ∧ (arMod x0 x1 s).rsq = s.rsq ∧ (arMod x0 x1 s).ctr = s.ctr ∧
    (arMod x0 x1 s).reg = s.reg ∧ (arMod x0 x1 s).tri = s.tri ∧ (arMod x0 x1 s).vals = s.vals ∧ (arMod x0 x1 s).sys = s.sys ∧
    (arMod x0 x1 s).rcd = s.rcd ∧ (arMod x0 x1 s).cfg = s.cfg ∧ (arMod x0 x1 s).alm = s.alm ∧ (arMod x0 x1 s).call = s.call ∧
    (arMod x0 x1 s).fab = s.fab ∧ (arMod x0 x1 s).pb = s.pb ∧ (arMod x0 x1 s).plc = s.plc ∧ (arMod x0 x1 s).pair = s.pair ∧
    (arMod x0 x1 s).tim = s.tim ∧ (arMod x0 x1 s).sup = s.sup ∧ (arMod x0 x1 s).afe = s.afe ∧ (arMod x0 x1 s).store = s.store ∧
    (arMod x0 x1 s).flacon = s.flacon ∧ (arMod x0 x1 s).disp = s.disp ∧ (arMod x0 x1 s).svc = s.svc ∧ (arMod x0 x1 s).upd = s.upd := by
  refine ⟨?_, ?_, ?_, ?_, ?_, ?_, ?_, ?_, ?_, ?_, ?_, ?_, ?_, ?_, ?_, ?_, ?_, ?_, ?_, ?_, ?_, ?_, ?_, ?_, ?_, ?_, ?_, ?_, ?_, ?_⟩ <;> rfl

@[simp] theorem doMod_state (x0 : Fin 16) (x1 : DoSt → DoSt) (s : State) :
    (doMod x0 x1 s).pending = s.pending ∧ (doMod x0 x1 s).selfQ = s.selfQ ∧ (doMod x0 x1 s).taking = s.taking ∧
    (doMod x0 x1 s).clock = s.clock ∧ (doMod x0 x1 s).fresh = s.fresh ∧ (doMod x0 x1 s).unspec = s.unspec ∧
    (doMod x0 x1 s).serial = s.serial ∧ (doMod x0 x1 s).hwIssue = s.hwIssue ∧ (doMod x0 x1 s).rsq = s.rsq ∧ (doMod x0 x1 s).ctr = s.ctr ∧
    (doMod x0 x1 s).reg = s.reg ∧ (doMod x0 x1 s).tri = s.tri ∧ (doMod x0 x1 s).vals = s.vals ∧ (doMod x0 x1 s).sys = s.sys ∧
    (doMod x0 x1 s).rcd = s.rcd ∧ (doMod x0 x1 s).cfg = s.cfg ∧ (doMod x0 x1 s).alm = s.alm ∧ (doMod x0 x1 s).call = s.call ∧
    (doMod x0 x1 s).fab = s.fab ∧ (doMod x0 x1 s).pb = s.pb ∧ (doMod x0 x1 s).plc = s.plc ∧ (doMod x0 x1 s).pair = s.pair ∧
    (doMod x0 x1 s).tim = s.tim ∧ (doMod x0 x1 s).sup = s.sup ∧ (doMod x0 x1 s).afe = s.afe ∧ (doMod x0 x1 s).store = s.store ∧
    (doMod x0 x1 s).flacon = s.flacon ∧ (doMod x0 x1 s).disp = s.disp ∧ (doMod x0 x1 s).svc = s.svc ∧ (doMod x0 x1 s).upd = s.upd := by
  refine ⟨?_, ?_, ?_, ?_, ?_, ?_, ?_, ?_, ?_, ?_, ?_, ?_, ?_, ?_, ?_, ?_, ?_, ?_, ?_, ?_, ?_, ?_, ?_, ?_, ?_, ?_, ?_, ?_, ?_, ?_⟩ <;> rfl

@[simp] theorem pairSet_state (x0 : PairSt → PairSt) (s : State) :
    (pairSet x0 s).pending = s.pending ∧ (pairSet x0 s).selfQ = s.selfQ ∧ (pairSet x0 s).taking = s.taking ∧
    (pairSet x0 s).clock = s.clock ∧ (pairSet x0 s).fresh = s.fresh ∧ (pairSet x0 s).unspec = s.unspec ∧ (pairSet x0 s).serial = s.serial ∧
    (pairSet x0 s).hwIssue = s.hwIssue ∧ (pairSet x0 s).rsq = s.rsq ∧ (pairSet x0 s).ctr = s.ctr ∧ (pairSet x0 s).reg = s.reg ∧
    (pairSet x0 s).tri = s.tri ∧ (pairSet x0 s).vals = s.vals ∧ (pairSet x0 s).sys = s.sys ∧ (pairSet x0 s).rcd = s.rcd ∧
    (pairSet x0 s).cfg = s.cfg ∧ (pairSet x0 s).alm = s.alm ∧ (pairSet x0 s).call = s.call ∧ (pairSet x0 s).fab = s.fab ∧
    (pairSet x0 s).pb = s.pb ∧ (pairSet x0 s).plc = s.plc ∧ (pairSet x0 s).tim = s.tim ∧ (pairSet x0 s).sup = s.sup ∧
    (pairSet x0 s).afe = s.afe ∧ (pairSet x0 s).io = s.io ∧ (pairSet x0 s).store = s.store ∧ (pairSet x0 s).flacon = s.flacon ∧
    (pairSet x0 s).disp = s.disp ∧ (pairSet x0 s).svc = s.svc ∧ (pairSet x0 s).upd = s.upd := by
  refine ⟨?_, ?_, ?_, ?_, ?_, ?_, ?_, ?_, ?_, ?_, ?_, ?_, ?_, ?_, ?_, ?_, ?_, ?_, ?_, ?_, ?_, ?_, ?_, ?_, ?_, ?_, ?_, ?_, ?_, ?_⟩ <;> rfl

@[simp] theorem timMod_state (x0 : TimeSt → TimeSt) (s : State) :
    (timMod x0 s).pending = s.pending ∧ (timMod x0 s).selfQ = s.selfQ ∧ (timMod x0 s).taking = s.taking ∧ (timMod x0 s).clock = s.clock ∧
    (timMod x0 s).fresh = s.fresh ∧ (timMod x0 s).unspec = s.unspec ∧ (timMod x0 s).serial = s.serial ∧ (timMod x0 s).hwIssue = s.hwIssue ∧
    (timMod x0 s).rsq = s.rsq ∧ (timMod x0 s).ctr = s.ctr ∧ (timMod x0 s).reg = s.reg ∧ (timMod x0 s).tri = s.tri ∧
    (timMod x0 s).vals = s.vals ∧ (timMod x0 s).sys = s.sys ∧ (timMod x0 s).rcd = s.rcd ∧ (timMod x0 s).cfg = s.cfg ∧
    (timMod x0 s).alm = s.alm ∧ (timMod x0 s).call = s.call ∧ (timMod x0 s).fab = s.fab ∧ (timMod x0 s).pb = s.pb ∧
    (timMod x0 s).plc = s.plc ∧ (timMod x0 s).pair = s.pair ∧ (timMod x0 s).sup = s.sup ∧ (timMod x0 s).afe = s.afe ∧
    (timMod x0 s).io = s.io ∧ (timMod x0 s).store = s.store ∧ (timMod x0 s).flacon = s.flacon ∧ (timMod x0 s).disp = s.disp ∧
    (timMod x0 s).svc = s.svc ∧ (timMod x0 s).upd = s.upd := by
  refine ⟨?_, ?_, ?_, ?_, ?_, ?_, ?_, ?_, ?_, ?_, ?_, ?_, ?_, ?_, ?_, ?_, ?_, ?_, ?_, ?_, ?_, ?_, ?_, ?_, ?_, ?_, ?_, ?_, ?_, ?_⟩ <;> rfl

@[simp] theorem timeRec_state (x0 : BitVec 2) (x1 : List Word) (s : State) :
    (timeRec x0 x1 s).pending = s.pending ∧ (timeRec x0 x1 s).selfQ = s.selfQ ∧ (timeRec x0 x1 s).taking = s.taking ∧
    (timeRec x0 x1 s).clock = s.clock ∧ (timeRec x0 x1 s).fresh = s.fresh ∧ (timeRec x0 x1 s).unspec = s.unspec ∧
    (timeRec x0 x1 s).serial = s.serial ∧ (timeRec x0 x1 s).hwIssue = s.hwIssue ∧ (timeRec x0 x1 s).reg = s.reg ∧
    (timeRec x0 x1 s).tri = s.tri ∧ (timeRec x0 x1 s).vals = s.vals ∧ (timeRec x0 x1 s).sys = s.sys ∧ (timeRec x0 x1 s).cfg = s.cfg ∧
    (timeRec x0 x1 s).alm = s.alm ∧ (timeRec x0 x1 s).call = s.call ∧ (timeRec x0 x1 s).fab = s.fab ∧ (timeRec x0 x1 s).pb = s.pb ∧
    (timeRec x0 x1 s).plc = s.plc ∧ (timeRec x0 x1 s).pair = s.pair ∧ (timeRec x0 x1 s).sup = s.sup ∧ (timeRec x0 x1 s).afe = s.afe ∧
    (timeRec x0 x1 s).io = s.io ∧ (timeRec x0 x1 s).store = s.store ∧ (timeRec x0 x1 s).flacon = s.flacon ∧
    (timeRec x0 x1 s).disp = s.disp ∧ (timeRec x0 x1 s).svc = s.svc ∧ (timeRec x0 x1 s).upd = s.upd := by
  unfold timeRec; (repeat' split) <;> refine ⟨?_, ?_, ?_, ?_, ?_, ?_, ?_, ?_, ?_, ?_, ?_, ?_, ?_, ?_, ?_, ?_, ?_, ?_, ?_, ?_, ?_, ?_, ?_, ?_, ?_, ?_, ?_⟩ <;> first | rfl | simp

@[simp] theorem calSet_state (x0 : Fin 64) (x1 : F32 × F32 × Word) (s : State) :
    (calSet x0 x1 s).pending = s.pending ∧ (calSet x0 x1 s).selfQ = s.selfQ ∧ (calSet x0 x1 s).taking = s.taking ∧
    (calSet x0 x1 s).clock = s.clock ∧ (calSet x0 x1 s).fresh = s.fresh ∧ (calSet x0 x1 s).unspec = s.unspec ∧
    (calSet x0 x1 s).serial = s.serial ∧ (calSet x0 x1 s).hwIssue = s.hwIssue ∧ (calSet x0 x1 s).rsq = s.rsq ∧
    (calSet x0 x1 s).ctr = s.ctr ∧ (calSet x0 x1 s).reg = s.reg ∧ (calSet x0 x1 s).tri = s.tri ∧ (calSet x0 x1 s).vals = s.vals ∧
    (calSet x0 x1 s).sys = s.sys ∧ (calSet x0 x1 s).rcd = s.rcd ∧ (calSet x0 x1 s).cfg = s.cfg ∧ (calSet x0 x1 s).alm = s.alm ∧
    (calSet x0 x1 s).call = s.call ∧ (calSet x0 x1 s).fab = s.fab ∧ (calSet x0 x1 s).pb = s.pb ∧ (calSet x0 x1 s).plc = s.plc ∧
    (calSet x0 x1 s).pair = s.pair ∧ (calSet x0 x1 s).tim = s.tim ∧ (calSet x0 x1 s).sup = s.sup ∧ (calSet x0 x1 s).afe = s.afe ∧
    (calSet x0 x1 s).io = s.io ∧ (calSet x0 x1 s).flacon = s.flacon ∧ (calSet x0 x1 s).disp = s.disp ∧ (calSet x0 x1 s).svc = s.svc ∧
    (calSet x0 x1 s).upd = s.upd := by
  refine ⟨?_, ?_, ?_, ?_, ?_, ?_, ?_, ?_, ?_, ?_, ?_, ?_, ?_, ?_, ?_, ?_, ?_, ?_, ?_, ?_, ?_, ?_, ?_, ?_, ?_, ?_, ?_, ?_, ?_, ?_⟩ <;> rfl

@[simp] theorem dispMod_state (x0 : DispSt → DispSt) (s : State) :
    (dispMod x0 s).pending = s.pending ∧ (dispMod x0 s).selfQ = s.selfQ ∧ (dispMod x0 s).taking = s.taking ∧
    (dispMod x0 s).clock = s.clock ∧ (dispMod x0 s).fresh = s.fresh ∧ (dispMod x0 s).unspec = s.unspec ∧ (dispMod x0 s).serial = s.serial ∧
    (dispMod x0 s).hwIssue = s.hwIssue ∧ (dispMod x0 s).rsq = s.rsq ∧ (dispMod x0 s).ctr = s.ctr ∧ (dispMod x0 s).reg = s.reg ∧
    (dispMod x0 s).tri = s.tri ∧ (dispMod x0 s).vals = s.vals ∧ (dispMod x0 s).sys = s.sys ∧ (dispMod x0 s).rcd = s.rcd ∧
    (dispMod x0 s).cfg = s.cfg ∧ (dispMod x0 s).alm = s.alm ∧ (dispMod x0 s).call = s.call ∧ (dispMod x0 s).fab = s.fab ∧
    (dispMod x0 s).pb = s.pb ∧ (dispMod x0 s).plc = s.plc ∧ (dispMod x0 s).pair = s.pair ∧ (dispMod x0 s).tim = s.tim ∧
    (dispMod x0 s).sup = s.sup ∧ (dispMod x0 s).afe = s.afe ∧ (dispMod x0 s).io = s.io ∧ (dispMod x0 s).store = s.store ∧
    (dispMod x0 s).flacon = s.flacon ∧ (dispMod x0 s).svc = s.svc ∧ (dispMod x0 s).upd = s.upd := by
  refine ⟨?_, ?_, ?_, ?_, ?_, ?_, ?_, ?_, ?_, ?_, ?_, ?_, ?_, ?_, ?_, ?_, ?_, ?_, ?_, ?_, ?_, ?_, ?_, ?_, ?_, ?_, ?_, ?_, ?_, ?_⟩ <;> rfl

@[simp] theorem dispRec_state (x0 : BitVec 2) (s : State) :
    (dispRec x0 s).pending = s.pending ∧ (dispRec x0 s).selfQ = s.selfQ ∧ (dispRec x0 s).taking = s.taking ∧
    (dispRec x0 s).clock = s.clock ∧ (dispRec x0 s).fresh = s.fresh ∧ (dispRec x0 s).unspec = s.unspec ∧ (dispRec x0 s).serial = s.serial ∧
    (dispRec x0 s).hwIssue = s.hwIssue ∧ (dispRec x0 s).reg = s.reg ∧ (dispRec x0 s).tri = s.tri ∧ (dispRec x0 s).vals = s.vals ∧
    (dispRec x0 s).sys = s.sys ∧ (dispRec x0 s).cfg = s.cfg ∧ (dispRec x0 s).alm = s.alm ∧ (dispRec x0 s).call = s.call ∧
    (dispRec x0 s).fab = s.fab ∧ (dispRec x0 s).pb = s.pb ∧ (dispRec x0 s).plc = s.plc ∧ (dispRec x0 s).pair = s.pair ∧
    (dispRec x0 s).tim = s.tim ∧ (dispRec x0 s).sup = s.sup ∧ (dispRec x0 s).afe = s.afe ∧ (dispRec x0 s).io = s.io ∧
    (dispRec x0 s).store = s.store ∧ (dispRec x0 s).flacon = s.flacon ∧ (dispRec x0 s).disp = s.disp ∧ (dispRec x0 s).svc = s.svc ∧
    (dispRec x0 s).upd = s.upd := by
  unfold dispRec; simp

@[simp] theorem rcdMod_state (x0 : RecSt → RecSt) (s : State) :
    (rcdMod x0 s).pending = s.pending ∧ (rcdMod x0 s).selfQ = s.selfQ ∧ (rcdMod x0 s).taking = s.taking ∧ (rcdMod x0 s).clock = s.clock ∧
    (rcdMod x0 s).fresh = s.fresh ∧ (rcdMod x0 s).unspec = s.unspec ∧ (rcdMod x0 s).serial = s.serial ∧ (rcdMod x0 s).hwIssue = s.hwIssue ∧
    (rcdMod x0 s).rsq = s.rsq ∧ (rcdMod x0 s).ctr = s.ctr ∧ (rcdMod x0 s).reg = s.reg ∧ (rcdMod x0 s).tri = s.tri ∧
    (rcdMod x0 s).vals = s.vals ∧ (rcdMod x0 s).sys = s.sys ∧ (rcdMod x0 s).cfg = s.cfg ∧ (rcdMod x0 s).alm = s.alm ∧
    (rcdMod x0 s).call = s.call ∧ (rcdMod x0 s).fab = s.fab ∧ (rcdMod x0 s).pb = s.pb ∧ (rcdMod x0 s).plc = s.plc ∧
    (rcdMod x0 s).pair = s.pair ∧ (rcdMod x0 s).tim = s.tim ∧ (rcdMod x0 s).sup = s.sup ∧ (rcdMod x0 s).afe = s.afe ∧
    (rcdMod x0 s).io = s.io ∧ (rcdMod x0 s).store = s.store ∧ (rcdMod x0 s).flacon = s.flacon ∧ (rcdMod x0 s).disp = s.disp ∧
    (rcdMod x0 s).svc = s.svc ∧ (rcdMod x0 s).upd = s.upd := by
  refine ⟨?_, ?_, ?_, ?_, ?_, ?_, ?_, ?_, ?_, ?_, ?_, ?_, ?_, ?_, ?_, ?_, ?_, ?_, ?_, ?_, ?_, ?_, ?_, ?_, ?_, ?_, ?_, ?_, ?_, ?_⟩ <;> rfl

@[simp] theorem sysMod_state (x0 : SysSt → SysSt) (s : State) :
    (sysMod x0 s).pending = s.pending ∧ (sysMod x0 s).selfQ = s.selfQ ∧ (sysMod x0 s).taking = s.taking ∧ (sysMod x0 s).clock = s.clock ∧
    (sysMod x0 s).fresh = s.fresh ∧ (sysMod x0 s).unspec = s.unspec ∧ (sysMod x0 s).serial = s.serial ∧ (sysMod x0 s).hwIssue = s.hwIssue ∧
    (sysMod x0 s).rsq = s.rsq ∧ (sysMod x0 s).ctr = s.ctr ∧ (sysMod x0 s).reg = s.reg ∧ (sysMod x0 s).tri = s.tri ∧
    (sysMod x0 s).vals = s.vals ∧ (sysMod x0 s).rcd = s.rcd ∧ (sysMod x0 s).cfg = s.cfg ∧ (sysMod x0 s).alm = s.alm ∧
    (sysMod x0 s).call = s.call ∧ (sysMod x0 s).fab = s.fab ∧ (sysMod x0 s).pb = s.pb ∧ (sysMod x0 s).plc = s.plc ∧
    (sysMod x0 s).pair = s.pair ∧ (sysMod x0 s).tim = s.tim ∧ (sysMod x0 s).sup = s.sup ∧ (sysMod x0 s).afe = s.afe ∧
    (sysMod x0 s).io = s.io ∧ (sysMod x0 s).store = s.store ∧ (sysMod x0 s).flacon = s.flacon ∧ (sysMod x0 s).disp = s.disp ∧
    (sysMod x0 s).svc = s.svc ∧ (sysMod x0 s).upd = s.upd := by
  refine ⟨?_, ?_, ?_, ?_, ?_, ?_, ?_, ?_, ?_, ?_, ?_, ?_, ?_, ?_, ?_, ?_, ?_, ?_, ?_, ?_, ?_, ?_, ?_, ?_, ?_, ?_, ?_, ?_, ?_, ?_⟩ <;> rfl

@[simp] theorem setLock_state  (s : State) :
    (setLock s).pending = s.pending ∧ (setLock s).selfQ = s.selfQ ∧ (setLock s).taking = s.taking ∧ (setLock s).clock = s.clock ∧
    (setLock s).fresh = s.fresh ∧ (setLock s).unspec = s.unspec ∧ (setLock s).serial = s.serial ∧ (setLock s).hwIssue = s.hwIssue ∧
    (setLock s).rsq = s.rsq ∧ (setLock s).ctr = s.ctr ∧ (setLock s).reg = s.reg ∧ (setLock s).tri = s.tri ∧ (setLock s).vals = s.vals ∧
    (setLock s).rcd = s.rcd ∧ (setLock s).cfg = s.cfg ∧ (setLock s).alm = s.alm ∧ (setLock s).call = s.call ∧ (setLock s).fab = s.fab ∧
    (setLock s).pb = s.pb ∧ (setLock s).plc = s.plc ∧ (setLock s).pair = s.pair ∧ (setLock s).tim = s.tim ∧ (setLock s).sup = s.sup ∧
    (setLock s).afe = s.afe ∧ (setLock s).io = s.io ∧ (setLock s).store = s.store ∧ (setLock s).flacon = s.flacon ∧
    (setLock s).disp = s.disp ∧ (setLock s).svc = s.svc ∧ (setLock s).upd = s.upd := by
  refine ⟨?_, ?_, ?_, ?_, ?_, ?_, ?_, ?_, ?_, ?_, ?_, ?_, ?_, ?_, ?_, ?_, ?_, ?_, ?_, ?_, ?_, ?_, ?_, ?_, ?_, ?_, ?_, ?_, ?_, ?_⟩ <;> rfl

@[simp] theorem snapMod_state (x0 : SnapSt → SnapSt) (s : State) :
    (snapMod x0 s).pending = s.pending ∧ (snapMod x0 s).selfQ = s.selfQ ∧ (snapMod x0 s).taking = s.taking ∧
    (snapMod x0 s).clock = s.clock ∧ (snapMod x0 s).fresh = s.fresh ∧ (snapMod x0 s).unspec = s.unspec ∧ (snapMod x0 s).serial = s.serial ∧
    (snapMod x0 s).hwIssue = s.hwIssue ∧ (snapMod x0 s).rsq = s.rsq ∧ (snapMod x0 s).ctr = s.ctr ∧ (snapMod x0 s).reg = s.reg ∧
    (snapMod x0 s).tri = s.tri ∧ (snapMod x0 s).vals = s.vals ∧ (snapMod x0 s).rcd = s.rcd ∧ (snapMod x0 s).cfg = s.cfg ∧
    (snapMod x0 s).alm = s.alm ∧ (snapMod x0 s).call = s.call ∧ (snapMod x0 s).fab = s.fab ∧ (snapMod x0 s).pb = s.pb ∧
    (snapMod x0 s).plc = s.plc ∧ (snapMod x0 s).pair = s.pair ∧ (snapMod x0 s).tim = s.tim ∧ (snapMod x0 s).sup = s.sup ∧
    (snapMod x0 s).afe = s.afe ∧ (snapMod x0 s).io = s.io ∧ (snapMod x0 s).store = s.store ∧ (snapMod x0 s).flacon = s.flacon ∧
    (snapMod x0 s).disp = s.disp ∧ (snapMod x0 s).svc = s.svc ∧ (snapMod x0 s).upd = s.upd := by
  refine ⟨?_, ?_, ?_, ?_, ?_, ?_, ?_, ?_, ?_, ?_, ?_, ?_, ?_, ?_, ?_, ?_, ?_, ?_, ?_, ?_, ?_, ?_, ?_, ?_, ?_, ?_, ?_, ?_, ?_, ?_⟩ <;> rfl

@[simp] theorem bankMod_state (x0 : Bool) (x1 : Bank → Bank) (s : State) :
    (bankMod x0 x1 s).pending = s.pending ∧ (bankMod x0 x1 s).selfQ = s.selfQ ∧ (bankMod x0 x1 s).taking = s.taking ∧
    (bankMod x0 x1 s).clock = s.clock ∧ (bankMod x0 x1 s).fresh = s.fresh ∧ (bankMod x0 x1 s).unspec = s.unspec ∧
    (bankMod x0 x1 s).serial = s.serial ∧ (bankMod x0 x1 s).hwIssue = s.hwIssue ∧ (bankMod x0 x1 s).rsq = s.rsq ∧
    (bankMod x0 x1 s).ctr = s.ctr ∧ (bankMod x0 x1 s).reg = s.reg ∧ (bankMod x0 x1 s).tri = s.tri ∧ (bankMod x0 x1 s).vals = s.vals ∧
    (bankMod x0 x1 s).sys = s.sys ∧ (bankMod x0 x1 s).rcd = s.rcd ∧ (bankMod x0 x1 s).cfg = s.cfg ∧ (bankMod x0 x1 s).alm = s.alm ∧
    (bankMod x0 x1 s).call = s.call ∧ (bankMod x0 x1 s).fab = s.fab ∧ (bankMod x0 x1 s).pb = s.pb ∧ (bankMod x0 x1 s).plc = s.plc ∧
    (bankMod x0 x1 s).pair = s.pair ∧ (bankMod x0 x1 s).tim = s.tim ∧ (bankMod x0 x1 s).sup = s.sup ∧ (bankMod x0 x1 s).afe = s.afe ∧
    (bankMod x0 x1 s).io = s.io ∧ (bankMod x0 x1 s).flacon = s.flacon ∧ (bankMod x0 x1 s).disp = s.disp ∧ (bankMod x0 x1 s).svc = s.svc ∧
    (bankMod x0 x1 s).upd = s.upd := by
  refine ⟨?_, ?_, ?_, ?_, ?_, ?_, ?_, ?_, ?_, ?_, ?_, ?_, ?_, ?_, ?_, ?_, ?_, ?_, ?_, ?_, ?_, ?_, ?_, ?_, ?_, ?_, ?_, ?_, ?_, ?_⟩ <;> rfl

@[simp] theorem supMod_state (x0 : SupSt → SupSt) (s : State) :
    (supMod x0 s).pending = s.pending ∧ (supMod x0 s).selfQ = s.selfQ ∧ (supMod x0 s).taking = s.taking ∧ (supMod x0 s).clock = s.clock ∧
    (supMod x0 s).fresh = s.fresh ∧ (supMod x0 s).unspec = s.unspec ∧ (supMod x0 s).serial = s.serial ∧ (supMod x0 s).hwIssue = s.hwIssue ∧
    (supMod x0 s).rsq = s.rsq ∧ (supMod x0 s).ctr = s.ctr ∧ (supMod x0 s).reg = s.reg ∧ (supMod x0 s).tri = s.tri ∧
    (supMod x0 s).vals = s.vals ∧ (supMod x0 s).sys = s.sys ∧ (supMod x0 s).rcd = s.rcd ∧ (supMod x0 s).cfg = s.cfg ∧
    (supMod x0 s).alm = s.alm ∧ (supMod x0 s).call = s.call ∧ (supMod x0 s).fab = s.fab ∧ (supMod x0 s).pb = s.pb ∧
    (supMod x0 s).plc = s.plc ∧ (supMod x0 s).pair = s.pair ∧ (supMod x0 s).tim = s.tim ∧ (supMod x0 s).afe = s.afe ∧
    (supMod x0 s).io = s.io ∧ (supMod x0 s).store = s.store ∧ (supMod x0 s).flacon = s.flacon ∧ (supMod x0 s).disp = s.disp ∧
    (supMod x0 s).svc = s.svc ∧ (supMod x0 s).upd = s.upd := by
  refine ⟨?_, ?_, ?_, ?_, ?_, ?_, ?_, ?_, ?_, ?_, ?_, ?_, ?_, ?_, ?_, ?_, ?_, ?_, ?_, ?_, ?_, ?_, ?_, ?_, ?_, ?_, ?_, ?_, ?_, ?_⟩ <;> rfl

@[simp] theorem setBank_state (x0 : Bool) (x1 : BankState) (s : State) :
    (setBank x0 x1 s).pending = s.pending ∧ (setBank x0 x1 s).selfQ = s.selfQ ∧ (setBank x0 x1 s).taking = s.taking ∧
    (setBank x0 x1 s).clock = s.clock ∧ (setBank x0 x1 s).fresh = s.fresh ∧ (setBank x0 x1 s).unspec = s.unspec ∧
    (setBank x0 x1 s).serial = s.serial ∧ (setBank x0 x1 s).hwIssue = s.hwIssue ∧ (setBank x0 x1 s).rsq = s.rsq ∧
    (setBank x0 x1 s).ctr = s.ctr ∧ (setBank x0 x1 s).reg = s.reg ∧ (setBank x0 x1 s).tri = s.tri ∧ (setBank x0 x1 s).vals = s.vals ∧
    (setBank x0 x1 s).sys = s.sys ∧ (setBank x0 x1 s).rcd = s.rcd ∧ (setBank x0 x1 s).cfg = s.cfg ∧ (setBank x0 x1 s).alm = s.alm ∧
    (setBank x0 x1 s).call = s.call ∧ (setBank x0 x1 s).fab = s.fab ∧ (setBank x0 x1 s).pb = s.pb ∧ (setBank x0 x1 s).plc = s.plc ∧
    (setBank x0 x1 s).pair = s.pair ∧ (setBank x0 x1 s).tim = s.tim ∧ (setBank x0 x1 s).sup = s.sup ∧ (setBank x0 x1 s).afe = s.afe ∧
    (setBank x0 x1 s).io = s.io ∧ (setBank x0 x1 s).flacon = s.flacon ∧ (setBank x0 x1 s).disp = s.disp ∧ (setBank x0 x1 s).svc = s.svc ∧
    (setBank x0 x1 s).upd = s.upd := by
  refine ⟨?_, ?_, ?_, ?_, ?_, ?_, ?_, ?_, ?_, ?_, ?_, ?_, ?_, ?_, ?_, ?_, ?_, ?_, ?_, ?_, ?_, ?_, ?_, ?_, ?_, ?_, ?_, ?_, ?_, ?_⟩ <;> rfl

@[simp] theorem updMod_state (x0 : UpdSt → UpdSt) (s : State) :
    (updMod x0 s).pending = s.pending ∧ (updMod x0 s).selfQ = s.selfQ ∧ (updMod x0 s).taking = s.taking ∧ (updMod x0 s).clock = s.clock ∧
    (updMod x0 s).fresh = s.fresh ∧ (updMod x0 s).unspec = s.unspec ∧ (updMod x0 s).serial = s.serial ∧ (updMod x0 s).hwIssue = s.hwIssue ∧
    (updMod x0 s).rsq = s.rsq ∧ (updMod x0 s).ctr = s.ctr ∧ (updMod x0 s).reg = s.reg ∧ (updMod x0 s).tri = s.tri ∧
    (updMod x0 s).vals = s.vals ∧ (updMod x0 s).sys = s.sys ∧ (updMod x0 s).rcd = s.rcd ∧ (updMod x0 s).cfg = s.cfg ∧
    (updMod x0 s).alm = s.alm ∧ (updMod x0 s).call = s.call ∧ (updMod x0 s).fab = s.fab ∧ (updMod x0 s).pb = s.pb ∧
    (updMod x0 s).plc = s.plc ∧ (updMod x0 s).pair = s.pair ∧ (updMod x0 s).tim = s.tim ∧ (updMod x0 s).sup = s.sup ∧
    (updMod x0 s).afe = s.afe ∧ (updMod x0 s).io = s.io ∧ (updMod x0 s).store = s.store ∧ (updMod x0 s).flacon = s.flacon ∧
    (updMod x0 s).disp = s.disp ∧ (updMod x0 s).svc = s.svc := by
  refine ⟨?_, ?_, ?_, ?_, ?_, ?_, ?_, ?_, ?_, ?_, ?_, ?_, ?_, ?_, ?_, ?_, ?_, ?_, ?_, ?_, ?_, ?_, ?_, ?_, ?_, ?_, ?_, ?_, ?_, ?_⟩ <;> rfl

@[simp] theorem svcMod_state (x0 : SvcSt → SvcSt) (s : State) :
    (svcMod x0 s).pending = s.pending ∧ (svcMod x0 s).selfQ = s.selfQ ∧ (svcMod x0 s).taking = s.taking ∧ (svcMod x0 s).clock = s.clock ∧
    (svcMod x0 s).fresh = s.fresh ∧ (svcMod x0 s).unspec = s.unspec ∧ (svcMod x0 s).serial = s.serial ∧ (svcMod x0 s).hwIssue = s.hwIssue ∧
    (svcMod x0 s).rsq = s.rsq ∧ (svcMod x0 s).ctr = s.ctr ∧ (svcMod x0 s).reg = s.reg ∧ (svcMod x0 s).tri = s.tri ∧
    (svcMod x0 s).vals = s.vals ∧ (svcMod x0 s).sys = s.sys ∧ (svcMod x0 s).rcd = s.rcd ∧ (svcMod x0 s).cfg = s.cfg ∧
    (svcMod x0 s).alm = s.alm ∧ (svcMod x0 s).call = s.call ∧ (svcMod x0 s).fab = s.fab ∧ (svcMod x0 s).pb = s.pb ∧
    (svcMod x0 s).plc = s.plc ∧ (svcMod x0 s).pair = s.pair ∧ (svcMod x0 s).tim = s.tim ∧ (svcMod x0 s).sup = s.sup ∧
    (svcMod x0 s).afe = s.afe ∧ (svcMod x0 s).io = s.io ∧ (svcMod x0 s).store = s.store ∧ (svcMod x0 s).flacon = s.flacon ∧
    (svcMod x0 s).disp = s.disp ∧ (svcMod x0 s).upd = s.upd := by
  refine ⟨?_, ?_, ?_, ?_, ?_, ?_, ?_, ?_, ?_, ?_, ?_, ?_, ?_, ?_, ?_, ?_, ?_, ?_, ?_, ?_, ?_, ?_, ?_, ?_, ?_, ?_, ?_, ?_, ?_, ?_⟩ <;> rfl

@[simp] theorem storeMod_state (x0 : StoreSt → StoreSt) (s : State) :
    (storeMod x0 s).pending = s.pending ∧ (storeMod x0 s).selfQ = s.selfQ ∧ (storeMod x0 s).taking = s.taking ∧
    (storeMod x0 s).clock = s.clock ∧ (storeMod x0 s).fresh = s.fresh ∧ (storeMod x0 s).unspec = s.unspec ∧
    (storeMod x0 s).serial = s.serial ∧ (storeMod x0 s).hwIssue = s.hwIssue ∧ (storeMod x0 s).rsq = s.rsq ∧ (storeMod x0 s).ctr = s.ctr ∧
    (storeMod x0 s).reg = s.reg ∧ (storeMod x0 s).tri = s.tri ∧ (storeMod x0 s).vals = s.vals ∧ (storeMod x0 s).sys = s.sys ∧
    (storeMod x0 s).rcd = s.rcd ∧ (storeMod x0 s).cfg = s.cfg ∧ (storeMod x0 s).alm = s.alm ∧ (storeMod x0 s).call = s.call ∧
    (storeMod x0 s).fab = s.fab ∧ (storeMod x0 s).pb = s.pb ∧ (storeMod x0 s).plc = s.plc ∧ (storeMod x0 s).pair = s.pair ∧
    (storeMod x0 s).tim = s.tim ∧ (storeMod x0 s).sup = s.sup ∧ (storeMod x0 s).afe = s.afe ∧ (storeMod x0 s).io = s.io ∧
    (storeMod x0 s).flacon = s.flacon ∧ (storeMod x0 s).disp = s.disp ∧ (storeMod x0 s).svc = s.svc ∧ (storeMod x0 s).upd = s.upd := by
  refine ⟨?_, ?_, ?_, ?_, ?_, ?_, ?_, ?_, ?_, ?_, ?_, ?_, ?_, ?_, ?_, ?_, ?_, ?_, ?_, ?_, ?_, ?_, ?_, ?_, ?_, ?_, ?_, ?_, ?_, ?_⟩ <;> rfl

@[simp] theorem addrMiss_state  (s : State) :
    (addrMiss s).pending = s.pending ∧ (addrMiss s).selfQ = s.selfQ ∧ (addrMiss s).taking = s.taking ∧ (addrMiss s).clock = s.clock ∧
    (addrMiss s).fresh = s.fresh ∧ (addrMiss s).unspec = s.unspec ∧ (addrMiss s).serial = s.serial ∧ (addrMiss s).hwIssue = s.hwIssue ∧
    (addrMiss s).reg = s.reg ∧ (addrMiss s).tri = s.tri ∧ (addrMiss s).vals = s.vals ∧ (addrMiss s).sys = s.sys ∧
    (addrMiss s).rcd = s.rcd ∧ (addrMiss s).cfg = s.cfg ∧ (addrMiss s).alm = s.alm ∧ (addrMiss s).call = s.call ∧
    (addrMiss s).fab = s.fab ∧ (addrMiss s).pb = s.pb ∧ (addrMiss s).plc = s.plc ∧ (addrMiss s).pair = s.pair ∧ (addrMiss s).tim = s.tim ∧
    (addrMiss s).sup = s.sup ∧ (addrMiss s).afe = s.afe ∧ (addrMiss s).io = s.io ∧ (addrMiss s).store = s.store ∧
    (addrMiss s).flacon = s.flacon ∧ (addrMiss s).disp = s.disp ∧ (addrMiss s).svc = s.svc ∧ (addrMiss s).upd = s.upd := by
  refine ⟨?_, ?_, ?_, ?_, ?_, ?_, ?_, ?_, ?_, ?_, ?_, ?_, ?_, ?_, ?_, ?_, ?_, ?_, ?_, ?_, ?_, ?_, ?_, ?_, ?_, ?_, ?_, ?_, ?_⟩ <;> rfl

@[simp] theorem readFree_state  (s : State) :
    (readFree s).2.pending = s.pending ∧ (readFree s).2.selfQ = s.selfQ ∧ (readFree s).2.taking = s.taking ∧
    (readFree s).2.clock = s.clock ∧ (readFree s).2.unspec = s.unspec ∧ (readFree s).2.serial = s.serial ∧
    (readFree s).2.hwIssue = s.hwIssue ∧ (readFree s).2.rsq = s.rsq ∧ (readFree s).2.ctr = s.ctr ∧ (readFree s).2.reg = s.reg ∧
    (readFree s).2.tri = s.tri ∧ (readFree s).2.vals = s.vals ∧ (readFree s).2.sys = s.sys ∧ (readFree s).2.rcd = s.rcd ∧
    (readFree s).2.cfg = s.cfg ∧ (readFree s).2.alm = s.alm ∧ (readFree s).2.call = s.call ∧ (readFree s).2.fab = s.fab ∧
    (readFree s).2.pb = s.pb ∧ (readFree s).2.plc = s.plc ∧ (readFree s).2.pair = s.pair ∧ (readFree s).2.tim = s.tim ∧
    (readFree s).2.sup = s.sup ∧ (readFree s).2.afe = s.afe ∧ (readFree s).2.io = s.io ∧ (readFree s).2.store = s.store ∧
    (readFree s).2.flacon = s.flacon ∧ (readFree s).2.disp = s.disp ∧ (readFree s).2.svc = s.svc ∧ (readFree s).2.upd = s.upd := by
  refine ⟨?_, ?_, ?_, ?_, ?_, ?_, ?_, ?_, ?_, ?_, ?_, ?_, ?_, ?_, ?_, ?_, ?_, ?_, ?_, ?_, ?_, ?_, ?_, ?_, ?_, ?_, ?_, ?_, ?_, ?_⟩ <;> rfl

end Sys2Proof.Laws
end

