-- ==== Sys2Proof/Laws/Ops.lean ====
section
/-! SUPPORT. Laws/Ops.lean: what the shared operations do: counters, latched events, the event queue, the triplicated words. -/
namespace Sys2Proof.Laws

open Sys2Proof.Machine

variable (s : State) (a b n k : Nat) (v : Word)

/-! Counters (R44). -/

theorem satAdd_one (w : Word) : satAdd w 1 = if w = 0xFFFFFFFF then 0xFFFFFFFF else w + 1 := by
  unfold satAdd wd
  have := w.isLt
  split <;> split <;> rename_i h1 h2
  · rfl
  · have : w.toNat ≠ 0xFFFFFFFF := fun e => h2 (BitVec.eq_of_toNat_eq e)
    apply BitVec.eq_of_toNat_eq
    rw [BitVec.toNat_add]
    simp
    omega
  · subst h2; exact absurd (by decide) h1
  · apply BitVec.eq_of_toNat_eq
    rw [BitVec.toNat_add]
    simp

theorem ctrGet_bumpBy : ctrGet (bumpBy a n s) k = if k = a then satAdd (ctrGet s a) n else ctrGet s k := tabGet_set _ _ _ _ _

@[simp] theorem ctrGet_bumpBy_same : ctrGet (bumpBy a n s) a = satAdd (ctrGet s a) n := by rw [ctrGet_bumpBy, if_pos rfl]

theorem ctrGet_bump : ctrGet (bump a s) k = if k = a then satAdd (ctrGet s a) 1 else ctrGet s k := ctrGet_bumpBy s a 1 k

theorem ctrGet_bump_other (h : k ≠ a) : ctrGet (bump a s) k = ctrGet s k := by rw [ctrGet_bump, if_neg h]

theorem counted_bump : Counted a s (bump a s) := by
  unfold Counted; rw [ctrGet_bump, if_pos rfl, satAdd_one]

/-- A count that has risen stays risen where the counters stay. -/
theorem Counted.congr {a : Nat} {s s' t t' : State} (h : Counted a s t) (e : s'.ctr = s.ctr) (e' : t'.ctr = t.ctr) : Counted a s' t' := by
  unfold Counted ctrGet at *; rw [e, e']; exact h

@[simp] theorem ctrGet_latch : ctrGet (latch a b s) k = ctrGet s k := rfl
@[simp] theorem ctrGet_regSet : ctrGet (regSet a v s) k = ctrGet s k := rfl
@[simp] theorem ctrGet_triSet : ctrGet (triSet a v s) k = ctrGet s k := rfl

/-! Registers and triplicated words (R50). -/

theorem regGet_regSet : regGet (regSet a v s) k = if k = a then v else regGet s k := tabGet_set _ _ _ _ _

@[simp] theorem regGet_regSet_same : regGet (regSet a v s) a = v := by rw [regGet_regSet, if_pos rfl]

theorem triGet_triSet : triGet (triSet a v s) k = if k = a then ⟨v, v, v⟩ else triGet s k := tabGet_set _ _ _ _ _

@[simp] theorem triGet_triSet_same : triGet (triSet a v s) a = ⟨v, v, v⟩ := by rw [triGet_triSet, if_pos rfl]

@[simp] theorem vote_same : vote ⟨v, v, v⟩ = v := by simp [vote]

/-- Two equal copies outvote the third. -/
theorem vote_ab (x y : Word) : vote ⟨x, x, y⟩ = x := by
  simp only [vote, BitVec.and_self]
  ext i hi
  simp only [BitVec.getElem_or, BitVec.getElem_and]
  cases x[i] <;> cases y[i] <;> rfl

theorem vote_ac (x y : Word) : vote ⟨x, y, x⟩ = x := by
  simp only [vote, BitVec.and_self]
  ext i hi
  simp only [BitVec.getElem_or, BitVec.getElem_and]
  cases x[i] <;> cases y[i] <;> rfl

theorem vote_bc (x y : Word) : vote ⟨y, x, x⟩ = x := by
  simp only [vote, BitVec.and_self]
  ext i hi
  simp only [BitVec.getElem_or, BitVec.getElem_and]
  cases x[i] <;> cases y[i] <;> rfl

/-! Latched event registers (R42). -/

theorem rsqGet_latch : rsqGet (latch a b s) k =
    if k = a then { rsqGet s a with pend := (rsqGet s a).pend ||| BitVec.ofNat 24 (2 ^ b) } else rsqGet s k := tabGet_set _ _ _ _ _

@[simp] theorem rsqGet_bump : rsqGet (bump a s) k = rsqGet s k := rfl
@[simp] theorem rsqGet_bumpBy : rsqGet (bumpBy a n s) k = rsqGet s k := rfl
@[simp] theorem rsqGet_regSet : rsqGet (regSet a v s) k = rsqGet s k := rfl
@[simp] theorem rsqGet_triSet : rsqGet (triSet a v s) k = rsqGet s k := rfl

theorem getLsbD_pow (x : Fin 24) (y : Nat) : (BitVec.ofNat 24 (2 ^ y)).getLsbD x.val = decide (x.val = y) := by
  rw [BitVec.getLsbD_ofNat, Nat.testBit_two_pow]
  have := x.isLt
  by_cases h : y = x.val
  · simp [h]
  · have h' : ¬ x.val = y := fun e => h e.symm
    simp [h, h']

theorem latched_latch (x : Fin 24) : Latched a x (latch a x.val s) := by
  unfold Latched; rw [rsqGet_latch, if_pos rfl]
  show ((rsqGet s a).pend ||| BitVec.ofNat 24 (2 ^ x.val)).getLsbD x.val = true
  rw [BitVec.getLsbD_or, getLsbD_pow, decide_eq_true rfl, Bool.or_true]

/-- A later latch forgets none. -/
theorem Latched.latch {a : Nat} {x : Fin 24} {s : State} (h : Latched a x s) (c d : Nat) : Latched a x (Machine.latch c d s) := by
  unfold Latched at *; rw [rsqGet_latch]; split
  · rename_i e; subst e
    show ((rsqGet s a).pend ||| BitVec.ofNat 24 (2 ^ d)).getLsbD x.val = true
    rw [BitVec.getLsbD_or, h, Bool.true_or]
  · exact h

theorem Latched.congr {a : Nat} {x : Fin 24} {s t : State} (h : Latched a x s) (e : t.rsq = s.rsq) : Latched a x t := by
  unfold Latched rsqGet at *; rw [e]; exact h

/-! The event queue (R20). -/

theorem offered_emit (kind cause : BitVec 8) (sev : BitVec 2) (src : Word) (l : List Word) : Offered kind sev s (emit kind cause sev src l s) := by
  unfold Offered emit
  constructor
  · intro h
    rw [if_neg (by omega)]
    exact ⟨_, rfl, rfl, rfl, rfl⟩
  · intro h
    rw [if_pos h]
    exact ⟨rfl, rfl⟩

theorem Offered.congr {kind : BitVec 8} {sev : BitVec 2} {s s' t t' : State} (h : Offered kind sev s t) (e : s'.rcd = s.rcd) (c : s'.clock = s.clock)
    (e' : t'.rcd = t.rcd) : Offered kind sev s' t' := by
  unfold Offered at *; rw [e, e', c]; exact h

@[simp] theorem rsqGet_emit_other (kind cause : BitVec 8) (sev : BitVec 2) (src : Word) (l : List Word) (h : k ≠ aLOG_EVENT) :
    rsqGet (emit kind cause sev src l s) k = rsqGet s k := by
  unfold emit; split
  · rw [rsqGet_latch, if_neg h]; rfl
  · rfl

@[simp] theorem ctrGet_emit_other (kind cause : BitVec 8) (sev : BitVec 2) (src : Word) (l : List Word) (h : k ≠ aEVQ_LOST) :
    ctrGet (emit kind cause sev src l s) k = ctrGet s k := by
  unfold emit; split
  · rw [ctrGet_latch, ctrGet_bump_other _ _ _ h]; rfl
  · rfl

end Sys2Proof.Laws
end

