-- ==== Sys2Proof/WellFormed.lean ====
section
/-! DEFINITION. WellFormed.lean: the checks on a command's operands that its type does not make. -/
namespace Sys2Proof

/-- Bytes of a 32-entry record list in a frame: at most 990 bytes of payload (R258). -/
def fitsFrame (head each n : Nat) : Bool := head + each * n ≤ 990

/-- The lists of a TREND frame have 64 entries (Table 12.6). -/
def trendWf (m : TrendMsg) : Bool := m.means.length = 64 && m.quals.length = 64

/-- A rectangle of the panel (R381, Table 15.13). -/
def rectWf (x8 w8 : BitVec 6) (y0 h : BitVec 9) : Bool :=
  w8 ≠ 0 && h ≠ 0 && x8.toNat + w8.toNat ≤ 50 && y0.toNat + h.toNat ≤ 300

/-- A message body holds at most 976 bytes (R408). -/
def bodyWf (head words : Nat) : Bool := head + 4 * words ≤ 976

/-- Whether a command's operands keep the sizes the spec gives its event. -/
def WellFormed (i : Instr) : Bool :=
  match i with
  | .registerWrite a _ => a.toNat % 4 = 0
  | .rsqClearWrite a _ _ => a.toNat % 4 = 0
  | .flaconInserted _ b => b.length ≤ 0x1000000
  | .blockDrawMeasure _ ua => ua.length = 8
  | .spritzSlot _ r => r.length = 8
  | .repeatOutputTick m => m.length = 8
  | .diSample a b => a.length = 32 && b.length = 16
  | .alarmEvent _ _ l => l.length ≠ 0 && fitsFrame 4 36 l.length
  | .accordEvent _ _ l => l.length ≠ 0 && fitsFrame 4 36 l.length
  | .publication _ l => fitsFrame 4 16 l.length
  | .trend _ m => trendWf m
  | .updateRequest x w y h _ => rectWf x w y h
  | .write _ _ l => bodyWf 8 l.length
  | .mgmtRequest _ _ (.write _ l) => bodyWf 8 l.length
  | .updBlock _ f => f.data.length ≤ 964
  | .mgmtReply _ m => m.body.length ≤ 976
  | _ => true

end Sys2Proof
end

