-- ==== Sys2Proof/Tests/Slice0.lean ====
section
/-! SUPPORT. Tests/Slice0.lean: the model's own tests, and states that meet the statements' hypotheses. -/
namespace Sys2Proof.Tests

open Sys2Proof.Machine

theorem test_wf_rect : WellFormed (.updateRequest 60 1 0 1 false) = false := by decide

/-- A frame that the node delivers to itself. -/
def here : Rx := ⟨none, true, true, 64, ⟨1, 0, 0, 0, 5, false, false, 0, 5, 0, 0, 0, 0⟩, false⟩

/-- A state in which a frame waits in the routine receive queue of F1, and one in which a request waits at port S. -/
def frameWaits : State := { fab := { links := (({} : FabSt).links.set 0 { rxRoutine := [⟨.scrubBehind 0, 0⟩] }) } }
def requestWaits : State := { svc := { queue := [.discover ⟨0, 0, 1, true, 0, true⟩ false] } }
theorem witness_EmptyQueueStep :
    State.reset.pending = [] ∧ State.reset.selfQ = [] ∧ rxNext State.reset = none ∧ State.reset.svc.queue = [] ∧
    (frameWaits.selfQ = [] ∧ (rxNext frameWaits).isSome) ∧ (rxNext requestWaits = none ∧ requestWaits.svc.queue ≠ []) := by decide

/-- A state that runs, with an uncorrectable word and a failed vote. -/
def failing : State :=
  { sys := { phase := .running, eccReset := some 5, voteFail := some ⟨0x0A, 0x0A0000, 0x0A0008, ⟨1, 2, 4⟩⟩ } }
theorem witness_ResetsTakeTheirCause :
    Released failing ∧ ownArea .data .control = false ∧ (Island.core ≠ .time ∧ Island.core ≠ .supervisor) ∧
    wdArmed failing .control = true ∧ failing.sys.eccReset.isSome ∧ failing.sys.voteFail.isSome := by
  unfold Released; decide
set_option maxRecDepth 20000 in
theorem test_watchdog_source :
    (match exec (.watchdogExpiry .data) failing with | .next t => t.sys.wdSource | _ => 0) = 2 := by decide

theorem witness_FailureRecordGoesStraightIntoLog :
    Released failing ∧ failing.rcd.index.fill < 16384 ∧ failing.sys.eccReset.isSome ∧ failing.sys.voteFail.isSome := by
  unfold Released; decide

/-- SYS_EVENT with one event latched and another of the running frame. -/
def eventful : State := { rsq := [(0x010004, { seq := 7, bits := 2, pend := 4 })] }
theorem witness_EventAndClearOnOneCycle :
    isRsq (0x010004 : BitVec 24).toNat = true ∧ (rsqGet eventful (0x010004 : BitVec 24).toNat).pend ≠ 0 ∧
    fld 0x07000002 24 8 = (rsqGet eventful (0x010004 : BitVec 24).toNat).seq.toNat := by decide

theorem witness_LatchAndClearOfEventRegisters : isRsq (0x010004 : BitVec 24).toNat = true := by decide
theorem test_clear_of_table_2_4 :
    (match exec (.rsqClearWrite 0x010004 0x08000000 false) { rsq := [(0x010004, { seq := 8, bits := 6 })] } with
      | .next t => rsqWord (rsqGet t 0x010004) | _ => 0) = 0x08000000 := by decide

theorem witness_SnapshotCommands : State.reset.sys.snap.busy = false ∧
    ({ sys := { snap := { busy := true } } } : State).sys.snap.busy = true := by decide

theorem witness_ScrubReadCountsAndActs : eccRead 1 0x7E8 = .clean ∧ eccRead 0 0x7E8 = .fixed 3 1 ∧
    eccRead 1 0x7FF = .uncorrectable := by decide

/-- A state that runs, one cycle short of each filtered monitor. -/
def monitored (out : Bool) : State := { sys := { phase := .running }, sup := { riding := true, lowCnt := 2, freqCnt := 3, freqOut := out } }
theorem witness_MainsMonitorsAndRideThrough :
    (monitored false).sys.phase ≠ .held ∧ (monitored false).sup.mainsLost = false ∧ (700 : BitVec 16).toNat < 850 ∧
    (monitored false).sup.lowCnt = 2 ∧ (monitored false).sup.mainsLow = false ∧ (monitored false).sup.freqCnt = 3 ∧
    (monitored false).sup.freqOut = false ∧ (monitored true).sup.freqOut = true ∧ (1000000000000 < 22222223 * 45000) ∧
    (22222222 * 45000 ≤ 1000000000000 ∧ 1000000000000 ≤ 22222222 * 66000) ∧ Released (monitored true) ∧
    (monitored true).sup.riding = true := by unfold Released; decide

theorem witness_DrydownTriggerSavesAndReleases :
    ({ sys := { phase := .running } } : State).sys.phase = .running ∧ ({ sys := { phase := .drydown } } : State).sys.phase = .drydown := by
  decide

theorem witness_DrydownEndsAndRestart :
    ({ sys := { phase := .drydown } } : State).sys.phase = .drydown ∧ ({ sys := { phase := .held } } : State).sys.phase = .held ∧
    ¬(State.reset.sys.phase = .held ∧ State.reset.sup.prior = .drydown) := by decide

theorem witness_FlaconRemovalEffects :
    ({ sys := { phase := .running }, flacon := { present := true } } : State).sys.phase = .running ∧
    ({ sys := { phase := .running }, flacon := { present := true } } : State).flacon.present = true := by decide

theorem witness_SecondsCheckpointsAndFlaconInserted :
    ({ sys := { phase := .running } } : State).sys.phase = .running ∧ ({ sys := { phase := .running } } : State).afe.pause = false := by
  decide

theorem witness_FieldSupplyMonitorSetsAndClears :
    fsBit (supplyGet ({ sys := { phase := .running } } : State) .fsA) .low = false ∧
    ({ sys := { phase := .running } } : State).sys.phase ≠ .held ∧ (3 : Fin 16) ∈ outputsOf .fsA := by decide

/-- A plug that answers nothing but zeros, and one read to its end. -/
def plugged (p : Phase) : State := { sys := { phase := p }, flacon := { present := true } }
theorem witness_StartCountsAndReadsTheFlacon :
    (plugged .released).sys.phase = .released ∧ (plugged .released).flacon.present = true ∧ (plugged .released).sys.resetCause = 1 ∧
    bankPasses (plugged .released) (plugged .released).store.bankSel 0 = true ∧ (plugged .released).store.trial = false ∧
    (bankOf (plugged .released) (plugged .released).store.bankSel).state ≠ .loading ∧ (plugged .live).sys.phase = .live ∧
    (readFlacon 0 [] (keyBytes (plugged .safeIdle)) 0 false).fail = some (3, 0) ∧ State.reset.flacon.present = false := by decide

/-- A running node with a plug in each block and a bridge, an RTD and a loop-powered channel in block A. -/
def cabled : State :=
  { sys := { phase := .running }, tri := [(0x040000, ⟨0x20, 0x20, 0x20⟩), (0x040100, ⟨0x401, 0x401, 0x401⟩), (0x040200, ⟨0x30, 0x30, 0x30⟩)],
    afe := { blks := Vector.ofFn (fun b => { plug := some (BitVec.ofNat 3 b.val) }) } }
theorem witness_PlugsOfABlock : (blk State.reset 2).plug = none ∧ (2 : BitVec 3).toNat = (2 : Fin 8).val ∧
    (3 : BitVec 3).toNat ≠ (2 : Fin 8).val ∧ (blk cabled 2).plug.isSome := by decide

theorem witness_ExcitationConditionsOfAChannel : excOn cabled 0 = true ∧ chType cabled 0 = 0x20 ∧ (chan cabled 0).excUnreg = false ∧
    isVexc (chType cabled 0) = true ∧ (chan cabled 0).excLimit = false ∧ excOn cabled 2 = true ∧ chType cabled 2 = 0x30 ∧
    (chan cabled 2).loopLimit = false := by decide

/-- Block A in its limit, with a channel shed, a retry scheduled and observed. -/
def budgeted (limit : Bool) : State :=
  { cabled with afe := { cabled.afe with
      blks := cabled.afe.blks.set 0 { plug := some 0, excLimit := limit, retry := some 5, observing := true }
      chans := cabled.afe.chans.set 2 { shed := true } } }
theorem witness_BlockBudgetShedsAndRestores : (blk (budgeted true) 0).excLimit = true ∧ shedPick (budgeted true) 0 = some 1 ∧
    (blk (budgeted false) 0).retry.isSome ∧ (blkChans 0).find? (fun n => (chan (budgeted false) n).shed) = some 2 ∧
    (blk (budgeted false) 0).observing = true ∧ (blk (budgeted false) 0).excLimit = false := by decide

/-- A pair member that does not hold OWN. -/
def otherUnit : State := { cfg := { guarded := { rolePref := 1 } } }
theorem witness_CalibrationWrites : State.reset.sys.lock = false ∧ isPair State.reset = false ∧
    ({ sys := { lock := true } } : State).sys.lock = true ∧ otherUnit.sys.lock = false ∧ isPair otherUnit = true ∧
    otherUnit.pair.ownHeld = false := by decide
theorem test_gain_clamped : clampGain 0x40000000 = 0x3F8CCCCD ∧ clampGain 0x7FC00000 = 0x3F800000 := by decide

theorem witness_ChannelConfigurationWrites : isPair cabled = false ∧ typeOf 0x401 ≠ chType cabled 0 ∧ typeOf 0x401 ≠ 0 ∧
    frontClosed cabled = true ∧ typeOf 0x3F00 = 0 ∧ converting cabled 0 = true ∧ isPair otherUnit = true ∧
    otherUnit.pair.ownHeld = false := by decide

/-- A channel that waits for its restart point, and one in its settle. -/
def restarting : State :=
  { cabled with afe := { cabled.afe with chans := (cabled.afe.chans.set 0 { pending := true }).set 1 { remain := 3 } } }
theorem witness_OutputSampleAndRestartPoint : converting restarting 0 = true ∧ (chan restarting 0).pending = true ∧
    converting restarting 1 = true ∧ (chan restarting 1).pending = false ∧ 1 < (chan restarting 1).remain ∧
    chanQuality restarting 1 = qSETTLING ∧ poisoned restarting (aAFE 1 0) = false ∧ converting restarting 2 = true ∧
    (chan restarting 2).pending = false ∧ (chan restarting 2).remain ≤ 1 ∧ converting restarting 5 = false := by decide

theorem witness_CoarseDetectorWindow : converting cabled 1 = true ∧ isRtd (chType cabled 1) = true ∧ excOn cabled 1 = true ∧
    converting cabled 2 = true ∧ isLoop (chType cabled 2) = true ∧ converting State.reset 2 = false := by decide

/-- The bridge of block A with its spritz on. -/
def toned : State := { cabled with reg := [(0x040024, 1), (0x040028, 1)] }
/-- A result of each of two blocks. -/
def tones : List SpritzRes := [⟨0, 0x447A0000, 0, true⟩, ⟨1, 0x447A0000, 0, true⟩]
theorem witness_SpritzResultsAndHealthWrites : (tones.map (fun r => r.block)).Nodup ∧ served toned (chOf 0 0) = true ∧
    served toned (chOf 1 0) = false ∧ isPair toned = false ∧ isPair otherUnit = true ∧ otherUnit.pair.ownHeld = false := by decide

/-- AR0 repeats AI00, which is GOOD; AR1 repeats AI01, which is out of service; AR2 is forced. -/
def repeating : State :=
  { sys := { phase := .running }, vals := [(0, ⟨1, 0, 0x40C00000⟩)],
    reg := [(0x050000, 0x100), (0x050004, 0x3DA3D70A), (0x050008, 0x3DCCCCCD), (0x050040, 0x101), (0x0500B4, 0x80001234)] }
theorem witness_RepeatOutputsFollowTable : poisoned repeating (aAR 0 0) = false ∧ arForced repeating 2 = true ∧
    arForced repeating 0 = false ∧ arHighz repeating = false ∧ isRunning repeating = true ∧
    (regGet repeating (aAR 0 0)).getLsbD 8 = true ∧ arHighz otherUnit = true ∧ (valGet repeating (arSource repeating 0)).quality = qGOOD ∧
    (valGet repeating (arSource repeating 1)).quality = qOUT_OF_SERVICE ∧ (regGet repeating (aAR 3 0)).getLsbD 8 = false := by decide
theorem test_ar2_of_table_7_1 : (arConvert repeating 0 0x40C00000).1 = 0x947A := by decide

/-- A running node whose DI00 filters over 20 samples. -/
def sampled : State :=
  { sys := { phase := .running }, reg := [(0x060000, 0x501)], io := { dis := (Vector.replicate 32 {}).set 0 { cfg := 0x501, count := 3 } } }
theorem witness_DigitalInputFilterAndConfig : isRunning sampled = true ∧ regGet sampled (aDI 0 0) = (di sampled 0).cfg ∧
    0 < fld (di sampled 0).cfg 6 10 ∧ (di sampled 0).count.toNat ≤ fld (di sampled 0).cfg 6 10 ∧ isPair sampled = false ∧
    poisoned sampled (aDI 0 0) = false ∧ isRunning State.reset = false ∧ State.reset.sys.phase ≠ .safeIdle := by decide

/-- DO00 commanded ON and tracking; DO01 OFF and tracking. -/
def driving (role : BitVec 8) : State :=
  { sys := { phase := .running }, cfg := { guarded := { rolePref := role } }, reg := [(0x060400, 0x19), (0x060440, 0x19)],
    pair := { partnerCmd := if role = 0 then 0 else 2 },
    io := { dos := ((Vector.replicate 16 {}).set 0 { cmd := true, fix := .track }).set 1 { fix := .track } } }
theorem witness_OutputProtectionAndDiagnostics : doOn (driving 0) 0 = true ∧ (dout (driving 0) 0).limit = false ∧
    (dout (driving 0) 0).openOn = false ∧ (doCfg (driving 0) 0).getLsbD 3 = true ∧ doOn (driving 0) 1 = false ∧
    (dout (driving 0) 1).openOff = false ∧ (doCfg (driving 0) 1).getLsbD 4 = true ∧ (dout (driving 0) 1).extDrive = false ∧
    isPair (driving 0) = false ∧ doCmd (driving 0) 1 = false ∧ doOn (driving 1) 1 = false ∧ isPair (driving 1) = true ∧
    partnerOn (driving 1) 1 = true := by decide

theorem witness_OutputCommandsAndStale :
    (receive here (.outputCommand 1 ⟨1, true⟩) (driving 0)).1 = true ∧ isRunning (driving 0) = true ∧
    isActiveUnit (driving 0) = true ∧ (driving 0).afe.pause = false ∧ doSource (driving 0) 1 = 1 ∧ staleCounts (driving 0) = true ∧
    (dout (driving 0) 1).stale = false ∧ doForced (driving 0) 1 = false ∧ (dout (driving 0) 1).fix ≠ .hold ∧
    poisoned (driving 0) (aDO 1 0) = false := by decide

theorem witness_FixativePhases : (dout (driving 0) 0).fix = .track ∧
    (dout ({ io := { dos := (Vector.replicate 16 {}).set 0 { fix := .hold } } } : State) 0).fix = .hold := by decide

/-- A running engine: point 210 watches entry 25 for LOW, point 7 is digital on entry 64 and enabled. -/
def evaluating : State :=
  { sys := { phase := .running }, vals := [(25, ⟨1, 0, 0x401EB852⟩), (64, ⟨1, 0, 0x3F800000⟩)],
    alm := { running := true, points :=
      [(7, { cfg := 0x72200040, link := 0x8000, block := 0x80000000, roster := 0xFFFFFFFF, st := .normal }),
       (210, { cfg := 0x2A000019, link := 0x8000, block := 0x80000000, roster := 0xFFFFFFFF, sp := 0x40200000, hyst := 0x3E99999A,
               onDelay := 100, st := .normal, occ := 17 })] } }
theorem witness_AlarmCycleRunsEverySlot : evaluating.alm.running = true ∧ isActiveUnit evaluating = true ∧ evaluating.alm.cmds = [] ∧
    tabSorted evaluating.alm.points = true ∧ evaluating.unspec = [] ∧ evaluating.alm.points.all (fun p => p.1 < 4096) = true ∧
    State.reset.alm.running = false := by decide
/-- Table 8.14, row 2: 2.48 bar is below 2.50 bar; RAW sets, the on-delay counts 1, and the state stays NORMAL. -/
theorem test_point_210 : (let p := (slot (latchInputs evaluating) (pointGet evaluating 210)).1
    (p.raw, p.onCount.toNat, p.st, p.occ.toNat)) = (true, 1, PState.normal, 17) := by decide
/-- A digital point with no delay enters ACTIVE_UNACK in the slot in which its input equals DIG_LEVEL. -/
theorem test_point_7 : (let r := slot (latchInputs evaluating) (pointGet evaluating 7)
    (r.1.st, r.1.occ.toNat, r.2)) = (PState.activeUnack, 1, some 0) := by decide

/-- Point 7 in a given condition. -/
def pointed (rw cd bk : Bool) (lf : BitVec 22) (ps : PState) : State :=
  let p : Point := { cfg := 0x72200040, link := 0x8000, block := 0x80000000, roster := 0xFFFFFFFF }
  let q : Point := { p with raw := rw, cond := cd, blockNow := bk, shelveLeft := lf, st := ps }
  { alm := { running := true, points := [(7, q)] } }
theorem witness_AlarmDelaysBlocksAndShelvesEnd :
    (let p := pointGet (pointed true false false 0 .normal) 7
     pEnabled p = true ∧ p.memFault = false ∧ pointFree (pointed true false false 0 .normal) 7 = false ∧ p.raw = true ∧ p.cond = false ∧ p.frozen = false ∧ p.shelveLeft = 0 ∧ p.blockNow = false ∧
       p.st = .normal) ∧
    (let p := pointGet (pointed false true false 0 .activeAck) 7
     pEnabled p = true ∧ p.raw = false ∧ p.cond = true ∧ p.frozen = false ∧ p.st = .activeAck) ∧
    (let p := pointGet (pointed false true false 0 .activeUnack) 7
     pEnabled p = true ∧ p.raw = false ∧ p.cond = true ∧ p.frozen = false ∧ p.st = .activeUnack) ∧
    (let p := pointGet (pointed false true true 0 .blocked) 7
     pEnabled p = true ∧ p.blockNow = true ∧ p.cond = true ∧ p.shelveLeft = 0 ∧ p.st = .blocked) ∧
    (let p := pointGet (pointed false false true 9 .shelved) 7
     pEnabled p = true ∧ p.blockNow = true ∧ p.cond = false ∧ p.shelveLeft ≠ 0 ∧ p.st = .shelved) ∧
    (let p := pointGet (pointed true true false 9 .shelved) 7
     pEnabled p = true ∧ p.blockNow = false ∧ p.cond = true ∧ p.shelveLeft ≠ 0 ∧ p.st = .shelved) := by decide

set_option maxRecDepth 20000 in
theorem witness_AlarmCommandsWaitAndActByTable : State.reset.alm.cmds.length < 256 ∧
    256 ≤ (List.replicate 256 ((0 : BitVec 12), AlmOp.unshelve)).length ∧
    (pointGet (pointed true true false 0 .activeUnack) 7).st = .activeUnack ∧ (pointGet (pointed true true false 0 .activeUnack) 7).occ ≠ 3 ∧
    (pointGet (pointed true true false 0 .clearedUnack) 7).st = .clearedUnack ∧
    pShelvable (evPoint { evCfg := 0x73200040, st := .normal }) = true ∧
    pShelvable (evPoint (pointGet (pointed true true false 0 .normal) 7)) = false ∧
    isNaN 0x7FC00000 = true := by decide

theorem witness_CopiesHeldBeforeTheWinGoOutOrAreCounted : State.reset.fab.addressed = false ∧
    (let s : State := { fab := { addressed := true } }; s.fab.addressed = true) := by decide

/-- Accord 0x0120 of roster 1 with two members, evaluated here. -/
def accorded (delay : Nat) (e : AccItem) : State :=
  let a : AccordRec := ⟨0x120, delay, 3, 0x185028, 1, 0, [0x5028, 0x9005]⟩
  let it : ItemSt := { role := .primary }
  { cfg := { accords := [a] }, plc := { items := [(0x10000120, it)] }, call := { accords := [(0x120, e)] } }
def unacked : Member := { st := 1, known := true, prio := 3 }
theorem witness_AccordsFollowTheirMembers :
    (let e : AccItem := { state := 1, rebuilding := false, members := [(0x5028, unacked)] }
     accGet (accorded 5 e) 0x120 = some e ∧ e.state = 1 ∧ accActive e ≠ 0 ∧ accUnacked e ≠ 0) ∧
    (let e : AccItem := { rebuilding := true }
     accGet (accorded 0 e) 0x120 = some e ∧ e.state ≠ 1 ∧ e.rebuilding = true) ∧
    (let e : AccItem := { rebuilding := false }
     accGet (accorded 0 e) 0x120 = some e ∧ e.rebuilding = false ∧ e.state = 0 ∧ (tabGet {} e.members 0x9005).known = false ∧
     (accordRec (accorded 0 e) 0x120).isSome = true ∧ (receive here (.memberReport ⟨0x120, 0, 1, []⟩) (accorded 0 e)).1 = true ∧
     (0x9005 : Word) ∈ ((accordRec (accorded 0 e) 0x120).map (fun r => r.members)).getD [] ∧
     (0x9006 : Word) ∉ ((accordRec (accorded 0 e) 0x120).map (fun r => r.members)).getD [] ∧
     wd ((0x5 : Addr).toNat * 4096 + (0x28 : BitVec 12).toNat) = 0x5028) := by decide
/-- Table 9.8, rows 5 and 6: the event of ECR's point 5 raises the Accord, with it as first-out. -/
theorem test_accord_0120 : ((accGet (effAlarmEvent here 0x10000120 [⟨0, 0, 1, 0x9005, 2, 3, 0, 0x3F800000, 3000, 0, 7⟩]
    (accorded 0 { rebuilding := false })) 0x120).map (fun e => (e.state, e.foTag, e.winOpen))) = some (2, 0x9005, true) := by decide

/-- Three members with a limit condition, two of them reported GOOD. -/
def meaning : AccItem :=
  let m : Member := { known := true, cond := 1, reportAt := some 0, value := 0x43E20000 }
  { rebuilding := false, reported := [0], members := [(1, m), (2, m), (3, { m with quality := 0x41 })] }
theorem witness_MeansAndPeriodicReports : tabSorted (accorded 0 meaning).call.accords = true ∧
    (accorded 0 meaning).call.accords.all (fun x => x.1 < 65536) = true ∧ accGet (accorded 0 meaning) 0x120 = some meaning ∧
    meaning.reported ≠ [] ∧ (receive here (.mean 0x10000120 (.request 0x120)) (accorded 0 meaning)).1 = true ∧
    (receive here (.mean 0x10000120 (.mean 0x120 0 true)) (accorded 0 meaning)).1 = true ∧ isPair evaluating = false ∧
    evaluating.alm.running = true := by decide

/-- The engineers' roster of MV Vettelund in short, with its call manager here. -/
def rostered (c : CallItem) : State :=
  let r : RosterRec := ⟨1, 120, 120, 1440, 1620, 0, [0x80009], [0x40001], [⟨[], 0x1C0009, 1⟩, ⟨[], 0x140009, 1⟩]⟩
  let it : ItemSt := { role := .primary }
  { cfg := { rosters := [r] }, plc := { items := [(0x20000001, it)] }, call := { rosters := [(1, c)] } }
def callIn (state stage patrol : BitVec 2) : CallState :=
  ⟨4, state, stage, 0, 0, 0, 0xFFFFFFFF, [0x1C0009], [], some (0, 0), patrol, 0, 0, 0, [], false, 0, 0⟩
def engineers : RosterRec := ((rostered { st := callIn 0 0 0, rebuilding := false, held := true }).cfg.rosters.headD ⟨0, 0, 0, 0, 0, 0, [], [], []⟩)
theorem witness_CallsRunThroughTheirStages :
    let c : CallItem := { st := callIn 1 1 1, rebuilding := true, held := true, due := true }
    rosterRec (rostered c) engineers.id = some engineers ∧ rosGet (rostered c) engineers.id = some c ∧
    isPrimary (rostered c) (rosterItem engineers.id) = true ∧ stageDue engineers c (fabUs (rostered c)) = true ∧
    stageDue engineers { c with due := false } (fabUs (rostered c)) = false := by decide
/-- Table 9.7, row 4: the patrol becomes CALLED and the call starts at stage 2. -/
theorem test_patrol_call : ((rosGet (effPatrolCall 1 (rostered { st := callIn 0 0 2, rebuilding := false, held := true })) 1).map
    (fun c => (c.st.patrol, c.st.state, c.st.stage, c.st.callNum))) = some (3, 1, 2, 5) := by decide

theorem witness_CallsTakeKeysSourcesAndReports :
    (let c : CallItem := { st := callIn 1 1 0, rebuilding := false, held := true }
     let s := rostered c
     rosterRec s engineers.id = some engineers ∧ s.call.rosters = [(engineers.id.toNat, c)] ∧
     isPrimary s (rosterItem engineers.id) = true ∧ (receive here (.keyRelay 0x1C0009 ⟨1, 1, 1, 0xFFFFFFFF, 0⟩) s).1 = true ∧
     (rosterRefs engineers).contains 0x1C0009 = true ∧ c.st.panels.contains 0x1C0009 = true ∧ c.st.panels.contains 0x40001 = false ∧
     (rosterRefs engineers).contains 0x40001 = true ∧ dutyCabin engineers c.st ≠ some 0x140009 ∧
     engIdx engineers (fun e => e.cabin = 0x140009 && mayDuty e) = some 1 ∧ engineers.pubs.contains 0x80009 = true ∧
     dutyCabin engineers c.st = some 0x1C0009) ∧
    (let s : State := { rostered { st := callIn 0 0 3, rebuilding := false, held := true } with plc := {} }
     isPrimary s (rosterItem engineers.id) = false ∧ engineers.id.toNat < 2 ^ 28 ∧ (callIn 0 0 3).patrol ≠ 0 ∧
     (callIn 0 0 3).sources.all (fun x => x.1 ≠ patrolKey) = true) := by decide

/-- Port C1 is up, with panel 3 in the mess and records for what it sends and what it is sent. -/
def panelled : State :=
  let c1 : PbPort := { up := true }
  let rec_ (code : BitVec 16) (dir : BitVec 29) : MsgRec := ⟨0x10000000 + dir, true, code, 0, some 3⟩
  { sys := { phase := .running }, pb := { c1 := c1, lines := [(lineKey 1 0 0, ⟨1, 0, 0, 0, []⟩)] },
    cfg := { panels := [⟨0, 3, 2, 1⟩], msgs := [rec_ 0x101 0x2101, rec_ 0x102 0x2102, rec_ 0x103 0x2103, rec_ 0x10 0x10, rec_ 0x11 0x11] } }
theorem witness_PanelBusReceives : pbUp panelled 0 = true ∧
    matchRec panelled ⟨0, true, 0x10002101⟩ = some ⟨0x10002101, true, 0x101, 0, some 3⟩ ∧
    matchRec panelled ⟨0, true, 0x10002102⟩ = some ⟨0x10002102, true, 0x102, 0, some 3⟩ ∧
    matchRec panelled ⟨0, true, 0x10002103⟩ = some ⟨0x10002103, true, 0x103, 0, some 3⟩ ∧
    (panelSt panelled 0 3).keySeq ≠ some 1 ∧ (pbPort panelled 0).monitor = false ∧ (panelRec panelled 0 3).isSome = true ∧
    isPresent (effPanelBeat ⟨0, true, 0x10002102⟩ ⟨2, 0, 1, 0, 1⟩ 0 panelled) 0 3 = true ∧ pageLines panelled 1 0 ≠ [] ∧
    canSend panelled 0 (some 3) 0x0010 = true ∧ canSend panelled 0 (some 3) 0x0011 = true ∧
    (0x10000010 : BitVec 29).getLsbD 13 = false ∧ (0x10000010 : BitVec 29).extractLsb' 20 6 = panelled.cfg.station ∧
    refAddr 0x180000 = pairAddr panelled ∧ refPort 0x180000 = 0 ∧ refPanel 0x180000 = 3 ∧
    panelled.cfg.panels.any (fun x => x.set = 1) = true := by decide

/-- C1 with one CALL frame queued and one in the FIFO, whose second may have passed. -/
def queued (late off : Bool) (tec : Nat) : State :=
  let f : CanFrame := ⟨1, 1, some 3, 1, .sound 1 3, 0, false, ⟨0, true, 1⟩, late, none, 0⟩
  let g : CanFrame := { f with num := 2, code := 4, late := false }
  let c1 : PbPort := { up := true, fifo := [f], callq := [g], tec := tec, busOff := off, recovering := off }
  { sys := { phase := .running }, pb := { c1 := c1 }, cfg := { msgs := [⟨0x18000020, true, 0x20, 0, none⟩] } }
theorem witness_PanelBusSendsAndRecovers : pbUp (queued true false 256) 0 = true ∧ (pbPort (queued true false 256) 0).monitor = false ∧
    (pbPort (queued true false 256) 0).fifo.length < (pbPort (queued true false 256) 0).depth.toNat ∧
    ((pbPort (queued true false 0) 0).fifo.map (fun f => f.late)) = [true] ∧ ((pbPort (queued false false 0) 0).fifo.map (fun f => f.late)) = [false] ∧
    (((pbPort (queued true false 0) 0).callq ++ (pbPort (queued true false 0) 0).fifo).find? (fun f => f.num = 1 && isCallClass f.code)).isSome = true ∧
    (pbPort (queued true true 0) 0).busOff = true ∧ (pbPort (queued true true 0) 0).recovering = true ∧
    poisoned (queued true false 0) (aPB 0 0) = false ∧
    canSend (queued true false 0) 0 none 0x0020 = true ∧ (pbPort (queued true false 0) 0).fresh = false ∧ (queued true false 0).pair.ownHeld = false ∧
    (let s := pbMonitorAll (queued true false 9)
     let t : State := { s with pair := { ownHeld := true } }
     t.pair.ownHeld = true ∧ (pbPort t 0).up = true ∧ (pbPort t 0).monitor = true) := by decide

/-- F1 is up and two-way with a node of zone 0, with frames queued in both directions; the route to node 9 leaves by F1. -/
def linked1 (two : Bool) : State :=
  let b : Body := .drydownNotice 5 9
  let h : FabHdr := ⟨1, 0, 0, 0, 5, true, false, 0, 0xFFE, 0, 8, 0x0A, 0⟩
  let q : QFrame := ⟨⟨h, b⟩, 0, false⟩
  let n : Neigh := ⟨9, 5, false, false⟩
  let l : LinkSt := { enabled := true, phyUp := true, twoWay := two, neigh := if two then some n else none, urgent := [q], routine := [q],
                      data := [q], rxData := [⟨.helloSend, 0⟩], onWire := some q }
  { serial := 7, fab := { up := true, addressed := true, member := 3, view := [3, 5], fwd := [(9, 0)], links := (Vector.replicate 7 {}).set 0 l } }
def rx1 (h : FabHdr) (ok : Bool) : Rx := ⟨some 0, ok, true, 64, h, false⟩
theorem witness_LinksComeUpAndCarryFrames : (linkGet (linked1 true) 0).phyUp = true ∧ (linkGet (linked1 true) 0).twoWay = true ∧
    (linkGet (linked1 true) 0).enabled = true ∧ linksUp (linked1 true) 0 = true ∧ (linkGet (linked1 true) 1).enabled = false ∧
    isIntra (linked1 false) 0 = false ∧ isIntra (linked1 true) 0 = true ∧ isBorder (linked1 false) 0 = false ∧
    (receive (rx1 ⟨1, 0, 1, 0, 5, true, false, 0, 0xFFE, 0, 30, 1, 0⟩ true) (.hello ⟨9, 0, false, false, 5, 1, 1, some (7, 1, 0), 0⟩) (linked1 false)).1 = true ∧
    (receive (rx1 ⟨1, 0, 0, 0, 5, true, false, 0, 0xFFE, 0, 8, 0x0A, 0⟩ true) (.drydownNotice 5 9) (linked1 true)).1 = true ∧
    (linkGet (linked1 true) 0).onWire.isSome = true ∧ (linkGet (linked1 true) 0).urgent ≠ [] ∧ (linkGet (linked1 true) 0).routine ≠ [] ∧
    txQueue (linkGet (linked1 true) 0) .data ≠ [] ∧ rxQueue (linkGet (linked1 true) 0) .data ≠ [] ∧ linkOn (linked1 true) 0 = true ∧
    linkOn (linked1 true) 1 = false ∧ (linked1 true).taking = none ∧
    (rxCheck 0 (rx1 ⟨1, 0, 0, 63, 5, false, false, 7, 9, 1, 24, 0x17, 0⟩ true) (.drydownNotice 5 9) (linked1 true)).1 = true ∧
    isMismatch (linked1 true) 0 = false ∧ routeTo (linked1 true) 9 = some 0 ∧
    (9 : Addr) ≠ ownAddr (linked1 true) ∧ hdrOk ⟨1, 3, 0, 0, 5, false, false, 7, 9, 1, 24, 0x17, 0⟩ = false := by decide

/-- An unaddressed node whose links run, with a claim for number 7 or none. -/
def claiming (c : Option ClaimSt) : State :=
  { serial := 7, cfg := { live := true, memberPref := 7 }, fab := { up := true, claim := c } }
/-- The node of `linked1` holds the LSA of node 5. -/
def knows5 : State := { linked1 true with fab := { (linked1 true).fab with lsas := [⟨⟨5, 9, 4, false, true, true, 0xFFFF, []⟩, false, 0⟩] } }
theorem witness_NumbersAreClaimedAndLsasKept : mayClaim (claiming none) = true ∧ (claiming none).fab.lost = [] ∧
    nextChoice (claiming none) = some (7, 1) ∧ (claiming (some ⟨7, 1, 0, 0, false⟩)).fab.claim = some ⟨7, 1, 0, 0, false⟩ ∧
    (receive here (.claim ⟨7, 0, 3, 0⟩) (claiming none)).1 = true ∧ rankLower 1 7 0 3 = false ∧ rankLower 1 7 2 3 = true ∧
    isStandbyNumber (claiming none) = false ∧ (receive here (.defend ⟨7, 0, 3, 0⟩) (claiming none)).1 = true ∧
    fabLive (linked1 true) = true ∧ fabLive (claiming none) = false ∧ (claiming none).fab.member ≠ 9 ∧
    (5 : Addr) ≠ ownAddr (linked1 true) ∧ lsaFind (linked1 true) 5 9 = none ∧ isIntra (linked1 true) 0 = true ∧
    (linkGet (linked1 true) 0).want = [] ∧
    (receive (rx1 ⟨1, 0, 1, 0, 5, true, false, 0, 0xFFE, 0, 4, 3, 0⟩ true) (.sync (.sequences true [])) (linked1 true)).1 = true ∧
    (receive (rx1 ⟨1, 0, 1, 0, 5, true, false, 0, 0xFFE, 0, 16, 3, 0⟩ true) (.sync (.sequences true [⟨5, 9, 4, false⟩])) (linked1 true)).1 = true ∧
    (receive (rx1 ⟨1, 0, 1, 0, 5, true, false, 0, 0xFFE, 0, 12, 3, 0⟩ true) (.sync (.request [(5, 9)])) knows5).1 = true ∧
    (lsaFind knows5 5 9).isSome = true ∧ (heldSeq (linked1 true)).toNat ≤ 0 ∧
    (receive here (.lsa [⟨5, 9, 4, false, true, true, 0xFFFF, []⟩]) (linked1 true)).1 = true := by decide
/-- Table 11.4, row 8: with member 4 lost, BAL's next choice is its MEMBER_PREF at rank 1. -/
theorem test_bal_next_choice : nextChoice { claiming none with store := { savedNum := some (0, 4) }, fab := { up := true, lost := [4] } } =
    some (7, 1) := by decide

/-- A border node: F1 leads to node 9 of zone 1. -/
def bordering : State :=
  let n : Neigh := ⟨9, 0x1009, false, true⟩
  let l : LinkSt := { enabled := true, phyUp := true, twoWay := true, neigh := some n }
  { serial := 7, cfg := { border := true }, fab := { up := true, addressed := true, member := 3, links := (Vector.replicate 7 {}).set 0 l } }
theorem witness_RoutesZonesAndWindows : bordering.fab.addressed = true ∧ State.reset.fab.addressed = false ∧ isBorder bordering 0 = true ∧
    (linkGet bordering 0).neigh = some ⟨9, 0x1009, false, true⟩ ∧ bordering.cfg.border = true ∧ (∀ p ∈ bordering.fab.zpaths, p.path ≠ []) ∧
    ownZone bordering ∉ ([1] : List (BitVec 6)) ∧
    (receive (rx1 ⟨1, 0, 1, 0, 0x1009, true, false, 0, 0xFFE, 0, 6, 7, 0⟩ true) (.zoneUpdate [⟨1, [1]⟩]) bordering).1 = true ∧
    (receive here (.zoneSummary ⟨1, 1, 0, 1⟩) bordering).1 = true ∧ State.reset.fab.windows = [] := by decide
/-- R287: a wrap of the sequence, 0xFFFE then 0x0003, is delivered. -/
theorem test_window_wrap : (dupCheck 5 3 0x0003 (dupCheck 5 3 0xFFFE State.reset).2).1 = true := by decide

/-- A node that follows root 5 over F1, or is the root itself. -/
def following (root : Addr) : State :=
  { linked1 true with fab := { (linked1 true).fab with root := some root, fwd := [(5, 0)], goodMarks := 79, ftOn := true,
                                                       subscribers := [⟨5, 1, 0, [], []⟩] },
                      cfg := { subs := [⟨200, 5, 4⟩] } }
def markFrame : Rx := rx1 ⟨1, 0, 0, 1, 5, true, false, 0, 0xFFF, 0, 20, 6, 0⟩ true
theorem witness_FabricTimeAndPublications : isRoot (following 3) = true ∧ isRoot (following 5) = false ∧ (following 5).fab.ftOn = true ∧
    (receive markFrame (.timeMark ⟨5, 1, 0, false, true, 0, 0⟩) (following 5)).1 = true ∧ isBorder (following 5) 0 = false ∧
    reversePath 0 5 (following 5) = true ∧ (markOffset 0 markFrame.hdr ⟨5, 1, 0, false, true, 0, 0⟩ (following 5)).natAbs ≤ 1000000 ∧
    1000000 < (markOffset 0 markFrame.hdr ⟨5, 1, 0x2000000, false, true, 0, 0⟩ (following 5)).natAbs ∧
    (receive here (.zoneOffset 5) (following 3)).1 = true ∧ isSysExit (following 5) = false ∧
    (let s : State := { bordering with fab := { bordering.fab with sysZone := 2, borderOffsets := [7], root := some 5, fwd := [(5, 0)],
                                                                   zexits := [⟨2, 3, 1, 0⟩], zpaths := [⟨2, 0x1009, [2], 0⟩] } }
     isSysExit s = true ∧ (5 : Addr) ≠ ownAddr s ∧ routeTo s 5 = some 0) ∧ (receive here (.subscribe 1) (following 5)).1 = true ∧
    (receive here (.publication [⟨4, 0, 0, 9⟩]) (following 5)).1 = true ∧ poisoned (following 5) (entryOwner 200) = false ∧
    dueOrder ⟨5, 1, 0, [], []⟩ (following 5) = [0] ∧ isStandbyNumber (following 5) = false ∧ routeTo (following 5) 5 = some 0 ∧
    (5 : Addr) ≠ ownAddr (following 5) := by decide

/-- Node 3 of zone 0, which carries Accord 0x0120 and sees node 5. -/
def placing : State :=
  let a : AccordRec := ⟨0x120, 0, 3, 0xFFFFFFFF, 1, 0xABCD, [0x3028, 0x5005]⟩
  { sys := { phase := .running }, cfg := { accords := [a], slots := 64 }, plc := { up := true, version := 9 },
    fab := { up := true, addressed := true, member := 3, view := [3, 5] } }
def catalogue5 (v : Word) : Catalogue := ⟨5, v, 32, true, 0, 0, 1, [⟨0x10000120, 0xABCD, false⟩]⟩
theorem witness_CataloguesAndFactsAreKept : (receive here (.catalogue (catalogue5 4)) placing).1 = true ∧
    (receive here (.catalogueRelay (catalogue5 4)) placing).1 = true ∧ placing.plc.up = true ∧ (catalogue5 4).count = 1 ∧
    placing.plc.partialCats = [] ∧ (5 : Addr) ≠ ownAddr placing ∧ catOf placing 5 = none ∧ placing.sys.phase ≠ .safeIdle ∧
    ((catOf (effCatalogue here (catalogue5 4) placing) 5).map (fun c => decide ((3 : Word).toNat ≤ c.version.toNat))) = some true ∧
    placing.fab.addressed = true ∧ State.reset.fab.addressed = false ∧ inView placing 5 = true ∧ inView placing 6 = false ∧
    quorumOf placing 0x10000120 = false ∧ quorumOf (effCatalogue here (catalogue5 4) placing) 0x10000120 = true := by decide
/-- R303: SipHash-2-4 of the bytes 00 to 07 under the key 00 to 0F, as its reference's test vectors give it. -/
theorem test_siphash : sip8 0x0706050403020100 0x0F0E0D0C0B0A0908 0x0706050403020100 = 0x93F5F5799A932462 := by decide

/-- Node 3 collects the trends of node 5, and has withdrawn a refusal at time 0. -/
def collecting : State :=
  let it : ItemSt := { role := .primary, primary := some 3 }
  let p : PlaceSt := { up := true, items := [(0x40000005, it)], lastWithdraw := some 0 }
  { placing with plc := p, tri := [(0x040000, ⟨0x10, 0x10, 0x10⟩)] }
theorem witness_RolesFollowTheOwnComputation : placing.plc.up = true ∧ State.reset.plc.up = false ∧ collecting.plc.lastWithdraw = some 0 ∧
    collecting.clock - 0 < 10000000000 ∧ (knownItems placing).contains 0x10000120 = true ∧ (itemGet placing 0x10000120).primary = none ∧
    (let r : State := { placing with plc := { placing.plc with items := [(0x10000120, { refused := true })] } }
     ownRefused r = [0x10000120] ∧ itemWeight r 0x10000120 + slotsUsed r ≤ r.cfg.slots ∧ r.plc.lastWithdraw = none) ∧
    canStarve placing 0x10000120 = true ∧ isStandbyNumber collecting = false ∧
    (let it : ItemSt := { primary := some 5 }
     let c : State := { collecting with plc := { collecting.plc with items := [(0x40000003, it)] },
                                        fab := { collecting.fab with fwd := [(5, 0)] } }
     itemTargets c (trendItem (pairAddr c)) = [5] ∧ (5 : Addr) ≠ ownAddr c ∧ routeTo c 5 = some 0) ∧ anyStarved placing = false ∧ (itemGet collecting 0x40000005).primary.isSome = true ∧
    (receive here (.trend ⟨0x40000005, 1, 0, [], []⟩) collecting).1 = true ∧ roleOf collecting 0x40000005 ≠ .none ∧
    roleOf placing 0x40000005 = .none ∧ hasAnalogue collecting = true ∧ hasAnalogue placing = false := by decide

/-- A pair unit in the state given, with P up and its links running. -/
def paired (p : PairSt) : State :=
  let g : Guarded := { rolePref := 1 }
  { cfg := { guarded := g }, sys := { phase := .running, endOfStart := some 0 }, pair := p,
    fab := { up := true, links := (Vector.replicate 7 {}).set 6 { enabled := true, phyUp := true } } }
/-- The partner's word: a beat with this health word. -/
def saying (h : Word) : PairMsg := ⟨true, false, false, 1, h, 0, 0, 0, 0, 0, 0, 9⟩
theorem witness_PairHeartbeatsAndHealth :
    (let s := paired { state := .standby, pathF := { up := false }, loopHeld := true, peerAddr := some 9 }
     isPair s = true ∧ s.pair.state ≠ .start ∧ s.pair.state ≠ .faulted ∧ isRunning s = true ∧ s.pair.listening = false ∧ ownVerdict s ≠ 2 ∧
     fld (healthWord s) 30 2 = 2 ∧ s.pair.pathP.up = true ∧ s.pair.pathF.up = false ∧ s.pair.seizing = false ∧ urgentRoom s linkP = true ∧
     (linkGet s linkP).phyUp = true ∧ peerLink s = none ∧ s.pair.forHandover = false ∧
     (receive here (.pair .beat (saying 0)) s).1 = true ∧ fld (saying 0x90000000).health 30 2 = 2 ∧ fld (saying 0x90000000).health 27 3 ≠ 4) ∧
    (let s := { paired { state := .standby, pathP := { up := false }, loopHeld := true, health := 0x80000000, peerAddr := some 9 } with
                fab := { up := true, addressed := true, fwd := [(9, 2)] } }
     isPair s = true ∧ ownVerdict s = 2 ∧ s.pair.pathF.up = true ∧ s.pair.pathP.up = false ∧ peerLink s = some 2 ∧ urgentRoom s 2 = true) ∧
    (let s := paired { state := .handoverIn, ownHeld := true }
     s.pair.split = false ∧ (saying 0x1C000000).health.getLsbD 26 = true ∧ fld (saying 0x1C000000).health 27 3 ≠ 4 ∧ isPair s = true) ∧
    (let s := paired { state := .active, ownHeld := true }
     s.pair.split = false ∧ (saying 0x24000000).health.getLsbD 26 = true ∧ fld (saying 0x24000000).health 27 3 = 4 ∧ isPair s = true) ∧
    (paired { state := .handoverOut }).pair.state = .handoverOut ∧ (saying 0).outputsDriven = true ∧ (paired {}).pair.state = .start := by decide

/-- A frame of the partner on P. -/
def onP : Rx := ⟨some 6, true, true, 66, ⟨1, 0, 0, 0, 9, true, false, 0, 0xFFE, 0, 32, 0x1E, 0⟩, false⟩
theorem witness_OwnIsTakenAndReleased :
    (let s := paired { state := .standby, announcedAt := some 0, requested := true, loopHeld := true }
     isPair s = true ∧ isRunning s = true ∧ announced s = true ∧ ownVerdict s ≠ 2 ∧ s.pair.ownHeld = false ∧ s.pair.listening = false ∧
     s.pair.seizing = false ∧ s.pair.pathP.up = true) ∧
    (let s := paired { state := .standby, probing := true, pathP := { up := false }, pathF := { up := false } }
     announced s = false ∧ s.pair.probing = true ∧ (saying 0x06000000).health.getLsbD 26 = true ∧ (saying 0x06000000).health.getLsbD 25 = true ∧
     (receive here (.pair .grant (saying 0)) s).1 = true ∧ (receive here (.pair .released (saying 0)) s).1 = true ∧
     (receive here (.pair .probe (saying 0)) s).1 = true ∧ (receive here (.pair .probeReply (saying 0)) s).1 = true ∧ s.pair.requested = false ∧
     (linkGet s linkP).phyUp = true ∧ urgentRoom s linkP = true ∧ s.pair.pathP.up = false ∧ s.pair.pathF.up = false) ∧
    (let s := paired { state := .standby, listening := true, announcedAt := some 0 }
     s.pair.listening = true ∧ announced s = true ∧ s.pair.seizing = false ∧ s.pair.extended = false) ∧
    (let s := paired { state := .standby, listening := true, extended := true }
     announced s = false ∧ s.pair.extended = true ∧ s.clock < s.pair.listenFrom + listenLen + listenMore) ∧
    (paired { state := .standby, seizing := true }).pair.seizing = true ∧
    (let s := paired { state := .handoverIn, ownHeld := true }
     s.pair.state = .handoverIn ∧ incomingDone s = true) ∧
    (let s := { paired { state := .handoverIn, ownHeld := true } with clock := 2000000000 }
     s.clock ≥ s.pair.takenAt + 2000000000 ∧ incomingDone s = true) ∧
    (let s := paired { state := .active, ownHeld := true }
     s.pair.ownHeld = true ∧ isPair s = true ∧ (receive onP (.pair .probe (saying 0)) s).1 = true ∧ onP.link = some linkP) := by decide

def copied : Checkpoint := ⟨2, 0, 0, 0, 5, 0, [(3, [1, 2])], [], [], [], [], [], []⟩
theorem witness_CheckpointsMirrorsAndHandovers :
    (let s := paired { state := .standby, doubleSend := true, halves := 3, copyRuntime := [(3, [0x20000001, 7])], holdoff := 1 }
     let s : State := { s with clock := 2000000000 }
     holdoffLeft s = 0 ∧ s.sys.endOfStart.isSome = true ∧ poisoned s 0x0C0000 = false ∧ fmtKnown s copied.fmt = true ∧ fmtKnown s 0x7777 = false ∧
     (linkGet s linkP).phyUp = true ∧ urgentRoom s linkP = true ∧ isPair s = true ∧ (receive here (.checkpoint copied) s).1 = true ∧ s.pair.ownHeld = false ∧ copied.configId = s.cfg.id ∧
     copied.configIssue = s.cfg.issue ∧ tabLook s.pair.copyRuntime 3 = some (0x20000001 :: [7]) ∧ mayPlan s = true ∧ s.pair.forHandover = false ∧
     s.cfg.guarded.rolePref = 1 ∧ s.pair.holdoff ≠ 0 ∧ ownVerdict s = 0 ∧ s.pair.force = 0 ∧ s.pair.peer = none ∧ peerVerdict s ≠ 2 ∧
     (receive here (.tickMirror ⟨0, 9, [], [], [], true⟩) s).1 = true ∧ (receive here (.tickMirror ⟨0, 9, [], [], [], false⟩) s).1 = true ∧ s.sys.lock = false ∧
     (receive here (.eventMirror 0 ⟨0, 0, 1, 0x3003, 1, 0, 0, 0, 0, 0, 0⟩) s).1 = true) ∧
    (paired { state := .standby, doubleSend := true, halves := 1 }).pair.halves ≠ 3 ∧
    (let s := paired { state := .standby, doubleSend := true, forHandover := true, wanted := 5 }
     mayPlan s = true ∧ s.pair.requested = false ∧ s.pair.wanted ≠ 6) ∧
    (let s := paired { state := .active, ownHeld := true }
     (receive onP (.pair .handoverReq (saying 0x10000000)) s).1 = true ∧ mayPlan s = false ∧ fld (saying 0x10000000).health 27 3 ≠ 4 ∧
     fld (saying 0x10000000).health 30 2 ≠ 2 ∧ fld (saying 0xA0000000).health 30 2 = 2) := by decide

/-- A time island with this count. -/
def counting (t : TimeSt) : State := { tim := t }
theorem witness_CountTicksAndStepsKeepTrust :
    (let s := counting { sec := 0xFFFFFFFE, osf := false }
     talmEn s.tim.a0 = false ∧ talmEn s.tim.a1 = false ∧ 2200 ≤ s.tim.vcap.toNat ∧ s.tim.stopped = false ∧ (s.tim.sec.toNat : Int) + (1 : Word).toInt > 0xFFFEFFFF ∧
     0 ≤ (s.tim.sec.toNat : Int) + (0xFFF00000 : Word).toInt ∧ (s.tim.sec.toNat : Int) + (0xFFF00000 : Word).toInt ≤ 0xFFFEFFFF) ∧
    (let s := counting { sec := 5, setDate := dateWord 888796799 }
     (s.tim.sec.toNat : Int) + (0xFFFFFFF0 : Word).toInt < 0 ∧ s.tim.setDate = dateWord 888796799 ∧ s.tim.osf = true) ∧
    (let s : State := { counting {} with fab := { synced := true, rootTimeOk := true, ftOn := true } }
     s.fab.ftOn = true ∧ poisoned s timBase = false ∧
     s.tim.osf = true ∧ s.fab.synced = true ∧ s.fab.rootTimeOk = true) ∧
    (counting { stopped := true }).tim.stopped = true ∧ (counting { sec := 0xFFFFFFFF }).tim.sec = 0xFFFFFFFF ∧
    (startRecorder (counting {})).rcd.running = true := by decide
/-- Table 14.4: the edges of the helper. -/
theorem test_helper_edges : (dateWord 0, todWord 0) = (0x07D001C1, 0) ∧ (dateWord 5097600, todWord 5097600) = (0x07D0025D, 0) ∧
    (dateWord 888796799, todWord 888796799) = (0x07EC025D, 0x00173B3B) ∧ (dateWord 3160857600, todWord 3160857600) = (0x08340321, 0) ∧
    (dateWord 0xFFFFFFFF, todWord 0xFFFFFFFF) = (0x08580247, 0x00061C0F) := by decide

/-- Table 14.5: an alarm for midnight, its mark at the previous one. -/
def midnight (sec mark : Word) : State :=
  let a : Talm := { ctrl := 0x80000038, hwm := mark }
  counting { sec := sec, a0 := a }
set_option maxRecDepth 100000 in
theorem witness_CalendarShadowsAndAlarms :
    (let s := midnight 1005782310 1005696000
     poisoned s (talmBase 0) = false ∧ poisoned s timBase = false ∧ talmEn (talm s 0) = true ∧ talmEn (talm s 1) = false ∧ s.tim.stopped = false ∧ s.tim.sec ≠ 0xFFFFFFFF ∧
     (s.tim.sec.toNat < 1005782400 ∧ (talm s 0).hwm.toNat < 1005782400 ∧ 1005782400 < (1005782490 : Word).toNat ∧ talmMatches (talm s 0) 1005782400 = true) ∧
     talmMatches (talm s 0) (1005782490 : Word).toNat = false ∧ talmDateReserved (talm s 0) 0x10101 = true) ∧
    (let s := midnight 1005782399 1005696000
     talmMatches (talm s 0) (s.tim.sec + 1).toNat = true ∧ (talm s 0).hwm.toNat < (s.tim.sec + 1).toNat ∧ s.tim.sec.toNat < (s.tim.sec + 1).toNat) ∧
    (1005782370 : Word).toNat ≤ (midnight 1005782700 1005782489).tim.sec.toNat := by decide
set_option maxRecDepth 100000 in
/-- Table 14.5, rows 2 to 4: a skipped fire, and none at the second crossing. -/
theorem test_table_14_5 : (talm (effTimeAdjWrite 180 (midnight 1005782310 1005696000)) 0).hwm = 1005782489 ∧
    (talm (effTimeAdjWrite 180 (midnight 1005782310 1005696000)) 0).skipped = true ∧
    (talm (effTimeSetWrite 1005782370 (midnight 1005782700 1005782489)) 0).hwm = 1005782489 ∧
    (talm (effTimeSecondTick 3000 (midnight 1005782399 1005782489)) 0).hwm = 1005782489 := by decide

/-- A panel with rails on and this in it. -/
def panelOf (d : DispSt) : State := { sys := { phase := .running }, disp := d }
def lastRegion (abort : Bool) (frame : Nat) : Region :=
  { rect := ⟨8, 8, 6, 1, false⟩, band := 3, length := 4, frame := frame, begun := true, aborting := abort, startMs := 0, scales := [] }
theorem witness_PanelRegionsRunByTheBoundaryOrder :
    rectOk ⟨(1 : BitVec 6).toNat * 8, (48 : BitVec 6).toNat * 8, (60 : BitVec 9).toNat, (72 : BitVec 9).toNat, false⟩ = true ∧
    rectOk ⟨(1 : BitVec 6).toNat * 8, (50 : BitVec 6).toNat * 8, 0, 1, false⟩ = false ∧
    (let s := panelOf { reqs := [⟨8, 384, 60, 72, false⟩], tempOut := false, band := 3 }
     running s = [] ∧ mayStart s = true ∧ s.disp.pend = [] ∧ s.disp.cleaning = [] ∧ s.disp.pend.length ≤ 8 ∧ s.disp.slots[0] = none) ∧
    (let s := panelOf { slots := (Vector.replicate 8 none).set 0 (some (lastRegion true 3)), frameOn := true, railsOn := true }
     s.disp.slots[0] = some (lastRegion true 3) ∧ (∀ j : Fin 8, j ≠ 0 → s.disp.slots[j] = none) ∧ (lastRegion true 3).frame + 1 = (lastRegion true 3).length ∧
     dispIdle s = false) ∧
    (let s := panelOf { slots := (Vector.replicate 8 none).set 0 (some (lastRegion true 0)), frameOn := true, tempOut := true, faultAt := [0, 0] }
     balancedAt s.disp.wave (lastRegion true 0) 1 = true ∧ s.disp.tempOut = true ∧ s.sys.phase ≠ .drydown ∧
     2 ≤ (s.disp.faultAt.filter (fun a => s.clock - a ≤ 600000000000)).length) ∧
    dispIdle (panelOf {}) = true ∧ (panelOf {}).disp.band = 3 ∧ bandEdge 3 - 5 < 214 ∧ (214 : Int) < bandEdge 4 ∧ (35 : Int) ≤ bandEdge 3 - 5 := by decide
/-- Table 15.7, row 6: the second request merges into the pending entry, which becomes y0 114, height 54. -/
theorem test_table_15_7 : pendPut ⟨8, 384, 132, 36, false⟩ [⟨8, 384, 114, 36, false⟩] = ([⟨8, 384, 114, 54, false⟩], true) := by decide
/-- R380: the balanced boundaries of the cleaning waveform. -/
theorem test_cleaning_boundaries : (List.range 25).filter (fun n => balancedAt [] { lastRegion false 0 with only := true } n) = [0, 2, 4, 20, 22, 24] := by
  decide

/-- A running node with one point of its own to acknowledge. -/
def alarmed (d : DispSt) : State :=
  let p : Point := { st := .activeUnack, occ := 7, sounds := true }
  { sys := { phase := .running }, alm := { points := [(4, p)] }, disp := d }
/-- Safe idle with a PIN 1. -/
def idling (d : DispSt) : State :=
  let g : Guarded := { pinLen := 1, pin := 1 }
  { sys := { phase := .safeIdle }, store := { guarded := some g }, disp := d }
/-- The primary renderer of page set 1. -/
def rendering : State :=
  let it : ItemSt := { role := .primary, primary := some 3 }
  { placing with plc := { up := true, items := [(0x30000001, it)] } }
theorem witness_FrontControlsAndPageSets :
    (let s := alarmed { page := .alarms }
     s.disp.ackKey = false ∧ s.disp.silKey = false ∧ shownPage s = .alarms ∧ (selected s).isSome = true ∧ s.alm.cmds.length < 256 ∧ s.disp.pin = none) ∧
    (let s := alarmed { page := .status, ackKey := true, silKey := true, touched := 1, stuck := 2 }
     s.disp.ackKey = true ∧ s.disp.silKey = true ∧ shownPage s ≠ .alarms ∧ s.disp.touched.getLsbD 0 = true ∧ s.disp.stuck.getLsbD 1 = true) ∧
    (let s := idling { touched := 8, pin := some { digit := 1 }, pinWrong := 2 }
     shownPage s = .idle ∧ s.disp.touched.getLsbD 3 = true ∧ hasPin s = true ∧ (s.store.guarded.map (fun g => (pinMatches g [1], pinMatches g [2]))) = some (true, false) ∧
     s.disp.pinLocked = false) ∧ hasPin State.reset = false ∧ (idling { pinLocked := true }).disp.pinLocked = true ∧
    (renderersHere rendering (wd (fld 0x20000001 0 28))) = [0x30000001] ∧ itemKind 0x30000001 = 3 ∧ isPrimary rendering 0x30000001 = true ∧
    (receive here (.itemState (.render 0x20000001 1 1 0 1 [])) rendering).1 = true := by decide
/-- Table 15.4: a source line. -/
theorem test_source_line : srcText ⟨true, 0x120, 3, .ua, 0, 0x9005⟩ = ascii "C UA A0120     F00009005" := by decide

/-- A recorder that runs over a log. -/
def logging (r : RecSt) : State := { rcd := r }
/-- A stored record of a number and a severity. -/
def logged (n sev : Nat) : LogRec := { words := [wd n, 0, wd (sev * 64)] }
/-- A record of an event of severity 1 at the queue. -/
def waiting1 : Event := ⟨0x10, 0x0D, 1, 0x0D0000, false, 0, [], 0⟩
theorem witness_LogKeepsNumberedRecords :
    (let s := logging { running := true, lostSince := 3, winBusy := true, slots := [(0, logged 5 1)] }
     s.rcd.running = true ∧ s.rcd.rebuilding = false ∧ 0 < s.rcd.lostSince ∧ s.rcd.index.fill < 16384 ∧ s.rcd.winBusy = true ∧
     (s.rcd.sel - s.rcd.index.oldest).toNat ≤ recOrder s.rcd.index (logged 5 1)) ∧
    (let s := logging { running := true, startDue := some waiting1 }
     s.rcd.startDue = some waiting1 ∧ s.rcd.lostSince = 0) ∧
    (let s := logging { running := true, queue := [waiting1], index := { fill := 16384 }, slots := [(0, logged 5 1), (1, logged 6 2)] }
     s.rcd.queue = waiting1 :: [] ∧ s.rcd.startDue = none ∧ 16384 ≤ s.rcd.index.fill ∧ (∀ p ∈ s.rcd.slots, p.2.bad = false) ∧
     (∃ p ∈ s.rcd.slots, recSev p.2 ≤ waiting1.sev.toNat)) ∧
    (let s := logging { running := true, queue := [waiting1], index := { fill := 16384 }, slots := [(0, logged 5 3), (1, logged 6 2)] }
     ∀ p ∈ s.rcd.slots, p.2.bad = false ∧ waiting1.sev.toNat < recSev p.2) ∧
    (logging { rebuilding := true }).rcd.rebuilding = true ∧ (logging {}).rcd.winBusy = false := by decide

/-- A running node with its write lock set. -/
def lockedNode : State := { sys := { phase := .running, lock := true } }
set_option maxRecDepth 20000 in
theorem witness_RegisterWritesAndAlarmCommands :
    regsUp State.reset = false ∧ (6 : BitVec 24).toNat % 4 ≠ 0 ∧ regsUp { sys := { phase := .recovery } } = true ∧
    mute { sys := { phase := .recovery } } 0x030080 = true ∧ lockedNode.sys.phase = .running ∧
    inHold 0x300000 = false ∧ peek lockedNode 0x300000 = none ∧ lockRefuses 0x0C000C 1 lockedNode = true ∧ (peek lockedNode 0x0C000C).isSome = true ∧
    lockRefuses 0x0F0008 1 lockedNode = true ∧ (1 : Word).getLsbD 1 = false ∧ (peek lockedNode 0x0F0008).isSome = true ∧
    (peek lockedNode 0).isSome = true ∧ isPair lockedNode = false ∧ isPair (paired {}) = true ∧ (paired {}).sys.phase = .running ∧
    lockedNode.alm.cmds.length < 256 ∧ 256 ≤ ({ lockedNode.alm with cmds := List.replicate 256 (3, AlmOp.unshelve) } : AlmSt).cmds.length ∧
    (fld 0x00071005 14 2 = 0 ∧ fld 0x00075005 14 2 = 1 ∧ fld 0x00079005 14 2 = 2) ∧
    (receive here (.alarmCommand 0 0x3004 .unshelve) placing).1 = true ∧ tagAddr 0x3004 = pairAddr placing ∧ tagAddr 0x4004 ≠ pairAddr placing := by decide

/-- A request at port S of a service computer, for the node itself or for another. -/
def asked (self waits : Bool) : SvcReq := ⟨0xA9FE0102, 4000, 7, self, 5, waits⟩
def portNode (v : SvcSt) : State := { sys := { phase := .running }, serial := 77, svc := v }
def answer7 : MgmtReply := ⟨0x81, 7, 0, 0, true, 0, []⟩
/-- A key request that nobody signs, and one that names a slot as its signer. -/
def keyed (signer : BitVec 8) (key : BitVec 256) : KeyReq := ⟨0, signer, 9, key, 0⟩
theorem witness_PortServesEachRequestOnce :
    (let o := SvcOrigin.portS 0xA9FE0102 4000
     let s := portNode {}
     regsUp s = true ∧ keptReply s o 7 = none ∧ forMe s (asked true false) = true ∧ forMe s (asked false false) = false ∧
     routeTo s (asked false false).target = none ∧ s.sys.phase ≠ .recovery ∧ svcWaits (asked true true) s = true ∧ svcWaits (asked true false) s = false ∧
     svcWaits (asked false false) s = false ∧ s.svc.queue.length < 16 ∧
     roleOf s 0x40000005 = .none ∧ s.svc.nonce ≠ some (keyed 0xFF 1).nonce ∧ (77 : Word) = s.serial ∧
     keptReply (portNode { kept := [(o, 7, answer7)] }) o 7 = some answer7 ∧
     (receive here (.mgmtRequest 7 (.sOnly 0x10)) s).1 = true ∧ (receive here (.mgmtReply answer7) s).1 = true ∧ waitingFor s 5 7 = none ∧
     waitingFor (portNode { waiting := [(o, 7, 5, 1)] }) 5 7 = some (o, 7, 5, 1) ∧ notInRecovery 0x30 = false) ∧
    (let s := { portNode { nonce := some 9 } with sys := { phase := .safeIdle }, disp := { page := .service } }
     regsUp s = true ∧ s.svc.nonce = some (keyed 0xFF 1).nonce ∧ signerOk 0x11 (keyed 0xFF 1) s = true ∧ signerOk 0x11 (keyed 0 1) s = false ∧
     signerOk 0x12 (keyed 0xFF 0) s = true) ∧
    (let s := { portNode {} with fab := { addressed := true, member := 3, fwd := [(5, 0)] } }
     (routeTo s (asked false false).target).isSome = true ∧ forMe s (asked false false) = false ∧ s.fab.addressed = true) ∧
    (let s := { portNode {} with plc := collecting.plc }
     roleOf s 0x40000005 ≠ .none ∧ itemKind 0x40000005 = 4) ∧ regsUp State.reset = false := by decide

/-- A node with this update engine. -/
def updating (u : UpdSt) : State := { portNode {} with upd := u }
def fragOf (ok : Bool) : UpdFrag := ⟨1, 4, 0, 1, 0, 0, [0], ok⟩
theorem witness_UpdatesAreLoadedCheckedAndActivated :
    (let o := SvcOrigin.portS 0xA9FE0102 4000
     let s := updating {}
     let x : Session := { owner := o, newVer := 2, count := 2 }
     let l := updating { state := .loading, sess := some x }
     regsUp s = true ∧ svcWaits (asked true false) s = false ∧ keptReply s o 7 = none ∧ (asked true false).self = true ∧ s.sys.phase ≠ .recovery ∧
     heldByOther o s = false ∧ heldByOther (.portS 1 1) l = true ∧ mayBegin s = true ∧ s.store.trial = false ∧ (5 : Word) ≠ s.upd.runVer ∧
     fragBad (fragOf true) x = false ∧ (fragOf true).frags = 1 ∧ (fragOf true).frag = 0 ∧ (buildBlock (bankOf l false) 4 0 [0]).isSome = true ∧
     allWritten x = false ∧ allWritten { x with written := [0, 1] } = true ∧ s.upd.sess = none) ∧
    (let s := updating { state := .verified }
     s.upd.state ≠ .activating ∧ activateReason s = none ∧ s.sys.lock = false ∧ isRunning s = true ∧ activateReason (updating {}) = some 8) ∧
    lockedNode.sys.lock = true ∧ lockedNode.upd.state ≠ .activating ∧ (updating { state := .activating }).upd.state = .activating ∧
    (updating { state := .verifying }).upd.state = .verifying ∧
    ({ updating { confirmAt := some 0 } with store := { State.reset.store with trial := true } } : State).upd.confirmAt.isSome = true := by decide
/-- R420: PATCH replaces the runs named, and no more. -/
theorem test_patch : ((patchGo 20 0 [2, 0, 1, 0, 0xAA, 4, 0, 2, 0, 0xBB, 0xCC] [0, 1, 2, 3, 4, 5, 6]) =
    some [0, 1, 0xAA, 3, 0xBB, 0xCC, 6]) := by decide

theorem witness_EveryCommandCompletesWithinBounds : Bounded State.reset := by unfold Bounded; decide

end Sys2Proof.Tests
end

/-! O60 and O59 (R20, R187, R287, R383, R395, R410, R413): every command ends in a next state that keeps what `Laws.Keeps` lists. The
operations' own lemmas stand in Laws/Keeps*; here they are put together along the arms of `exec`, and then along the branches of `step`. -/
namespace Sys2Proof.Proofs

open Sys2Proof.Machine Sys2Proof.Laws

/-- The commands that change a key slot (R413). -/
def isKeyCmd : Instr → Bool
  | .keyInstall _ _ => true
  | .keyRemove _ _ => true
  | _ => false

/-- The command that the outcome belongs to has completed, and its next state keeps what every operation keeps. -/
def Completes (b : Bool) (s : State) (o : Out) : Prop := ∃ t, o = .next t ∧ Keeps b s t

/-! The commands whose operation has no lemma of its own in Laws/Keeps*. -/

/-- A window that is freed only shortens the table (R287). -/
theorem windowIdleFree_completes (b : Bool) (key : Word) (stream : BitVec 12) (s : State) :
    Completes b s (execWindowIdleFree key stream s) :=
  ⟨_, rfl, rfl, rfl, rfl, rfl, id, id, Nat.le_trans (List.length_filter_le _ _), id, id, fun _ h => h, fun _ => rfl⟩

/-- A claim that begins with the numbers lost before forgotten (R266, R269). -/
theorem keeps_claimAfresh (b : Bool) (s : State) : Keeps b s (claimNext { s with fab := { s.fab with lost := [] } }) :=
  keeps_claimNext (keeps_mk (.refl _ s) rfl rfl rfl rfl rfl rfl rfl)

theorem claimRetransmit_completes (b : Bool) (s : State) : Completes b s (execClaimRetransmit s) := by
  refine ⟨_, rfl, ?_⟩
  split
  · exact keeps_ite (keeps_sendClaim (keeps_mk (.refl _ s) rfl rfl rfl rfl rfl rfl rfl)) (.refl _ s)
  · exact .refl _ s

/-- Every arm of the dispatch is one operation, and each has its lemma of what it keeps. -/
theorem exec_completes (s : State) : ∀ c : Instr, Completes (!isKeyCmd c) s (exec c s)
  | .partitionViolation _ _ => ⟨_, rfl, keeps_effPartitionViolation (.refl _ s) _ _⟩
  | .clockFailure _ => ⟨_, rfl, keeps_effClockFailure (.refl _ s) _⟩
  | .watchdogService _ _ => ⟨_, rfl, keeps_effWatchdogService (.refl _ s) _ _⟩
  | .watchdogExpiry _ => ⟨_, rfl, keeps_effWatchdogExpiry (.refl _ s) _⟩
  | .scrubRead _ _ _ _ _ _ => ⟨_, rfl, keeps_effScrubRead (.refl _ s) _ _ _ _ _ _⟩
  | .scrubBehind _ => ⟨_, rfl, keeps_effScrubBehind (.refl _ s) _⟩
  | .rsqClearWrite _ _ _ => ⟨_, rfl, keeps_effRsqClearWrite (.refl _ s) _ _ _⟩
  | .registerWrite _ _ => ⟨_, rfl, keeps_effRegisterWrite (.refl _ s) _ _⟩
  | .lockSet _ => ⟨_, rfl, keeps_effLockSet (.refl _ s) _⟩
  | .snapshotAbort _ => ⟨_, rfl, keeps_effSnapshotAbort (.refl _ s) _⟩
  | .mainsLost _ => ⟨_, rfl, keeps_effMainsLost (.refl _ s) _⟩
  | .mainsCycleEnd _ _ _ => ⟨_, rfl, keeps_effMainsCycleEnd (.refl _ s) _ _ _⟩
  | .drydownTrigger _ _ _ => ⟨_, rfl, keeps_effDrydownTrigger (.refl _ s) _ _ _⟩
  | .drydownGuard _ => ⟨_, rfl, keeps_effDrydownGuard (.refl _ s) _⟩
  | .drydownAbandon _ => ⟨_, rfl, keeps_effDrydownAbandon (.refl _ s) _⟩
  | .drydownComplete _ _ => ⟨_, rfl, keeps_effDrydownComplete (.refl _ s) _ _⟩
  | .fieldSupplyMonitor _ _ _ _ _ => ⟨_, rfl, keeps_effFieldSupplyMonitor (.refl _ s) _ _ _ _ _⟩
  | .startSequence _ => ⟨_, rfl, keeps_effStartSequence (.refl _ s) _⟩
  | .flaconRetry _ => ⟨_, rfl, keeps_effFlaconRetry (.refl _ s) _⟩
  | .flaconInserted _ _ => ⟨_, rfl, keeps_effFlaconInserted (.refl _ s) _ _⟩
  | .plugAccepted _ _ => ⟨_, rfl, keeps_effPlugAccepted (.refl _ s) _ _⟩
  | .plugRemoved _ => ⟨_, rfl, keeps_effPlugRemoved (.refl _ s) _⟩
  | .excUnreg _ _ => ⟨_, rfl, keeps_effExcUnreg (.refl _ s) _ _⟩
  | .loopLimit _ _ => ⟨_, rfl, keeps_effLoopLimit (.refl _ s) _ _⟩
  | .excLimit _ _ => ⟨_, rfl, keeps_effExcLimit (.refl _ s) _ _⟩
  | .blockDrawMeasure _ _ => ⟨_, rfl, keeps_effBlockDrawMeasure (.refl _ s) _ _⟩
  | .foldback _ _ => ⟨_, rfl, keeps_effFoldback (.refl _ s) _ _⟩
  | .excShed _ => ⟨_, rfl, keeps_effExcShed (.refl _ s) _⟩
  | .shedRetry _ => ⟨_, rfl, keeps_effShedRetry (.refl _ s) _⟩
  | .shedRetryCheck _ => ⟨_, rfl, keeps_effShedRetryCheck (.refl _ s) _⟩
  | .calGainWrite _ _ => ⟨_, rfl, keeps_effCalGainWrite (.refl _ s) _ _⟩
  | .calOffsetWrite _ _ => ⟨_, rfl, keeps_effCalOffsetWrite (.refl _ s) _ _⟩
  | .afeCfgWrite _ _ => ⟨_, rfl, keeps_effAfeCfgWrite (.refl _ s) _ _⟩
  | .afeExcWrite _ _ => ⟨_, rfl, keeps_effAfeExcWrite (.refl _ s) _ _⟩
  | .afeRateWrite _ _ => ⟨_, rfl, keeps_effAfeRateWrite (.refl _ s) _ _⟩
  | .cjMeasure _ _ _ => ⟨_, rfl, keeps_effCjMeasure (.refl _ s) _ _ _⟩
  | .cjSpread _ _ => ⟨_, rfl, keeps_effCjSpread (.refl _ s) _ _⟩
  | .restartPoint _ _ => ⟨_, rfl, keeps_effRestartPoint (.refl _ s) _ _⟩
  | .outputSample _ _ _ _ _ => ⟨_, rfl, keeps_effOutputSample (.refl _ s) _ _ _ _ _⟩
  | .spritzSlot _ _ => ⟨_, rfl, keeps_effSpritzSlot (.refl _ s) _ _⟩
  | .coarseWindow _ _ _ _ => ⟨_, rfl, keeps_effCoarseWindow (.refl _ s) _ _ _ _⟩
  | .afeHealthWrite _ _ _ => ⟨_, rfl, keeps_effAfeHealthWrite (.refl _ s) _ _ _⟩
  | .repeatOutputTick _ => ⟨_, rfl, keeps_effRepeatOutputTick (.refl _ s) _⟩
  | .diSample _ _ => ⟨_, rfl, keeps_effDiSample (.refl _ s) _ _⟩
  | .diCfgWrite _ _ => ⟨_, rfl, keeps_effDiCfgWrite (.refl _ s) _ _⟩
  | .doCurrentLimit _ _ => ⟨_, rfl, keeps_effDoCurrentLimit (.refl _ s) _ _⟩
  | .doTsd _ => ⟨_, rfl, keeps_effDoTsd (.refl _ s) _⟩
  | .doTsdCooled _ => ⟨_, rfl, keeps_effDoTsdCooled (.refl _ s) _⟩
  | .doTsdLatchRelease _ => ⟨_, rfl, keeps_effDoTsdLatchRelease (.refl _ s) _⟩
  | .doStale _ => ⟨_, rfl, keeps_effDoStale (.refl _ s) _⟩
  | .doDiagnosticFilter _ _ _ => ⟨_, rfl, keeps_effDoDiagnosticFilter (.refl _ s) _ _ _⟩
  | .fixKeepaliveLost _ => ⟨_, rfl, keeps_effFixKeepaliveLost (.refl _ s) _⟩
  | .fixHoldEnd _ => ⟨_, rfl, keeps_effFixHoldEnd (.refl _ s) _⟩
  | .fixSupplyRelease _ _ => ⟨_, rfl, keeps_effFixSupplyRelease (.refl _ s) _ _⟩
  | .onDelayExpiry _ => ⟨_, rfl, keeps_effOnDelayExpiry (.refl _ s) _⟩
  | .offDelayExpiry _ => ⟨_, rfl, keeps_effOffDelayExpiry (.refl _ s) _⟩
  | .blockDelayExpiry _ => ⟨_, rfl, keeps_effBlockDelayExpiry (.refl _ s) _⟩
  | .shelveExpiry _ => ⟨_, rfl, keeps_effShelveExpiry (.refl _ s) _⟩
  | .almCmdAck _ _ => ⟨_, rfl, keeps_queueCmd (.refl _ s) _ _⟩
  | .almCmdShelve _ _ => ⟨_, rfl, keeps_queueCmd (.refl _ s) _ _⟩
  | .almCmdUnshelve _ => ⟨_, rfl, keeps_queueCmd (.refl _ s) _ _⟩
  | .almRecWrite _ _ => ⟨_, rfl, keeps_recWrite (.refl _ s) _ _⟩
  | .memberReport _ _ => ⟨_, rfl, keeps_effMemberReport (.refl _ s) _ _⟩
  | .alarmEvent _ _ _ => ⟨_, rfl, keeps_effAlarmEvent (.refl _ s) _ _ _⟩
  | .firstOutWindowClose _ => ⟨_, rfl, keeps_effFirstOutWindowClose (.refl _ s) _⟩
  | .groupDelayExpiry _ => ⟨_, rfl, keeps_effGroupDelayExpiry (.refl _ s) _⟩
  | .mean _ _ _ => ⟨_, rfl, keeps_effMean (.refl _ s) _ _ _⟩
  | .accordEvent _ _ _ => ⟨_, rfl, keeps_effAccordEvent (.refl _ s) _ _ _⟩
  | .evaluatorRebuild _ => ⟨_, rfl, keeps_effEvaluatorRebuild (.refl _ s) _⟩
  | .keyRelay _ _ _ => ⟨_, rfl, keeps_effKeyRelay (.refl _ s) _ _ _⟩
  | .patrolWarn _ => ⟨_, rfl, keeps_effPatrolWarn (.refl _ s) _⟩
  | .patrolCall _ => ⟨_, rfl, keeps_effPatrolCall (.refl _ s) _⟩
  | .stageTimeout _ => ⟨_, rfl, keeps_effStageTimeout (.refl _ s) _⟩
  | .deliveryReport _ _ => ⟨_, rfl, keeps_effDeliveryReport (.refl _ s) _ _⟩
  | .itemState _ _ => ⟨_, rfl, keeps_effItemState (.refl _ s) _ _⟩
  | .callManagerRebuild _ => ⟨_, rfl, keeps_effCallManagerRebuild (.refl _ s) _⟩
  | .key _ _ _ => ⟨_, rfl, keeps_effKey (.refl _ s) _ _ _⟩
  | .panelBeat _ _ _ => ⟨_, rfl, keeps_effPanelBeat (.refl _ s) _ _ _⟩
  | .pageReq _ _ _ _ => ⟨_, rfl, keeps_effPageReq (.refl _ s) _ _ _ _⟩
  | .panelLost _ _ => ⟨_, rfl, keeps_effPanelLost (.refl _ s) _ _⟩
  | .canClash _ _ => ⟨_, rfl, keeps_effCanClash (.refl _ s) _ _⟩
  | .clashClear _ => ⟨_, rfl, keeps_pbMod (.refl _ s) _ _⟩
  | .panelRefresh _ _ _ => ⟨_, rfl, keeps_effPanelRefresh (.refl _ s) _ _ _⟩
  | .fifoAdmit _ => ⟨_, rfl, keeps_effFifoAdmit (.refl _ s) _⟩
  | .callFrameWithdraw _ _ _ => ⟨_, rfl, keeps_effCallFrameWithdraw (.refl _ s) _ _ _⟩
  | .canTxComplete _ _ => ⟨_, rfl, keeps_effCanTxComplete (.refl _ s) _ _⟩
  | .canErrorFrame _ _ _ _ => ⟨_, rfl, keeps_effCanErrorFrame (.refl _ s) _ _ _ _⟩
  | .busOff _ => ⟨_, rfl, keeps_effBusOff (.refl _ s) _⟩
  | .busoffWaitExpiry _ => ⟨_, rfl, keeps_ite (keeps_pbMod (.refl _ s) _ _) (.refl _ s)⟩
  | .busoffRecovered _ => ⟨_, rfl, keeps_effBusoffRecovered (.refl _ s) _⟩
  | .phyUp _ => ⟨_, rfl, keeps_effPhyUp (.refl _ s) _⟩
  | .phyDown _ => ⟨_, rfl, keeps_effPhyDown (.refl _ s) _⟩
  | .hello _ _ => ⟨_, rfl, keeps_effHello (.refl _ s) _ _⟩
  | .neighbourTimeout _ => ⟨_, rfl, keeps_loseTwoWay (.refl _ s) _⟩
  | .linkAlone _ => ⟨_, rfl, keeps_effLinkAlone (.refl _ s) _⟩
  | .sync _ _ => ⟨_, rfl, keeps_effSync (.refl _ s) _ _⟩
  | .lsa _ _ => ⟨_, rfl, keeps_effLsa (.refl _ s) _ _⟩
  | .lsaTombstone _ _ => ⟨_, rfl, keeps_effLsaTombstone (.refl _ s) _ _⟩
  | .tombstoneExpiry _ _ => ⟨_, rfl, keeps_effTombstoneExpiry (.refl _ s) _ _⟩
  | .claim _ _ => ⟨_, rfl, keeps_effClaim (.refl _ s) _ _⟩
  | .defend _ _ => ⟨_, rfl, keeps_effDefend (.refl _ s) _ _⟩
  | .claimExclusionExpiry _ => ⟨_, rfl, keeps_mk (.refl _ s) rfl rfl rfl rfl rfl rfl rfl⟩
  | .frameForward _ _ => ⟨_, rfl, keeps_effFrameForward (.refl _ s) _ _⟩
  | .zoneUpdate _ _ => ⟨_, rfl, keeps_effZoneUpdate (.refl _ s) _ _⟩
  | .zonePathExpiry _ _ => ⟨_, rfl, keeps_refreshRemote (keeps_mk (.refl _ s) rfl rfl rfl rfl rfl rfl rfl)⟩
  | .zoneSummary _ _ => ⟨_, rfl, keeps_effZoneSummary (.refl _ s) _ _⟩
  | .nodeState _ _ => ⟨_, rfl, keeps_effNodeState (.refl _ s) _ _⟩
  | .drydownNotice _ _ _ => ⟨_, rfl, keeps_effDrydownNotice (.refl _ s) _ _ _⟩
  | .linkFrameEnd _ => ⟨_, rfl, keeps_effLinkFrameEnd (.refl _ s) _⟩
  | .frameAgeDrop _ _ _ => ⟨_, rfl, keeps_effFrameAgeDrop (.refl _ s) _ _ _⟩
  | .timeMark _ _ => ⟨_, rfl, keeps_effTimeMark (.refl _ s) _ _⟩
  | .windowIdleFree _ _ => windowIdleFree_completes _ _ _ s
  | .subscribe _ _ => ⟨_, rfl, keeps_effSubscribe (.refl _ s) _ _⟩
  | .subscriberExpiry _ => ⟨_, rfl, keeps_mk (.refl _ s) rfl rfl rfl rfl rfl rfl rfl⟩
  | .publication _ _ => ⟨_, rfl, keeps_effPublication (.refl _ s) _ _⟩
  | .subscriptionTimeout _ => ⟨_, rfl, keeps_effSubscriptionTimeout (.refl _ s) _⟩
  | .fabAddrWrite _ => ⟨_, rfl, keeps_effFabAddrWrite (.refl _ s) _⟩
  | .outputCommand _ _ _ => ⟨_, rfl, keeps_effOutputCommand (.refl _ s) _ _ _⟩
  | .alarmCommand _ _ _ _ => ⟨_, rfl, keeps_effAlarmCommand (.refl _ s) _ _ _ _⟩
  | .callCommand _ _ _ => ⟨_, rfl, keeps_effCallCommand (.refl _ s) _ _ _⟩
  | .pageContent _ _ => ⟨_, rfl, keeps_effPageContent (.refl _ s) _ _⟩
  | .catalogue _ _ => ⟨_, rfl, keeps_effCatalogue (.refl _ s) _ _⟩
  | .catalogueRelay _ _ => ⟨_, rfl, keeps_effCatalogueRelay (.refl _ s) _ _⟩
  | .catalogueRequest _ _ => ⟨_, rfl, keeps_effCatalogueRequest (.refl _ s) _ _⟩
  | .candidateHealthy _ => ⟨_, rfl, keeps_effCandidateHealthy (.refl _ s) _⟩
  | .candidateExpiry _ => ⟨_, rfl, keeps_effCandidateExpiry (.refl _ s) _⟩
  | .itemStarved _ => ⟨_, rfl, keeps_effItemStarved (.refl _ s) _⟩
  | .trend _ _ => ⟨_, rfl, keeps_effTrend (.refl _ s) _ _⟩
  | .placeCalcWrite _ _ => ⟨_, rfl, keeps_effPlaceCalcWrite (.refl _ s) _ _⟩
  | .ownLoopReleased _ => ⟨_, rfl, keeps_effOwnLoopReleased (.refl _ s) _⟩
  | .ownLoopOpen _ => ⟨_, rfl, keeps_ite (keeps_pairSet (.refl _ s) _) (.refl _ s)⟩
  | .beat _ _ => ⟨_, rfl, keeps_effBeat (.refl _ s) _ _⟩
  | .pairPathLost _ => ⟨_, rfl, keeps_effPairPathLost (.refl _ s) _⟩
  | .listenEnd _ => ⟨_, rfl, keeps_effListenEnd (.refl _ s) _⟩
  | .probe _ _ => ⟨_, rfl, keeps_effProbe (.refl _ s) _ _⟩
  | .probeReply _ _ => ⟨_, rfl, keeps_effProbeReply (.refl _ s) _ _⟩
  | .seizeEnd _ => ⟨_, rfl, keeps_effSeizeEnd (.refl _ s) _⟩
  | .handoverReq _ _ => ⟨_, rfl, keeps_effHandoverReq (.refl _ s) _ _⟩
  | .grant _ _ => ⟨_, rfl, keeps_effGrant (.refl _ s) _ _⟩
  | .released _ _ => ⟨_, rfl, keeps_effReleased (.refl _ s) _ _⟩
  | .checkpoint _ _ _ _ => ⟨_, rfl, keeps_effCheckpoint (.refl _ s) _ _ _ _⟩
  | .eventMirror _ _ _ => ⟨_, rfl, keeps_effEventMirror (.refl _ s) _ _ _⟩
  | .tickMirror _ _ => ⟨_, rfl, keeps_effTickMirror (.refl _ s) _ _⟩
  | .doubleSendEnd _ => ⟨_, rfl, keeps_effDoubleSendEnd (.refl _ s) _⟩
  | .pairForceWrite _ => ⟨_, rfl, keeps_effPairForceWrite (.refl _ s) _⟩
  | .calTest _ _ => ⟨_, rfl, keeps_effCalTest (.refl _ s) _ _⟩
  | .timeSecondTick _ => ⟨_, rfl, keeps_effTimeSecondTick (.refl _ s) _⟩
  | .crystalStop _ => ⟨_, rfl, keeps_effCrystalStop (.refl _ s) _⟩
  | .timeIslandPowerUp _ => ⟨_, rfl, keeps_effTimeIslandPowerUp (.refl _ s) _⟩
  | .vcapLow _ => ⟨_, rfl, keeps_measureVcap (.refl _ s) _⟩
  | .timeSetWrite _ => ⟨_, rfl, keeps_effTimeSetWrite (.refl _ s) _⟩
  | .timeAdjWrite _ => ⟨_, rfl, keeps_effTimeAdjWrite (.refl _ s) _⟩
  | .timeSetTodWrite _ => ⟨_, rfl, keeps_effTimeSetTodWrite (.refl _ s) _⟩
  | .timeConvWrite _ => ⟨_, rfl, keeps_timMod (.refl _ s) _⟩
  | .talmWrite _ _ _ => ⟨_, rfl, keeps_effTalmWrite (.refl _ s) _ _ _⟩
  | .updateRequest _ _ _ _ _ => ⟨_, rfl, keeps_effUpdateRequest (.refl _ s) _⟩
  | .regionComplete _ => ⟨_, rfl, keeps_finishSlot (.refl _ s) _⟩
  | .dispAbortWrite _ _ => ⟨_, rfl, keeps_effDispAbortWrite (.refl _ s) _ _⟩
  | .frontAckPress _ => ⟨_, rfl, keeps_effFrontAckPress (.refl _ s) _⟩
  | .frontSilencePress _ => ⟨_, rfl, keeps_effFrontSilencePress (.refl _ s) _⟩
  | .touchKey _ _ => ⟨_, rfl, keeps_effTouchKey (.refl _ s) _ _⟩
  | .touchStuck _ => ⟨_, rfl, keeps_effTouchStuck (.refl _ s) _⟩
  | .panelTempRead _ _ => ⟨_, rfl, keeps_effPanelTempRead (.refl _ s) _ _⟩
  | .pageRenderSend _ _ => ⟨_, rfl, keeps_effPageRenderSend (.refl _ s) _ _⟩
  | .logSelWrite _ => ⟨_, rfl, keeps_effLogSelWrite (.refl _ s) _⟩
  | .discover _ _ => ⟨_, rfl, keeps_effDiscover (.refl _ s) _ _⟩
  | .read _ _ _ => ⟨_, rfl, keeps_effRead (.refl _ s) _ _ _⟩
  | .write _ _ _ => ⟨_, rfl, keeps_effWrite (.refl _ s) _ _ _⟩
  | .logRead _ _ _ => ⟨_, rfl, keeps_effLogRead (.refl _ s) _ _ _⟩
  | .trendRead _ _ _ _ => ⟨_, rfl, keeps_effTrendRead (.refl _ s) _ _ _ _⟩
  | .reset _ _ => ⟨_, rfl, keeps_effReset (.refl _ s) _ _⟩
  | .challenge _ _ => ⟨_, rfl, keeps_effChallenge (.refl _ s) _ _⟩
  | .keyInstall _ _ => ⟨_, rfl, keeps_effKeyInstall (.refl _ s) _ _⟩
  | .keyRemove _ _ => ⟨_, rfl, keeps_effKeyRemove (.refl _ s) _ _⟩
  | .updBegin _ _ _ _ => ⟨_, rfl, keeps_effUpdBegin (.refl _ s) _ _ _ _⟩
  | .updBlock _ _ => ⟨_, rfl, keeps_effUpdBlock (.refl _ s) _ _⟩
  | .updFinish _ => ⟨_, rfl, keeps_effUpdFinish (.refl _ s) _⟩
  | .mgmtRequest _ _ _ => ⟨_, rfl, keeps_effMgmtRequest (.refl _ s) _ _ _⟩
  | .mgmtReply _ _ => ⟨_, rfl, keeps_effMgmtReply (.refl _ s) _ _⟩
  | .mgmtTimeout _ _ => ⟨_, rfl, keeps_effMgmtTimeout (.refl _ s) _ _⟩
  | .updActivate _ => ⟨_, rfl, keeps_effUpdActivate (.refl _ s) _⟩
  | .updAbort _ => ⟨_, rfl, keeps_effUpdAbort (.refl _ s) _⟩
  | .arbitrationLost _ _ => ⟨_, rfl, keeps_effArbitrationLost (.refl _ s) _ _⟩
  | .meanOffsetReport _ _ => ⟨_, rfl, keeps_effMeanOffsetReport (.refl _ s) _ _⟩
  | .rendererCallStateSend _ => ⟨_, rfl, keeps_effRendererCallStateSend (.refl _ s) _⟩
  | .rendererCallState _ _ _ _ _ _ _ => ⟨_, rfl, keeps_effRendererCallState (.refl _ s) _ _ _ _ _ _ _⟩
  | .replyCacheExpiry _ _ => ⟨_, rfl, keeps_effReplyCacheExpiry (.refl _ s) _ _⟩
  | .badDatagram _ _ _ => ⟨_, rfl, keeps_effBadDatagram (.refl _ s) _ _ _⟩
  | .arp _ => ⟨_, rfl, keeps_effArp (.refl _ s) _⟩
  | .lockstepFailure => ⟨_, rfl, keeps_effLockstepFailure (.refl _ s)⟩
  | .eccUncorrReset => ⟨_, rfl, keeps_effEccUncorrReset (.refl _ s)⟩
  | .checkpointSecond => ⟨_, rfl, keeps_effCheckpointSecond (.refl _ s)⟩
  | .eventRegisterLatch => ⟨_, rfl, keeps_effEventRegisterLatch (.refl _ s)⟩
  | .lockPolicyTimer => ⟨_, rfl, keeps_effLockPolicyTimer (.refl _ s)⟩
  | .snapshotStart => ⟨_, rfl, keeps_effSnapshotStart (.refl _ s)⟩
  | .snapshotComplete => ⟨_, rfl, keeps_effSnapshotComplete (.refl _ s)⟩
  | .voteFailReset => ⟨_, rfl, keeps_effVoteFailReset (.refl _ s)⟩
  | .mainsLostClear => ⟨_, rfl, keeps_effMainsLostClear (.refl _ s)⟩
  | .rideThroughEnd => ⟨_, rfl, keeps_effRideThroughEnd (.refl _ s)⟩
  | .restartRelease => ⟨_, rfl, keeps_effRestartRelease (.refl _ s)⟩
  | .supplyCollapse => ⟨_, rfl, keeps_effSupplyCollapse (.refl _ s)⟩
  | .opSecondsTick => ⟨_, rfl, keeps_effOpSecondsTick (.refl _ s)⟩
  | .flaconRemoved => ⟨_, rfl, keeps_effFlaconRemoved (.refl _ s)⟩
  | .freezeLine => ⟨_, rfl, keeps_effFreezeLine (.refl _ s)⟩
  | .alarmCycleTick => ⟨_, rfl, keeps_effAlarmCycleTick (.refl _ s)⟩
  | .eventCopyRelease => ⟨_, rfl, keeps_effEventCopyRelease (.refl _ s)⟩
  | .eventCopyDiscard => ⟨_, rfl, keeps_effEventCopyDiscard (.refl _ s)⟩
  | .memberReportSend => ⟨_, rfl, keeps_effMemberReportSend (.refl _ s)⟩
  | .meanPeriod => ⟨_, rfl, keeps_effMeanPeriod (.refl _ s)⟩
  | .meanRequestSend => ⟨_, rfl, keeps_effMeanRequestSend (.refl _ s)⟩
  | .accordStateReport => ⟨_, rfl, keeps_effAccordStateReport (.refl _ s)⟩
  | .summaryOutputPeriod => ⟨_, rfl, keeps_effSummaryOutputPeriod (.refl _ s)⟩
  | .itemStateSend => ⟨_, rfl, keeps_effItemStateSend (.refl _ s)⟩
  | .dutyReportSend => ⟨_, rfl, keeps_effDutyReportSend (.refl _ s)⟩
  | .nodeBeatSend => ⟨_, rfl, keeps_effNodeBeatSend (.refl _ s)⟩
  | .helloSend => ⟨_, rfl, keeps_effHelloSend (.refl _ s)⟩
  | .lsaOriginate => ⟨_, rfl, keeps_originate (.refl _ s)⟩
  | .routeCompute => ⟨_, rfl, keeps_effRouteCompute (.refl _ s)⟩
  | .claimStart => ⟨_, rfl, keeps_ite (keeps_claimAfresh _ s) (.refl _ s)⟩
  | .claimRetransmit => claimRetransmit_completes _ s
  | .claimWin => ⟨_, rfl, keeps_effClaimWin (.refl _ s)⟩
  | .addrRetry => ⟨_, rfl, keeps_ite (keeps_claimAfresh _ s) (.refl _ s)⟩
  | .zoneUpdateSend => ⟨_, rfl, keeps_effZoneUpdateSend (.refl _ s)⟩
  | .zoneSummarySend => ⟨_, rfl, keeps_effZoneSummarySend (.refl _ s)⟩
  | .nodeStateSend => ⟨_, rfl, keeps_sendNodeState (.refl _ s)⟩
  | .timeMarkSend => ⟨_, rfl, keeps_effTimeMarkSend (.refl _ s)⟩
  | .zoneOffsetReport => ⟨_, rfl, keeps_effZoneOffsetReport (.refl _ s)⟩
  | .subscribeSend => ⟨_, rfl, keeps_effSubscribeSend (.refl _ s)⟩
  | .publicationSend => ⟨_, rfl, keeps_effPublicationSend (.refl _ s)⟩
  | .catalogueSend => ⟨_, rfl, keeps_publishCat (.refl _ s)⟩
  | .placementRecompute => ⟨_, rfl, keeps_effPlacementRecompute (.refl _ s)⟩
  | .refusalWithdraw => ⟨_, rfl, keeps_effRefusalWithdraw (.refl _ s)⟩
  | .trendSend => ⟨_, rfl, keeps_effTrendSend (.refl _ s)⟩
  | .ownSeized => ⟨_, rfl, keeps_effOwnSeized (.refl _ s)⟩
  | .pairBeatSend => ⟨_, rfl, keeps_effPairBeatSend (.refl _ s)⟩
  | .healthWordUpdate => ⟨_, rfl, keeps_effHealthWordUpdate (.refl _ s)⟩
  | .standbyFaulted => ⟨_, rfl, keeps_effStandbyFaulted (.refl _ s)⟩
  | .probeTimeout => ⟨_, rfl, keeps_effProbeTimeout (.refl _ s)⟩
  | .grantTimeout => ⟨_, rfl, keeps_effGrantTimeout (.refl _ s)⟩
  | .handoverComplete => ⟨_, rfl, keeps_effHandoverComplete (.refl _ s)⟩
  | .handoverOutEnd => ⟨_, rfl, keeps_effHandoverOutEnd (.refl _ s)⟩
  | .checkpointSend => ⟨_, rfl, keeps_effCheckpointSend (.refl _ s)⟩
  | .revertRequest => ⟨_, rfl, keeps_effRevertRequest (.refl _ s)⟩
  | .timeFracRead => ⟨_, rfl, keeps_effTimeFracRead (.refl _ s)⟩
  | .timeSecHiRead => ⟨_, rfl, keeps_effTimeSecHiRead (.refl _ s)⟩
  | .fabricTimeAdopt => ⟨_, rfl, keeps_effFabricTimeAdopt (.refl _ s)⟩
  | .ftDiffUpdate => ⟨_, rfl, keeps_effFtDiffUpdate (.refl _ s)⟩
  | .displayFrameBoundary => ⟨_, rfl, keeps_effDisplayFrameBoundary (.refl _ s)⟩
  | .panelTest => ⟨_, rfl, keeps_effPanelTest (.refl _ s)⟩
  | .pinEntry => ⟨_, rfl, keeps_effPinEntry (.refl _ s)⟩
  | .pinLockoutEnd => ⟨_, rfl, keeps_dispMod rfl (.refl _ s)⟩
  | .imageCheck => ⟨_, rfl, keeps_effImageCheck (.refl _ s)⟩
  | .railsSleep => ⟨_, rfl, keeps_effRailsSleep (.refl _ s)⟩
  | .railFault => ⟨_, rfl, keeps_effRailFault (.refl _ s)⟩
  | .railRetry => ⟨_, rfl, keeps_effRailRetry (.refl _ s)⟩
  | .recorderTakeEvent => ⟨_, rfl, keeps_effRecorderTakeEvent (.refl _ s)⟩
  | .logIndexRebuild => ⟨_, rfl, keeps_effLogIndexRebuild (.refl _ s)⟩
  | .logWindowLoaded => ⟨_, rfl, keeps_effLogWindowLoaded (.refl _ s)⟩
  | .nonceExpiry => ⟨_, rfl, keeps_effNonceExpiry (.refl _ s)⟩
  | .updVerifyDone => ⟨_, rfl, keeps_effUpdVerifyDone (.refl _ s)⟩
  | .updSessionTimeout => ⟨_, rfl, keeps_effUpdSessionTimeout (.refl _ s)⟩
  | .trialConfirm => ⟨_, rfl, keeps_effTrialConfirm (.refl _ s)⟩
  | .crystalRestart => ⟨_, rfl, keeps_effCrystalRestart (.refl _ s)⟩
  | .busMonitoringExit => ⟨_, rfl, keeps_effBusMonitoringExit (.refl _ s)⟩
  | .selectHeld => ⟨_, rfl, keeps_effSelectHeld (.refl _ s)⟩
  | .handoverReqSend => ⟨_, rfl, keeps_effHandoverReqSend (.refl _ s)⟩
  | .icmpEcho => ⟨_, rfl, keeps_effIcmpEcho (.refl _ s)⟩

/-- What every step keeps: the bounds, the serial number and the hardware issue, and every slot of the log that holds a record. -/
def StepKeeps (s t : State) : Prop :=
  (Bounded s → Bounded t) ∧ t.serial = s.serial ∧ t.hwIssue = s.hwIssue ∧
    ∀ k, (tabLook s.rcd.slots k).isSome = true → (tabLook t.rcd.slots k).isSome = true

theorem bounded_of_keeps {b : Bool} {s t : State} (h : Keeps b s t) : Bounded s → Bounded t :=
  fun ⟨hq, hc, hw, hp, hk⟩ => ⟨h.queue hq, h.cmds hc, h.windows hw, h.pend hp, h.kept hk⟩

theorem stepKeeps_of_keeps {b : Bool} {s t : State} (h : Keeps b s t) : StepKeeps s t :=
  ⟨bounded_of_keeps h, h.serial, h.hwIssue, h.slots⟩

theorem StepKeeps.trans {s t u : State} (h : StepKeeps s t) (g : StepKeeps t u) : StepKeeps s u :=
  ⟨fun x => g.1 (h.1 x), g.2.1.trans h.2.1, g.2.2.1.trans h.2.2.1, fun k x => g.2.2.2 k (h.2.2.2 k x)⟩

/-- The outcome of a step: a next state with what every step keeps. -/
def Steps (s : State) (o : Out) : Prop := ∃ t, o = .next t ∧ StepKeeps s t

theorem exec_steps (c : Instr) (s : State) : Steps s (exec c s) :=
  let ⟨t, e, h⟩ := exec_completes s c
  ⟨t, e, stepKeeps_of_keeps h⟩

theorem keeps_rxNext {s t : State} {x : RxFrame} (e : rxNext s = some (x, t)) : Keeps true s t := by
  obtain ⟨⟨q, k⟩, -, hx⟩ := List.exists_of_findSome?_eq_some e
  dsimp only at hx
  split at hx
  · cases hx; exact keeps_linkMod (.refl _ s) _ _
  · cases hx

/-- A frame out of its receive queue: the mark of its wait is none of what a step keeps. -/
theorem takeStep_steps (x : RxFrame) (s : State) : Steps s (takeStep x s) := by
  obtain ⟨t, e, h⟩ := exec_steps x.cmd { s with taking := some (s.clock - x.at_) }
  unfold takeStep
  rw [e]
  exact ⟨_, rfl, h⟩

theorem svcStep_steps (c : Instr) (s : State) : Steps s (svcStep c s) := by
  obtain ⟨t, e, h⟩ := exec_steps c s
  unfold svcStep
  rw [e]
  exact ⟨_, rfl, h⟩

theorem idle_stepKeeps (s : State) : StepKeeps s (idle s) := by
  unfold idle
  split
  · exact stepKeeps_of_keeps (keeps_nodeReset (.refl true s) 9 0)
  · exact ⟨id, rfl, rfl, fun _ h => h⟩

theorem step_steps (s : State) : Steps s (step s) := by
  unfold step
  split
  next c r _ => exact exec_steps c { s with pending := r }
  · split
    next c r _ => exact exec_steps c { s with selfQ := r }
    · split
      next x t e =>
        obtain ⟨u, eu, h⟩ := takeStep_steps x t
        exact ⟨u, eu, (stepKeeps_of_keeps (keeps_rxNext e)).trans h⟩
      · unfold svcNext
        cases s.svc.queue with
        | nil => exact ⟨_, rfl, idle_stepKeeps s⟩
        | cons c r => exact svcStep_steps c { s with svc := { s.svc with queue := r, taking := true } }

/-- Settles O60: each arm of `exec` by the lemma of its operation, each branch of `step` by the command it runs. -/
theorem everyCommandCompletesWithinBounds : Obligations.EveryCommandCompletesWithinBounds := by
  refine ⟨fun c s => ?_, step_steps⟩
  obtain ⟨t, e, h⟩ := exec_completes s c
  refine ⟨t, e, h.pending, h.clock, h.serial, h.hwIssue, bounded_of_keeps h, h.slots, fun hk => h.keys ?_⟩
  cases c with
  | keyInstall q k => exact absurd rfl (hk q k).1
  | keyRemove q k => exact absurd rfl (hk q k).2
  | _ => rfl

/-- Settles O59: every queue and list of the state after reset is empty. -/
theorem resetIsWithinBounds : Obligations.ResetIsWithinBounds := by
  refine ⟨?_, ?_, ?_, ?_, ?_⟩ <;> exact Nat.zero_le _

end Sys2Proof.Proofs

/-! O3, O4, O5, O13, O15 (R16, R20, R26, R27, R29, R30, R51, R54, R67 to R76, R85, R321): resets of the node and their causes, the ends of
a Drydown, the restart, the watchdog, the counts of a second. -/
namespace Sys2Proof.Proofs

open Sys2Proof.Machine Sys2Proof.Laws

/-! The freeze of the outputs on the way into a reset. -/

/-- What a reset goes by and hands on: the phase, the supervisor, the save store, the log and the queues. -/
def resetBasis (s : State) := (s.sys.phase, s.clock, s.pending, s.sup, s.store, s.rcd)

theorem resetBasis_eq {s t : State} : resetBasis t = resetBasis s ↔ t.sys.phase = s.sys.phase ∧ t.clock = s.clock ∧ t.pending = s.pending ∧
    t.sup = s.sup ∧ t.store = s.store ∧ t.rcd = s.rcd := by
  simp only [resetBasis, Prod.mk.injEq]

/-- A vote rewrites the odd copy and counts it, or notes the failure (R50, R51). -/
@[simp] theorem resetBasis_voteUse (a base : Nat) (s : State) : resetBasis (voteUse a base s) = resetBasis s := by
  unfold voteUse
  dsimp only
  split
  · rfl
  · split
    · rfl
    · split <;> rfl

@[simp] theorem resetBasis_doMod (k : Fin 16) (f : DoSt → DoSt) (s : State) : resetBasis (doMod k f s) = resetBasis s := rfl

@[simp] theorem resetBasis_fixFreeze (ago : Nat) (k : Fin 16) (s : State) : resetBasis (fixFreeze ago k s) = resetBasis s := by
  unfold fixFreeze
  split
  · rw [resetBasis_doMod]
    unfold whenS
    split
    · exact resetBasis_voteUse _ _ s
    · rfl
  · rfl

theorem resetBasis_freezeAll (s : State) : resetBasis (freezeAll s) = resetBasis s := eachS_proj resetBasis _ _ s (resetBasis_fixFreeze 0)

/-! A reset of the node. -/

/-- Out of Drydown and with the islands released, a reset is that of Table 2.11, and the log and its index outlast it. -/
theorem nodeReset_of_released (cause wd_ : BitVec 8) {s : State} (h : Released s) : ResetWith cause wd_ s (nodeReset cause wd_ s) ∧
    (nodeReset cause wd_ s).rcd.slots = s.rcd.slots ∧ (nodeReset cause wd_ s).rcd.index = s.rcd.index := by
  obtain ⟨hheld, hdry⟩ := h
  obtain ⟨hphase, hclock, hpending, hsup, hstore, hrcd⟩ := resetBasis_eq.1 (resetBasis_freezeAll s)
  unfold nodeReset
  rw [if_neg hheld]
  generalize freezeAll s = u at hphase hclock hpending hsup hstore hrcd ⊢
  extract_lets frozen dry _ noted caused
  have hdry' : ¬dry := fun e => hdry (hphase.symm.trans e)
  have hnoted : noted = { u with sup := { u.sup with prior := .none } } := if_neg hdry'
  rw [if_neg hdry']
  have hc : caused.clock = s.clock := by rw [show caused.clock = noted.clock from rfl, hnoted]; exact hclock
  have hr : caused.rcd = s.rcd := by rw [show caused.rcd = noted.rcd from rfl, hnoted]; exact hrcd
  have hk : caused.sup.evqKept = s.sup.evqKept := by
    rw [show caused.sup = noted.sup from rfl, hnoted]; exact congrArg (·.evqKept) hsup
  refine ⟨⟨rfl, rfl, rfl, congrArg (· + 1000000) hc, rfl, rfl, rfl, ?_, ?_, hc, ?_⟩, congrArg (·.slots) hr, congrArg (·.index) hr⟩
  · show caused.sup.evqKept + caused.rcd.queue.length = _
    rw [hk, hr]
  · show noted.store = _
    rw [hnoted]; exact hstore
  · show noted.pending = _
    rw [hnoted]; exact hpending

theorem nodeReset_resetWith (cause wd_ : BitVec 8) {s : State} (h : Released s) : ResetWith cause wd_ s (nodeReset cause wd_ s) :=
  (nodeReset_of_released cause wd_ h).1

/-! A record straight into the log. -/

/-- What the writing of a record leaves as it was: all but the log, its index, the counters and the latched events. -/
def recordBasis (s : State) := (s.sys, s.clock, s.pending, s.sup, s.store, s.rcd.queue, s.rcd.lostSince, s.rcd.startDue)

theorem recordBasis_storeAt (k : Nat) (r : LogRec) (o : Option LogRec) (s : State) : recordBasis (storeAt k r o s) = recordBasis s := by
  simp [recordBasis, storeAt, rcdMod]

theorem recordBasis_writeRecord (e : Event) (s : State) : recordBasis (writeRecord e s) = recordBasis s := by
  have hb : ∀ a u, recordBasis (bump a u) = recordBasis u := fun _ _ => rfl
  have hl : ∀ a n u, recordBasis (latch a n u) = recordBasis u := fun _ _ _ => rfl
  unfold writeRecord
  extract_lets r x first t
  have ht : recordBasis t = recordBasis s := rfl
  split
  · rw [recordBasis_storeAt, ht]
  · split
    · rw [hl, hb, recordBasis_storeAt, ht]
    · rw [hl, hb, ht]

theorem writeRecord_frame (e : Event) (s : State) : (writeRecord e s).sys = s.sys ∧ (writeRecord e s).clock = s.clock ∧
    (writeRecord e s).pending = s.pending ∧ (writeRecord e s).sup = s.sup ∧ (writeRecord e s).store = s.store ∧
    (writeRecord e s).rcd.queue = s.rcd.queue ∧ (writeRecord e s).rcd.lostSince = s.rcd.lostSince ∧
    (writeRecord e s).rcd.startDue = s.rcd.startDue := by
  simpa only [recordBasis, Prod.mk.injEq] using recordBasis_writeRecord e s

theorem released_writeRecord (e : Event) {s : State} (h : Released s) : Released (writeRecord e s) := by
  unfold Released
  rw [(writeRecord_frame e s).1]; exact h

/-- A reset after a record of its own is the reset of the state before the record. -/
theorem resetWith_after_record (cause wd_ : BitVec 8) (e : Event) {s : State} (h : Released s) :
    ResetWith cause wd_ s (nodeReset cause wd_ (writeRecord e s)) := by
  have hr := nodeReset_resetWith cause wd_ (released_writeRecord e h)
  obtain ⟨-, hclock, hpending, hsup, hstore, hqueue, -, -⟩ := writeRecord_frame e s
  unfold ResetWith at hr ⊢
  rwa [hclock, hpending, hsup, hstore, hqueue] at hr

/-- Settles O3: each failure is a reset with its cause, the last two after their record. -/
theorem resetsTakeTheirCause : Obligations.ResetsTakeTheirCause := by
  intro s h
  refine ⟨⟨_, rfl, nodeReset_resetWith 4 0 h⟩, fun w a ha => ⟨_, rfl, ?_⟩, fun i ht hs => ⟨_, rfl, ?_⟩, fun ch ha => ⟨_, rfl, ?_⟩,
    fun he => ⟨_, rfl, ?_⟩, fun hv => ⟨_, rfl, ?_⟩⟩
  · rw [effPartitionViolation, if_neg (by simp [ha])]
    exact nodeReset_resetWith 4 0 h
  · unfold effClockFailure
    split
    · exact absurd rfl ht
    · exact absurd rfl hs
    · exact nodeReset_resetWith 5 0 h
  · rw [effWatchdogExpiry, if_pos ha]
    exact nodeReset_resetWith 3 (wdCode ch) h
  · obtain ⟨w, hw⟩ := Option.isSome_iff_exists.1 he
    simp only [effEccUncorrReset, hw]
    exact resetWith_after_record 6 0 _ h
  · obtain ⟨f, hf⟩ := Option.isSome_iff_exists.1 hv
    simp only [effVoteFailReset, hf]
    exact resetWith_after_record 7 0 _ h

/-! The words of a record (Table 16.1). -/

theorem recWords_length (s : State) (e : Event) : (recWords s e).length = 32 := by simp [recWords, recBody]

theorem bit_div_64 (b : Bool) {n : Nat} (h : n < 6) : (bit b n).toNat / 64 = 0 := by
  unfold bit
  split
  · rw [BitVec.toNat_ofNat]
    exact Nat.div_eq_of_lt (Nat.lt_of_le_of_lt (Nat.mod_le _ _) (Nat.pow_lt_pow_right (by omega) h))
  · rfl

/-- Bits 6 and 7 of the third word are the severity, whatever the power cycles above and the flags below. -/
theorem recSev_recWords (s : State) (e : Event) : recSev { words := recWords s e } = e.sev.toNat := by
  have hp := s.store.powerCycles.isLt
  have hs := e.sev.isLt
  show ((wd (s.store.powerCycles.toNat * 2 ^ 8 + e.sev.toNat * 2 ^ 6) ||| bit e.synced 5 |||
    bit (s.clock - e.queuedAt > 1000000) 4).toNat) / 2 ^ 6 % 2 ^ 2 = e.sev.toNat
  rw [BitVec.toNat_or, BitVec.toNat_or, Nat.or_div_two_pow, Nat.or_div_two_pow, bit_div_64 _ (by decide), bit_div_64 _ (by decide),
    Nat.or_zero, Nat.or_zero, wd, BitVec.toNat_ofNat]
  omega

/-! The place of a record in a log with room (R396, R400). -/

@[simp] theorem indexCount_next (sev : Nat) (f : Nat → Nat) (x : LogIndex) : (indexCount sev f x).next = x.next := by
  unfold indexCount; (repeat' split) <;> rfl
@[simp] theorem indexCount_fill (sev : Nat) (f : Nat → Nat) (x : LogIndex) : (indexCount sev f x).fill = x.fill := by
  unfold indexCount; (repeat' split) <;> rfl
@[simp] theorem indexCount_closed (sev : Nat) (f : Nat → Nat) (x : LogIndex) : (indexCount sev f x).closed = x.closed := by
  unfold indexCount; (repeat' split) <;> rfl

/-- With room, the record is in the slot after the last one filled. -/
theorem writeRecord_slots_of_room (e : Event) {s : State} (h : s.rcd.index.fill < 16384) :
    (writeRecord e s).rcd.slots = tabPut s.rcd.slots s.rcd.index.fill { words := recWords s e } := by
  unfold writeRecord
  dsimp only
  rw [if_pos h]
  rfl

theorem writeRecord_index_of_room (e : Event) {s : State} (h : s.rcd.index.fill < 16384) :
    (writeRecord e s).rcd.index.next = s.rcd.index.next + 1 ∧ (writeRecord e s).rcd.index.fill = s.rcd.index.fill + 1 ∧
      (writeRecord e s).rcd.index.closed = false ∧ (e.sev = 3 → (writeRecord e s).rcd.index.sev3 = s.rcd.index.sev3 + 1) := by
  unfold writeRecord
  dsimp only
  rw [if_pos h]
  refine ⟨?_, ?_, ?_, fun h3 => ?_⟩
  · simp [storeAt, rcdMod]
  · simp [storeAt, rcdMod]
  · simp [storeAt, rcdMod]
  · simp [storeAt, rcdMod, recSev_recWords, h3, indexCount]

/-- A record of severity 3 straight into a log with room, and the reset after it: the record is in the log. -/
theorem record_outlasts_reset (cause wd_ : BitVec 8) (e : Event) (h3 : e.sev = 3) {s : State} (h : Released s)
    (hroom : s.rcd.index.fill < 16384) :
    let t := nodeReset cause wd_ (writeRecord e s)
    t.rcd.index.next = s.rcd.index.next + 1 ∧ t.rcd.index.fill = s.rcd.index.fill + 1 ∧ t.rcd.index.sev3 = s.rcd.index.sev3 + 1 ∧
      ∃ r, tabLook t.rcd.slots s.rcd.index.fill = some r ∧ recSeq r = s.rcd.index.next ∧ recSev r = 3 ∧ r.bad = false := by
  dsimp only
  obtain ⟨-, hslots, hindex⟩ := nodeReset_of_released cause wd_ (released_writeRecord e h)
  obtain ⟨hnext, hfill, -, hsev⟩ := writeRecord_index_of_room e hroom
  rw [hslots, hindex]
  refine ⟨hnext, hfill, hsev h3, { words := recWords s e }, ?_, rfl, by rw [recSev_recWords, h3]; rfl, rfl⟩
  rw [writeRecord_slots_of_room e hroom, tabLook_put, if_pos rfl]

/-- Settles O4: both resets write their record first, and the log outlasts them. -/
theorem failureRecordGoesStraightIntoLog : Obligations.FailureRecordGoesStraightIntoLog := by
  rintro c s h hroom (⟨rfl, he⟩ | ⟨rfl, hv⟩)
  · obtain ⟨w, hw⟩ := Option.isSome_iff_exists.1 he
    refine ⟨_, rfl, ?_⟩
    simp only [effEccUncorrReset, hw]
    exact record_outlasts_reset 6 0 _ rfl h hroom
  · obtain ⟨f, hf⟩ := Option.isSome_iff_exists.1 hv
    refine ⟨_, rfl, ?_⟩
    simp only [effVoteFailReset, hf]
    exact record_outlasts_reset 7 0 _ rfl h hroom

/-- Settles O5: a firmware channel tests the value that comes, the engine's does not. -/
theorem watchdogServiceRestartsChannel : Obligations.WatchdogServiceRestartsChannel := by
  intro s v
  refine ⟨⟨_, rfl, ?_⟩, ⟨_, rfl, ?_⟩, ⟨_, rfl, ?_⟩, ⟨_, rfl, ?_⟩⟩ <;>
    simp [effWatchdogService, wdMod, sysMod]

/-! The ends of a Drydown (R67, R68, R72) and the restart (R75). -/

/-- No counter of a reset island keeps its value but those of the time island (R79). -/
theorem ctrGet_holdReset (s : State) {a : Nat} (h : timeCounter a = false) : ctrGet (holdReset s) a = 0 := by
  show tabGet 0 (s.ctr.filter (fun p => timeCounter p.1)) a = 0
  rw [tabGet, tabLook_filter, if_neg (by simp [h])]
  rfl

theorem abortSlot_frame (drop : Bool) (k : Fin 8) (s : State) : abortSlot drop k s = { s with disp := (abortSlot drop k s).disp } := by
  unfold abortSlot
  split <;> rfl

theorem abortAll_frame (s : State) : resetBasis (eachS (List.finRange 8) (abortSlot true) s) = resetBasis s :=
  eachS_proj resetBasis _ _ s (fun k t => by rw [abortSlot_frame]; rfl)

theorem restartCause_eq (s : State) :
    restartCause s = if s.sup.prior = .drydown then 2 else match s.sup.ddCause with | some c => c | none => 1 := by
  unfold restartCause
  cases s.sup.prior <;> cases s.sup.ddCause <;> rfl

theorem drydownComplete_ends {s : State} (h : s.sys.phase = .drydown) (bus : BitVec 12) (ms : BitVec 10) :
    Does (.drydownComplete bus ms) s (fun t => t.sys.phase = .held ∧ t.sup.prior = .drydown ∧
      t.store = { s.store with ddLast := ddWord 1 s.sup.ddPanel bus ms } ∧ ctrGet t aSUP_DD_COUNT = 1 ∧ t.pair.ownHeld = false) := by
  refine ⟨_, rfl, ?_⟩
  rw [effDrydownComplete, if_pos h]
  refine ⟨rfl, rfl, rfl, ?_, rfl⟩
  rw [bump, ctrGet_bumpBy_same, ctrGet_holdReset _ (by decide)]
  decide

theorem drydownAbandon_ends {s : State} (h : s.sys.phase = .drydown) (ms : BitVec 10) :
    Does (.drydownAbandon ms) s (fun t => t.sys.phase = .held ∧ t.sup.prior = .abandoned ∧ t.sup.ddCause = none ∧
      t.sup.busEnd = 210 ∧ t.sup.ddMs = ms ∧ t.store = s.store) := by
  refine ⟨_, rfl, ?_⟩
  rw [effDrydownAbandon, if_pos h]
  exact ⟨rfl, rfl, rfl, rfl, rfl, rfl⟩

theorem drydownGuard_stays {s : State} (h : s.sys.phase = .drydown) (bus : BitVec 16) :
    Does (.drydownGuard bus) s (fun t => t.sys.phase = .drydown ∧ t.sup.busV = bus ∧ t.store = s.store) := by
  refine ⟨_, rfl, ?_⟩
  rw [effDrydownGuard, if_pos h]
  obtain ⟨hp, -, -, hsup, hst, -⟩ := resetBasis_eq.1 (abortAll_frame (supMod (fun x => { x with busV := bus }) s))
  exact ⟨hp.trans h, by rw [hsup]; rfl, hst⟩

theorem restartRelease_releases {s : State} (h : s.sys.phase = .held) :
    Does .restartRelease s (fun t => t.sys.phase = .released ∧ t.sys.releasedAt = s.clock ∧ t.sup.riding = false ∧
      t.sys.resetCause = (if s.sup.prior = .drydown then 2 else match s.sup.ddCause with | some c => c | none => 1) ∧
      t = { s with sys := t.sys, sup := t.sup }) := by
  refine ⟨_, rfl, ?_⟩
  rw [effRestartRelease, if_pos h]
  exact ⟨rfl, rfl, rfl, restartCause_eq s, rfl⟩

theorem supplyCollapse_holds {s : State} (h : ¬(s.sys.phase = .held ∧ s.sup.prior = .drydown)) :
    Does .supplyCollapse s (fun t => t.sys.phase = .held ∧
      t.sup.prior = (if s.sys.phase = .drydown ∨ s.sup.prior = .abandoned then .abandoned else .powerOn) ∧ t.sup.evqKept = 0 ∧
      t.sys.starts = 0 ∧ t.pair.ownHeld = false ∧ t.store = s.store) := by
  obtain ⟨-, -, -, hsup, hst, -⟩ := resetBasis_eq.1 (resetBasis_freezeAll s)
  have hgo : ¬(decide (s.sys.phase = .held) && decide (s.sup.prior = .drydown)) = true := by simpa using h
  refine ⟨_, rfl, ?_⟩
  unfold effSupplyCollapse
  rw [if_neg hgo]
  generalize freezeAll s = u at hsup hst ⊢
  extract_lets inDry panel held cleared
  have hprior : cleared.sup.prior = s.sup.prior := congrArg (·.prior) hsup
  refine ⟨rfl, ?_, ?_, rfl, rfl, hst⟩
  · simp only [supMod, hprior, inDry, Bool.or_eq_true, decide_eq_true_eq]
    split <;> rfl
  · simp only [supMod]
    split <;> rfl

/-- Settles O13. -/
theorem drydownEndsAndRestart : Obligations.DrydownEndsAndRestart :=
  fun _ => ⟨fun h => ⟨drydownComplete_ends h, drydownAbandon_ends h, drydownGuard_stays h⟩, restartRelease_releases, supplyCollapse_holds⟩

/-! The checkpoint of each second (R29, R70). -/

/-- A checkpoint goes to the slot that does not hold the latest, and the other slot stands. -/
theorem putCkpt_slots (c : StoreCkpt) (s : State) :
    putCkpt c s = { s with store := { s.store with ckptA := (putCkpt c s).store.ckptA, ckptB := (putCkpt c s).store.ckptB } } ∧
      ((latestIsB s = false ∧ s.store.ckptA.isSome ∧ (putCkpt c s).store.ckptB = some c ∧ (putCkpt c s).store.ckptA = s.store.ckptA) ∨
        (¬(latestIsB s = false ∧ s.store.ckptA.isSome) ∧ (putCkpt c s).store.ckptA = some c ∧ (putCkpt c s).store.ckptB = s.store.ckptB)) := by
  unfold putCkpt
  by_cases h : latestIsB s = false ∧ s.store.ckptA.isSome
  · rw [if_pos (by simp [h])]
    exact ⟨rfl, .inl ⟨h.1, h.2, rfl, rfl⟩⟩
  · rw [if_neg (by simpa using h)]
    exact ⟨rfl, .inr ⟨h, rfl, rfl⟩⟩

/-- Settles O15. -/
theorem secondsCheckpointsAndFlaconInserted : Obligations.SecondsCheckpointsAndFlaconInserted := by
  refine fun s => ⟨⟨_, rfl, rfl⟩, fun hrun hpause => ⟨_, rfl, ?_⟩, fun j l => ⟨_, rfl, rfl⟩⟩
  rw [effCheckpointSecond, if_pos (by simp [isRunning, hrun, hpause])]
  obtain ⟨hframe, hslot⟩ := putCkpt_slots (ckptNow s) s
  exact ⟨hframe, ckptNow s, rfl, hslot⟩

end Sys2Proof.Proofs

/-! O55 (R20, R395, R396, R400 to R404): the recorder. A record's words, its place in the log, the rebuild of the index and the window. -/
namespace Sys2Proof.Proofs

open Sys2Proof.Machine Sys2Proof.Laws

/-! A record's words (Table 16.1). -/

/-- The record of an event under a number: 32 words with number, severity, kind and source, and the CRC of the others at the end. -/
def IsRecord (n : Word) (e : Event) (r : LogRec) : Prop :=
  r.words.length = 32 ∧ recSeq r = n ∧ recSev r = e.sev.toNat ∧ fld (r.words.getD 3 0) 0 8 = e.kind.toNat ∧
    r.words.getD 4 0 = e.source ∧ r.bad = false ∧ r.words.getD 31 0 = crc32 (wordsBytes (r.words.take 31))

theorem recBody_length (s : State) (e : Event) : (recBody s e).length = 31 := by simp [recBody]

/-- The low byte of the fourth word is the kind, whatever the cause and the captures above it. -/
theorem recKind_recWords (s : State) (e : Event) : fld ((recWords s e).getD 3 0) 0 8 = e.kind.toNat := by
  have hk := e.kind.isLt
  show (wd (e.kind.toNat + e.cause.toNat * 2 ^ 8 + maskOf (captures s e) * 2 ^ 16)).toNat / 2 ^ 0 % 2 ^ 8 = e.kind.toNat
  rw [wd, BitVec.toNat_ofNat]
  omega

theorem isRecord_recWords (s : State) (e : Event) : IsRecord s.rcd.index.next e { words := recWords s e } := by
  refine ⟨recWords_length s e, rfl, recSev_recWords s e, recKind_recWords s e, rfl, rfl, ?_⟩
  have hl := recBody_length s e
  simp only [recWords]
  rw [List.getD_eq_getElem?_getD, List.getElem?_append_right (by omega), List.take_append_of_le_length (by omega),
    List.take_of_length_le (by omega), hl]
  rfl

/-! Which record a full log gives up (R400). -/

theorem recSev_le_three (r : LogRec) : recSev r ≤ 3 := Nat.le_of_lt_succ (Nat.mod_lt _ (by decide))

theorem oldestOf_cons_mem (x : LogIndex) (l : List (Nat × LogRec)) : ∀ a, l.foldl (earlier x) a ∈ a :: l := by
  induction l with
  | nil => intro a; simp
  | cons b l ih =>
    intro a
    have hm := ih (earlier x a b)
    rw [List.foldl_cons]
    rcases List.mem_cons.1 hm with e | e
    · rw [e]; unfold earlier; split <;> simp
    · simp [e]

/-- The oldest of some records is one of them. -/
theorem oldestOf_mem (x : LogIndex) {l : List (Nat × LogRec)} (h : l ≠ []) : ∃ p ∈ l, oldestOf x l = some p := by
  cases l with
  | nil => exact absurd rfl h
  | cons a l => exact ⟨_, oldestOf_cons_mem x l a, rfl⟩

/-- The lowest severity stored, at most 3. -/
def lowestSev (l : List (Nat × LogRec)) (n : Nat) : Nat := l.foldl (fun n p => min n (recSev p.2)) n

theorem lowestSev_le (l : List (Nat × LogRec)) : ∀ n, lowestSev l n ≤ n ∧ ∀ p ∈ l, lowestSev l n ≤ recSev p.2 := by
  induction l with
  | nil => intro n; exact ⟨Nat.le_refl n, by simp⟩
  | cons a l ih =>
    intro n
    obtain ⟨hn, hl⟩ := ih (min n (recSev a.2))
    refine ⟨Nat.le_trans hn (Nat.min_le_left _ _), fun p hp => ?_⟩
    rcases List.mem_cons.1 hp with rfl | hp
    · exact Nat.le_trans hn (Nat.min_le_right _ _)
    · exact hl p hp

theorem lowestSev_attained (l : List (Nat × LogRec)) : ∀ n, lowestSev l n = n ∨ ∃ p ∈ l, recSev p.2 = lowestSev l n := by
  induction l with
  | nil => intro n; exact .inl rfl
  | cons a l ih =>
    intro n
    rcases ih (min n (recSev a.2)) with e | ⟨p, hp, e⟩
    · rcases (show min n (recSev a.2) = n ∨ min n (recSev a.2) = recSev a.2 by omega) with m | m
      · exact .inl (e.trans m)
      · exact .inr ⟨a, by simp, (e.trans m).symm⟩
    · exact .inr ⟨p, by simp [hp], e⟩

theorem victim_of_none_bad (x : LogIndex) {l : List (Nat × LogRec)} (sev : Nat) (hgood : ∀ p ∈ l, p.2.bad = false) :
    victim x l sev =
      if lowestSev l 3 ≤ sev then oldestOf x (l.filter (fun p => recSev p.2 = lowestSev l 3)) else none := by
  have hnil : l.filter (fun p => p.2.bad) = [] := List.filter_eq_nil_iff.2 (fun p hp => by simp [hgood p hp])
  unfold victim
  dsimp only
  rw [hnil]
  rfl

/-- With no corrupt record and a severity not above its own, a record takes the place of one of the lowest severity. -/
theorem victim_lowest (x : LogIndex) {l : List (Nat × LogRec)} {sev : Nat} (hgood : ∀ p ∈ l, p.2.bad = false)
    (hsome : ∃ p ∈ l, recSev p.2 ≤ sev) : ∃ p ∈ l, victim x l sev = some p ∧ ∀ q ∈ l, recSev p.2 ≤ recSev q.2 := by
  obtain ⟨p0, hp0, hle⟩ := hsome
  obtain ⟨h3, hlow⟩ := lowestSev_le l 3
  have hatt : ∃ p ∈ l, recSev p.2 = lowestSev l 3 := by
    rcases lowestSev_attained l 3 with e | h
    · exact ⟨p0, hp0, Nat.le_antisymm (Nat.le_trans (recSev_le_three p0.2) (Nat.le_of_eq e.symm)) (hlow p0 hp0)⟩
    · exact h
  obtain ⟨q, hq, eq⟩ := hatt
  obtain ⟨p, hp, e⟩ := oldestOf_mem x (l := l.filter (fun p => recSev p.2 = lowestSev l 3))
    (List.ne_nil_of_mem (List.mem_filter.2 ⟨hq, by simpa using eq⟩))
  obtain ⟨hpl, hps⟩ := List.mem_filter.1 hp
  refine ⟨p, hpl, ?_, fun q hq => ?_⟩
  · rw [victim_of_none_bad x sev hgood, if_pos (Nat.le_trans (hlow p0 hp0) hle), e]
  · rw [of_decide_eq_true hps]; exact hlow q hq

/-- With every stored severity above its own, a record takes no place. -/
theorem victim_none (x : LogIndex) {l : List (Nat × LogRec)} {sev : Nat} (h : ∀ p ∈ l, p.2.bad = false ∧ sev < recSev p.2) :
    victim x l sev = none := by
  rw [victim_of_none_bad x sev (fun p hp => (h p hp).1)]
  split
  next hle =>
    have hnil : l.filter (fun p => decide (recSev p.2 = lowestSev l 3)) = [] :=
      List.filter_eq_nil_iff.2 (fun p hp => by have := (h p hp).2; simp; omega)
    rw [hnil]; rfl
  next => rfl

/-! The place of a record (R396, R400). -/

@[simp] theorem indexOut_next (r : LogRec) (x : LogIndex) : (indexOut r x).next = x.next := by unfold indexOut; split <;> simp
@[simp] theorem indexOut_fill (r : LogRec) (x : LogIndex) : (indexOut r x).fill = x.fill := by unfold indexOut; split <;> simp
@[simp] theorem indexOut_closed (r : LogRec) (x : LogIndex) : (indexOut r x).closed = x.closed := by unfold indexOut; split <;> simp

/-- The record's number is taken, and the log is open. -/
theorem writeRecord_numbers (e : Event) (s : State) :
    (writeRecord e s).rcd.index.next = s.rcd.index.next + 1 ∧ (writeRecord e s).rcd.index.closed = false := by
  unfold writeRecord
  extract_lets r x first t
  split
  · simp [storeAt, t, x, rcdMod]
  · split
    · simp [storeAt, t, x, rcdMod]
    · simp [t, x, rcdMod]

/-- The state in which a record is placed: its number is taken. -/
def numbered (s : State) : State :=
  rcdMod (fun c => { c with index := { s.rcd.index with next := s.rcd.index.next + 1, closed := false,
                                                        oldest := if s.rcd.index.fill = 0 then s.rcd.index.next else s.rcd.index.oldest } }) s

theorem writeRecord_of_room (e : Event) {s : State} (h : s.rcd.index.fill < 16384) :
    writeRecord e s = storeAt s.rcd.index.fill { words := recWords s e } none (numbered s) := if_pos h

theorem writeRecord_over (e : Event) {s : State} {v : Nat × LogRec} (h : 16384 ≤ s.rcd.index.fill)
    (hv : victim s.rcd.index s.rcd.slots e.sev.toNat = some v) : writeRecord e s =
      latch aLOG_EVENT 0 (bump aLOG_OVERWRITTEN (storeAt v.1 { words := recWords s e } (some v.2) (numbered s))) := by
  have hsev : recSev { words := recWords s e } = e.sev.toNat := recSev_recWords s e
  rw [← hsev] at hv
  unfold writeRecord
  extract_lets r x first t
  rw [if_neg (show ¬ s.rcd.index.fill < 16384 by omega), show victim x t.rcd.slots (recSev r) = _ from hv]
  rfl

theorem writeRecord_dropped (e : Event) {s : State} (h : 16384 ≤ s.rcd.index.fill)
    (hv : victim s.rcd.index s.rcd.slots e.sev.toNat = none) :
    writeRecord e s = latch aLOG_EVENT 1 (bump aLOG_DROPPED (numbered s)) := by
  have hsev : recSev { words := recWords s e } = e.sev.toNat := recSev_recWords s e
  rw [← hsev] at hv
  unfold writeRecord
  extract_lets r x first t
  rw [if_neg (show ¬ s.rcd.index.fill < 16384 by omega), show victim x t.rcd.slots (recSev r) = _ from hv]
  rfl

/-- A record stored in a slot: the slot holds it, the others stand, and it is counted as written. -/
theorem storeAt_slots (k : Nat) (r : LogRec) (o : Option LogRec) (s : State) :
    tabLook (storeAt k r o s).rcd.slots k = some r ∧ (∀ j, j ≠ k → tabLook (storeAt k r o s).rcd.slots j = tabLook s.rcd.slots j) ∧
      Counted aLOG_WRITTEN s (storeAt k r o s) :=
  ⟨(tabLook_put _ _ _ _).trans (if_pos rfl), fun _ hj => (tabLook_put _ _ _ _).trans (if_neg hj), Counted.congr (counted_bump _ _) rfl rfl⟩

theorem storeAt_over_fill (k : Nat) (r o : LogRec) (s : State) : (storeAt k r (some o) s).rcd.index.fill = s.rcd.index.fill := by
  simp [storeAt, rcdMod]

theorem ctrGet_storeAt_other (k : Nat) (r : LogRec) (o : Option LogRec) (s : State) {a : Nat} (h : a ≠ aLOG_WRITTEN) :
    ctrGet (storeAt k r o s) a = ctrGet s a := ctrGet_bump_other _ _ _ h

/-- A count of one register stands through that of another. -/
theorem counted_bump_of_other {a b : Nat} {s t : State} (h : Counted a s t) (hab : a ≠ b) : Counted a s (bump b t) := by
  unfold Counted at *
  rw [ctrGet_bump_other _ _ _ hab, h]

theorem counted_of_same {a : Nat} {s s' t : State} (h : Counted a s' t) (e : ctrGet s' a = ctrGet s a) : Counted a s t := by
  unfold Counted at *
  rwa [e] at h

/-- Where the record of an event stands afterwards: in the next slot, in the place of one of the lowest severity, or nowhere. -/
def Placed (s : State) (e : Event) (t : State) : Prop :=
  let x := s.rcd.index
  t.rcd.index.next = x.next + 1 ∧ t.rcd.index.closed = false ∧
    (x.fill < 16384 → Counted aLOG_WRITTEN s t ∧ t.rcd.index.fill = x.fill + 1 ∧
      (∃ r, tabLook t.rcd.slots x.fill = some r ∧ IsRecord x.next e r) ∧ ∀ j, j ≠ x.fill → tabLook t.rcd.slots j = tabLook s.rcd.slots j) ∧
    (16384 ≤ x.fill → (∀ p ∈ s.rcd.slots, p.2.bad = false) → (∃ p ∈ s.rcd.slots, recSev p.2 ≤ e.sev.toNat) →
      Counted aLOG_WRITTEN s t ∧ Counted aLOG_OVERWRITTEN s t ∧ Latched aLOG_EVENT 0 t ∧ t.rcd.index.fill = x.fill ∧
      ∃ p ∈ s.rcd.slots, (∀ q ∈ s.rcd.slots, recSev p.2 ≤ recSev q.2) ∧ (∃ r, tabLook t.rcd.slots p.1 = some r ∧ IsRecord x.next e r) ∧
        ∀ j, j ≠ p.1 → tabLook t.rcd.slots j = tabLook s.rcd.slots j) ∧
    (16384 ≤ x.fill → (∀ p ∈ s.rcd.slots, p.2.bad = false ∧ e.sev.toNat < recSev p.2) →
      Counted aLOG_DROPPED s t ∧ Latched aLOG_EVENT 1 t ∧ t.rcd.slots = s.rcd.slots)

theorem writeRecord_placed (e : Event) (s : State) : Placed s e (writeRecord e s) := by
  obtain ⟨hnext, hclosed⟩ := writeRecord_numbers e s
  refine ⟨hnext, hclosed, fun hroom => ?_, fun hfull hgood hsome => ?_, fun hfull habove => ?_⟩
  · obtain ⟨hslot, hothers, hcount⟩ := storeAt_slots s.rcd.index.fill { words := recWords s e } none (numbered s)
    obtain ⟨-, hfill, -, -⟩ := writeRecord_index_of_room e hroom
    refine ⟨?_, hfill, ⟨_, ?_, isRecord_recWords s e⟩, ?_⟩ <;> rw [writeRecord_of_room e hroom]
    · exact hcount
    · exact hslot
    · exact hothers
  · obtain ⟨v, hv, hvictim, hlow⟩ := victim_lowest s.rcd.index hgood hsome
    obtain ⟨hslot, hothers, hcount⟩ := storeAt_slots v.1 { words := recWords s e } (some v.2) (numbered s)
    have hfill := storeAt_over_fill v.1 { words := recWords s e } v.2 (numbered s)
    have hover := ctrGet_storeAt_other v.1 { words := recWords s e } (some v.2) (numbered s) (a := aLOG_OVERWRITTEN) (by decide)
    rw [writeRecord_over e hfull hvictim]
    generalize storeAt v.1 { words := recWords s e } (some v.2) (numbered s) = t at hslot hothers hcount hfill hover ⊢
    exact ⟨counted_bump_of_other hcount (by decide), counted_of_same (counted_bump t _) hover, latched_latch _ _ 0, hfill,
      v, hv, hlow, ⟨_, hslot, isRecord_recWords s e⟩, hothers⟩
  · rw [writeRecord_dropped e hfull (victim_none s.rcd.index habove)]
    exact ⟨Counted.congr (counted_bump _ _) rfl rfl, latched_latch _ _ 1, rfl⟩

/-! The recorder takes an event (R20, R395, R403). -/

theorem recorderTakeEvent_idle {s : State} (h : ¬(s.rcd.running = true ∧ s.rcd.rebuilding = false)) : effRecorderTakeEvent s = s := by
  unfold effRecorderTakeEvent
  extract_lets r
  have hc : (!r.running || r.rebuilding) = true := by
    cases hr : s.rcd.running <;> cases hb : s.rcd.rebuilding <;> simp_all
  rw [if_pos hc]

section
variable {s : State} (hfree : s.rcd.running = true ∧ s.rcd.rebuilding = false)
include hfree

theorem recorderTakeEvent_lost (h : 0 < s.rcd.lostSince) : effRecorderTakeEvent s =
    writeRecord (lostEvent s) { s with rcd := { s.rcd with lostSince := 0 }, sup := { s.sup with evqOwed := 0 } } := by
  unfold effRecorderTakeEvent
  extract_lets r
  rw [if_neg (by simp [r, hfree]), if_pos (show r.lostSince ≠ 0 from Nat.ne_of_gt h)]

theorem recorderTakeEvent_start (h : s.rcd.lostSince = 0) {e : Event} (he : s.rcd.startDue = some e) :
    effRecorderTakeEvent s = writeRecord e (rcdMod (fun c => { c with startDue := none }) s) := by
  unfold effRecorderTakeEvent
  extract_lets r
  rw [if_neg (by simp [r, hfree]), if_neg (show ¬ r.lostSince ≠ 0 from fun hne => hne h), show r.startDue = some e from he]

theorem recorderTakeEvent_queue (h : s.rcd.lostSince = 0) (hs : s.rcd.startDue = none) {e : Event} {q : List Event}
    (hq : s.rcd.queue = e :: q) : effRecorderTakeEvent s = writeRecord e (rcdMod (fun c => { c with queue := q }) s) := by
  unfold effRecorderTakeEvent
  extract_lets r
  rw [if_neg (by simp [r, hfree]), if_neg (show ¬ r.lostSince ≠ 0 from fun hne => hne h), show r.startDue = none from hs,
    show r.queue = e :: q from hq]

end

/-! The rebuild (R403). -/

/-- Every record of a list is good and of one of the four severities, or corrupt. -/
theorem severities_and_corrupt (l : List (Nat × LogRec)) :
    let n := fun k => ((l.filter (fun p => !p.2.bad)).filter (fun p => decide (recSev p.2 = k))).length
    n 0 + n 1 + n 2 + n 3 + (l.filter (fun p => p.2.bad)).length = l.length := by
  induction l with
  | nil => rfl
  | cons p l ih =>
    dsimp only at ih ⊢
    have hs := recSev_le_three p.2
    cases hb : p.2.bad with
    | true => simp [hb] at ih ⊢; omega
    | false =>
      have : recSev p.2 = 0 ∨ recSev p.2 = 1 ∨ recSev p.2 = 2 ∨ recSev p.2 = 3 := by omega
      rcases this with e | e | e | e <;> simp [hb, e] at ih ⊢ <;> omega

theorem logIndexRebuild_counts {s t : State} (h : s.rcd.rebuilding = true) (ht : effLogIndexRebuild s = t) :
    t.rcd.rebuilding = false ∧ Latched aLOG_EVENT 4 t ∧ t.rcd.index.fill = s.rcd.slots.length ∧
      t.rcd.slots = s.rcd.slots.map (fun p => (p.1, checkRec p.2)) ∧
      t.rcd.index.corrupt = (t.rcd.slots.filter (fun p => p.2.bad)).length ∧
      t.rcd.index.sev0 + t.rcd.index.sev1 + t.rcd.index.sev2 + t.rcd.index.sev3 + t.rcd.index.corrupt = t.rcd.index.fill ∧
      ((∃ p ∈ t.rcd.slots, p.2.bad = true) → Latched aLOG_EVENT 3 t) := by
  unfold effLogIndexRebuild at ht
  rw [if_neg (by simp [h])] at ht
  extract_lets l u at ht
  subst ht
  have hrcd : (latch aLOG_EVENT 4 (whenS (l.any (fun p => p.2.bad)) (latch aLOG_EVENT 3) u)).rcd = u.rcd := by simp
  rw [hrcd]
  refine ⟨rfl, latched_latch _ _ 4, List.length_map _, rfl, rfl, severities_and_corrupt l, fun ⟨p, hp, hb⟩ => ?_⟩
  have hany : l.any (fun p => p.2.bad) = true := List.any_eq_true.2 ⟨p, hp, hb⟩
  rw [whenS, if_pos hany]
  exact Latched.latch (latched_latch u aLOG_EVENT 3) _ _

/-! The window (R404): stored records in the order of their numbers. -/

section
variable {α : Type} (f : α → Nat)

theorem mem_insertBy (lt : α → α → Bool) (x y : α) (l : List α) : y ∈ insertBy lt x l ↔ y = x ∨ y ∈ l := by
  induction l with
  | nil => simp [insertBy]
  | cons z l ih =>
    unfold insertBy
    split
    · simp
    · rw [List.mem_cons, ih, List.mem_cons]; exact or_left_comm

theorem pairwise_insertBy (x : α) (l : List α) (h : l.Pairwise (fun a b => f a ≤ f b)) :
    (insertBy (fun a b => decide (f a < f b)) x l).Pairwise (fun a b => f a ≤ f b) := by
  induction l with
  | nil => simp [insertBy]
  | cons z l ih =>
    obtain ⟨hz, hl⟩ := List.pairwise_cons.1 h
    unfold insertBy
    split
    next hlt =>
      have hlt := of_decide_eq_true hlt
      refine List.pairwise_cons.2 ⟨fun y hy => ?_, h⟩
      rcases List.mem_cons.1 hy with rfl | hy
      · exact Nat.le_of_lt hlt
      · exact Nat.le_trans (Nat.le_of_lt hlt) (hz y hy)
    next hge =>
      have hge : f z ≤ f x := by simpa using hge
      refine List.pairwise_cons.2 ⟨fun y hy => ?_, ih hl⟩
      rcases (mem_insertBy _ _ _ _).1 hy with rfl | hy
      · exact hge
      · exact hz y hy

theorem foldl_insertBy (l : List α) : ∀ acc : List α, acc.Pairwise (fun a b => f a ≤ f b) →
    let r := l.foldl (fun a x => insertBy (fun a b => decide (f a < f b)) x a) acc
    r.Pairwise (fun a b => f a ≤ f b) ∧ ∀ y, y ∈ r ↔ y ∈ acc ∨ y ∈ l := by
  induction l with
  | nil => intro acc h; exact ⟨h, by simp⟩
  | cons x l ih =>
    intro acc h
    obtain ⟨hp, hm⟩ := ih _ (pairwise_insertBy f x acc h)
    refine ⟨hp, fun y => (hm y).trans ?_⟩
    rw [mem_insertBy, List.mem_cons]; exact or_assoc.trans or_left_comm

/-- Sorting by a number puts the same elements in its order. -/
theorem sortBy_spec (l : List α) :
    (sortBy (fun a b => decide (f a < f b)) l).Pairwise (fun a b => f a ≤ f b) ∧
      ∀ y, y ∈ sortBy (fun a b => decide (f a < f b)) l ↔ y ∈ l := by
  obtain ⟨hp, hm⟩ := foldl_insertBy f l [] List.Pairwise.nil
  exact ⟨hp, fun y => (hm y).trans (by simp)⟩

/-- The first element found in an ordered list is the least of those that answer. -/
theorem find_least {l : List α} (h : l.Pairwise (fun a b => f a ≤ f b)) {p : α → Bool} {x : α} (e : l.find? p = some x) :
    ∀ y ∈ l, p y = true → f x ≤ f y := by
  obtain ⟨-, as, bs, rfl, hno⟩ := List.find?_eq_some_iff_append.1 e
  intro y hy hpy
  rcases List.mem_append.1 hy with hy | hy
  · have := hno y hy; simp [hpy] at this
  · rcases List.mem_cons.1 hy with rfl | hy
    · exact Nat.le_refl _
    · exact (List.pairwise_cons.1 (List.pairwise_append.1 h).2.1).1 y hy

end

/-- The stored records from a number onward, and their order. -/
theorem recordsFrom_spec (s : State) (n : Word) :
    (recordsFrom s n).Pairwise (fun a b => recOrder s.rcd.index a ≤ recOrder s.rcd.index b) ∧
      ∀ r, r ∈ recordsFrom s n ↔ (∃ p ∈ s.rcd.slots, p.2 = r) ∧ (n - s.rcd.index.oldest).toNat ≤ recOrder s.rcd.index r := by
  obtain ⟨hp, hm⟩ := sortBy_spec (recOrder s.rcd.index)
    ((s.rcd.slots.map (fun p => p.2)).filter (fun r => recOrder s.rcd.index r ≥ (n - s.rcd.index.oldest).toNat))
  exact ⟨hp, fun r => (hm r).trans (by rw [List.mem_filter, List.mem_map, decide_eq_true_eq])⟩

/-- The window loads the first valid record at or after the number asked for; with none it is not valid. -/
theorem logWindowLoaded_loads {s t : State} (h : s.rcd.winBusy = true) (ht : effLogWindowLoaded s = t) :
    let x := s.rcd.index
    t.rcd.winBusy = false ∧ t.rcd.slots = s.rcd.slots ∧ t.rcd.index = x ∧
      (t.rcd.winValid = true → ∃ p ∈ s.rcd.slots, p.2.bad = false ∧ t.rcd.win = p.2.words ∧
        (s.rcd.sel - x.oldest).toNat ≤ recOrder x p.2 ∧ t.rcd.winExact = decide (recSeq p.2 = s.rcd.sel) ∧
        ∀ q ∈ s.rcd.slots, q.2.bad = false → (s.rcd.sel - x.oldest).toNat ≤ recOrder x q.2 → recOrder x p.2 ≤ recOrder x q.2) ∧
      (t.rcd.winValid = false → ∀ q ∈ s.rcd.slots, q.2.bad = false → recOrder x q.2 < (s.rcd.sel - x.oldest).toNat) := by
  obtain ⟨hsorted, hmem⟩ := recordsFrom_spec s s.rcd.sel
  intro x
  unfold effLogWindowLoaded at ht
  rw [if_neg (by simp [h])] at ht
  extract_lets l skip at ht
  split at ht <;> subst ht
  next r hr =>
    refine ⟨rfl, rfl, rfl, fun _ => ?_, fun hv => Bool.noConfusion hv⟩
    obtain ⟨⟨p, hp, rfl⟩, hfrom⟩ := (hmem r).1 (List.mem_of_find?_eq_some hr)
    have hgood : p.2.bad = false := by simpa using List.find?_some hr
    refine ⟨p, hp, hgood, rfl, hfrom, rfl, fun q hq hqgood hqfrom => ?_⟩
    exact find_least (recOrder x) hsorted hr q.2 ((hmem q.2).2 ⟨⟨q, hq, rfl⟩, hqfrom⟩) (by simp [hqgood])
  next hr =>
    refine ⟨rfl, rfl, rfl, fun hv => Bool.noConfusion hv, fun _ q hq hqgood => ?_⟩
    refine Nat.lt_of_not_le fun hqfrom => ?_
    exact List.find?_eq_none.1 hr q.2 ((hmem q.2).2 ⟨⟨q, hq, rfl⟩, hqfrom⟩) (by simp [hqgood])

/-- Settles O55. -/
theorem logKeepsNumberedRecords : Obligations.LogKeepsNumberedRecords := by
  intro s x free_ isRec placed
  refine ⟨fun h => ⟨_, rfl, recorderTakeEvent_idle h⟩, fun hf hl => ⟨_, rfl, ?_⟩, fun e hf hl he => ⟨_, rfl, ?_⟩,
    fun e q hf hl hs hq => ⟨_, rfl, ?_⟩, fun h => ⟨_, rfl, logIndexRebuild_counts h rfl⟩, fun h => ⟨_, rfl, ?_⟩, fun v => ⟨_, rfl, rfl⟩,
    fun h => ⟨_, rfl, logWindowLoaded_loads h rfl⟩, fun h => ⟨_, rfl, ?_⟩⟩
  · rw [recorderTakeEvent_lost hf hl]
    obtain ⟨-, -, -, -, -, hqueue, hlost, -⟩ := writeRecord_frame (lostEvent s)
      { s with rcd := { s.rcd with lostSince := 0 }, sup := { s.sup with evqOwed := 0 } }
    exact ⟨writeRecord_placed _ _, hlost, hqueue, rfl, rfl⟩
  · rw [recorderTakeEvent_start hf hl he]
    obtain ⟨-, -, -, -, -, hqueue, -, hstart⟩ := writeRecord_frame e (rcdMod (fun c => { c with startDue := none }) s)
    exact ⟨writeRecord_placed _ _, hstart, hqueue⟩
  · rw [recorderTakeEvent_queue hf hl hs hq]
    obtain ⟨-, -, -, -, -, hqueue, -, -⟩ := writeRecord_frame e (rcdMod (fun c => { c with queue := q }) s)
    exact ⟨writeRecord_placed _ _, hqueue⟩
  · rw [effLogIndexRebuild, if_pos (by simp [h])]
  · rw [effLogWindowLoaded, if_pos (by simp [h])]

end Sys2Proof.Proofs

/-! The links of a node (R258 to R263, R272, R278): how a link reads after each operation on links and frames, and what taking and sending
frames keeps of a link. -/
namespace Sys2Proof.Proofs

open Sys2Proof.Machine Sys2Proof.Laws

/-! One link after a change of one link. -/

theorem linkGet_linkMod (k j : Link) (f : LinkSt → LinkSt) (s : State) :
    linkGet (linkMod k f s) j = if j = k then f (linkGet s k) else linkGet s j := by
  show (s.fab.links.set k.val (f s.fab.links[k]))[j.val] = _
  rw [Vector.getElem_set]
  by_cases h : j = k
  · subst h; rw [if_pos rfl, if_pos rfl]; rfl
  · rw [if_neg (fun e => h (Fin.ext e.symm)), if_neg h]; rfl

@[simp] theorem linkGet_linkMod_same (k : Link) (f : LinkSt → LinkSt) (s : State) : linkGet (linkMod k f s) k = f (linkGet s k) := by
  rw [linkGet_linkMod, if_pos rfl]

theorem linkGet_linkMod_other {k j : Link} (f : LinkSt → LinkSt) (s : State) (h : j ≠ k) : linkGet (linkMod k f s) j = linkGet s j := by
  rw [linkGet_linkMod, if_neg h]

theorem linkGet_of_fab {s t : State} (h : t.fab = s.fab) (k : Link) : linkGet t k = linkGet s k := by
  unfold linkGet; rw [h]

@[simp] theorem linkGet_bump (a : Nat) (s : State) (k : Link) : linkGet (bump a s) k = linkGet s k := rfl
@[simp] theorem linkGet_bumpBy (a n : Nat) (s : State) (k : Link) : linkGet (bumpBy a n s) k = linkGet s k := rfl
@[simp] theorem linkGet_latch (a n : Nat) (s : State) (k : Link) : linkGet (latch a n s) k = linkGet s k := rfl

/-! The counters of a link stand apart from the others of the fabric. -/

theorem aLINK_ne {k : Link} {o a : Nat} (ho : o < 0x40) (h : a < 0x0A0100 ∨ 0x0A0400 ≤ a) : aLINK k o ≠ a := by
  have := k.isLt
  unfold aLINK
  omega

theorem aLINK_ne_aLINK {k j : Link} {o p : Nat} (ho : o < 0x40) (hp : p < 0x40) (h : o ≠ p) : aLINK k o ≠ aLINK j p := by
  unfold aLINK
  omega

/-- Frames lost from a link's queues count at the offsets of its three planes (Table 11.11). -/
theorem planeDrop_eq (p : BitVec 2) (k : Link) : ∃ o, planeDrop p k = aLINK k o ∧ (o = 0x1C ∨ o = 0x20 ∨ o = 0x24) := by
  unfold planeDrop
  split
  · exact ⟨_, rfl, .inl rfl⟩
  · split
    · exact ⟨_, rfl, .inr (.inl rfl)⟩
    · exact ⟨_, rfl, .inr (.inr rfl)⟩

/-! A use of the zone, a triplicated field (R50). -/

/-- A vote leaves all as it was, rewrites the odd copy and counts it, or notes its failure. -/
theorem voteUse_cases (a base : Nat) (s : State) : voteUse a base s = s ∨
    voteUse a base s = latch aSYS_EVENT 3 (bump aECC_VOTE_FIX (triSet a (voted s a) s)) ∨
    ∃ f, voteUse a base s = { s with sys := { s.sys with voteFail := f } } := by
  unfold voteUse
  dsimp only
  split
  · exact .inl rfl
  · split
    · exact .inr (.inl rfl)
    · split
      · exact .inl rfl
      · exact .inr (.inr ⟨_, rfl⟩)

/-- The copies rewritten read as before. -/
theorem voted_triSet_voted (a b : Nat) (s : State) : voted (triSet a (voted s a) s) b = voted s b := by
  unfold voted
  rw [triGet_triSet]
  split
  next h =>
    subst h
    simp only [voteWord, vote_same]
    ext i hi
    simp only [BitVec.getElem_or, BitVec.getElem_and, BitVec.getElem_not]
    cases (triMask b)[i] <;> simp
  next => rfl

theorem voted_voteUse (a base b : Nat) (s : State) : voted (voteUse a base s) b = voted s b := by
  rcases voteUse_cases a base s with e | e | ⟨f, e⟩ <;> rw [e]
  · exact voted_triSet_voted a b s
  · rfl

theorem ownZone_useZone (s : State) : ownZone (useZone s) = ownZone s := by
  unfold ownZone useZone
  rw [voted_voteUse]

theorem voteUse_frame (a base : Nat) (s : State) : (voteUse a base s).fab = s.fab ∧ (voteUse a base s).cfg = s.cfg ∧
    (voteUse a base s).clock = s.clock ∧ (voteUse a base s).serial = s.serial := by
  rcases voteUse_cases a base s with e | e | ⟨f, e⟩ <;> rw [e] <;> exact ⟨rfl, rfl, rfl, rfl⟩

theorem useZone_fab (s : State) : (useZone s).fab = s.fab := (voteUse_frame _ _ s).1

theorem ctrGet_voteUse_other (a base : Nat) (s : State) {c : Nat} (h : c ≠ aECC_VOTE_FIX) : ctrGet (voteUse a base s) c = ctrGet s c := by
  rcases voteUse_cases a base s with e | e | ⟨f, e⟩ <;> rw [e]
  · rw [ctrGet_latch, ctrGet_bump_other _ _ _ h, ctrGet_triSet]
  · rfl

/-! What a link is to the node, apart from its queues. -/

/-- The parts of a link that frames and queues leave alone. -/
def linkUse (l : LinkSt) := (l.phyUp, l.twoWay, l.neigh)

theorem linkUse_setRxQueue (q : TxQueue) (x : List RxFrame) (l : LinkSt) : linkUse (setRxQueue q x l) = linkUse l := by
  cases q <;> rfl

/-- What taking, sending and forwarding frames keeps about a link: its state, the node's zone, the events that wait, the count of two-way
states lost; with `v`, the membership view. -/
structure Follows (v : Bool) (k : Link) (s t : State) : Prop where
  use : linkUse (linkGet t k) = linkUse (linkGet s k)
  zone : ownZone t = ownZone s
  latched : ∀ a x, Latched a x s → Latched a x t
  losses : ctrGet t (aLINK k 0x28) = ctrGet s (aLINK k 0x28)
  view : v = true → t.fab.view = s.fab.view

theorem Follows.refl (v : Bool) (k : Link) (s : State) : Follows v k s s := ⟨rfl, rfl, fun _ _ h => h, rfl, fun _ => rfl⟩

section
variable {v : Bool} {k : Link} {s0 s : State} (h : Follows v k s0 s)
include h

/-- A change of nothing that a link follows. -/
theorem follows_frame {t : State} (hl : linkUse (linkGet t k) = linkUse (linkGet s k)) (hz : ownZone t = ownZone s) (hr : t.rsq = s.rsq)
    (hc : t.ctr = s.ctr) (hv : v = true → t.fab.view = s.fab.view) : Follows v k s0 t :=
  ⟨hl.trans h.use, hz.trans h.zone, fun a x g => Latched.congr (h.latched a x g) hr, by
    rw [← h.losses]; unfold ctrGet; rw [hc], fun e => (hv e).trans (h.view e)⟩

theorem follows_bump {a : Nat} (ha : aLINK k 0x28 ≠ a) : Follows v k s0 (bump a s) :=
  ⟨h.use, h.zone, h.latched, (ctrGet_bump_other _ _ _ ha).trans h.losses, h.view⟩

/-- A counter that is none of a link's. -/
theorem follows_bump_node {a : Nat} (ha : a < 0x0A0100 ∨ 0x0A0400 ≤ a) : Follows v k s0 (bump a s) :=
  follows_bump h (aLINK_ne (by decide) ha)

theorem follows_bump_planeDrop (p : BitVec 2) (j : Link) : Follows v k s0 (bump (planeDrop p j) s) := by
  obtain ⟨o, e, ho⟩ := planeDrop_eq p j
  rw [e]
  exact follows_bump h (aLINK_ne_aLINK (by decide) (by omega) (by omega))

theorem follows_latch (a n : Nat) : Follows v k s0 (latch a n s) :=
  ⟨h.use, h.zone, fun b x g => Latched.latch (h.latched b x g) a n, h.losses, h.view⟩

theorem follows_whenS {c : Bool} {f : State → State} (hf : Follows v k s0 (f s)) : Follows v k s0 (whenS c f s) := by
  unfold whenS; split
  · exact hf
  · exact h

theorem follows_linkMod (j : Link) {f : LinkSt → LinkSt} (hf : ∀ l, linkUse (f l) = linkUse l) : Follows v k s0 (linkMod j f s) := by
  refine follows_frame h ?_ rfl rfl rfl (fun _ => rfl)
  rw [linkGet_linkMod]
  split
  next e => rw [e]; exact hf _
  next => rfl

theorem follows_voteUse (a base : Nat) : Follows v k s0 (voteUse a base s) := by
  have hz : ownZone (voteUse a base s) = ownZone s := by unfold ownZone; rw [voted_voteUse]
  rcases voteUse_cases a base s with e | e | ⟨f, e⟩ <;> rw [e] at hz ⊢
  · exact h
  · have h1 : Follows v k s0 (triSet a (voted s a) s) := follows_frame h rfl hz rfl rfl (fun _ => rfl)
    exact follows_latch (follows_bump_node h1 (by decide)) _ _
  · exact follows_frame h rfl hz rfl rfl (fun _ => rfl)

theorem follows_enqueue (j : Link) (f : Frame) (fwd : Bool) : Follows v k s0 (enqueue j f fwd s) := by
  unfold enqueue
  dsimp only
  split
  · split
    · exact follows_bump_planeDrop h 0 j
    · exact follows_linkMod h j (fun _ => rfl)
  · split
    · split
      · exact follows_bump_planeDrop h 0 j
      · exact follows_linkMod h j (fun _ => rfl)
    · split
      · split
        · exact follows_bump_planeDrop h 1 j
        · exact follows_linkMod h j (fun _ => rfl)
      · split
        · exact follows_bump_planeDrop h 2 j
        · exact follows_linkMod h j (fun _ => rfl)

end

section
variable {v : Bool} {k : Link} {s0 : State}

theorem follows_eachS {α : Type} {f : α → State → State} (hf : ∀ a t, Follows v k s0 t → Follows v k s0 (f a t)) (l : List α) :
    ∀ s, Follows v k s0 s → Follows v k s0 (eachS l f s) := by
  unfold eachS
  induction l with
  | nil => exact fun _ h => h
  | cons a l ih => exact fun s h => ih _ (hf a s h)

variable {s : State} (h : Follows v k s0 s)
include h

theorem follows_sendLocal (j : Link) (b : Body) : Follows v k s0 (sendLocal j b s) := follows_enqueue (follows_voteUse h _ _) j _ _

theorem follows_floodOut (but : Option Link) (f : Frame) (fwd : Bool) : Follows v k s0 (floodOut but f fwd s) :=
  follows_eachS (fun j _ ht => follows_enqueue ht j f fwd) _ s h

theorem follows_forwardUni (hd : FabHdr) (b : Body) : Follows v k s0 (forwardUni hd b s) := by
  unfold forwardUni
  split
  · exact h
  · split
    · exact follows_bump_node h (by decide)
    · split
      · exact follows_enqueue h _ _ _
      · exact follows_bump_node h (by decide)

theorem follows_forwardFlood (j : Link) (hd : FabHdr) (b : Body) : Follows v k s0 (forwardFlood j hd b s) := by
  unfold forwardFlood
  split
  · exact follows_bump_node h (by decide)
  · exact follows_floodOut h _ _ _

theorem follows_dupCheck (key : Word) (st : BitVec 12) (q : BitVec 16) : Follows v k s0 (dupCheck key st q s).2 := by
  have put : ∀ (ws : List Window) {t : State}, Follows v k s0 t → Follows v k s0 { t with fab := { t.fab with windows := ws } } :=
    fun _ _ ht => follows_frame ht rfl rfl rfl rfl (fun _ => rfl)
  have evict : Follows v k s0 (latch aFAB_EVENT 5 (bump aFAB_DUP_EVICT s)) := follows_latch (follows_bump_node h (by decide)) _ _
  unfold dupCheck
  split
  · exact h
  · dsimp only
    split
    · split
      · split
        · exact put _ evict
        · exact put _ h
      · exact put _ h
    · split
      · exact put _ h
      · split
        · split
          · exact put _ (follows_bump_node h (by decide))
          · exact put _ h
        · exact put _ (follows_bump_node h (by decide))

theorem follows_rxCheck (j : Link) (rx : Rx) (b : Body) : Follows v k s0 (rxCheck j rx b s).2 := by
  have h1 : Follows v k s0 (bump (aLINK j 0x14) s) := follows_bump h (aLINK_ne_aLINK (by decide) (by decide) (by decide))
  unfold rxCheck
  split
  · exact follows_bump h (aLINK_ne_aLINK (by decide) (by decide) (by decide))
  · extract_lets u hd lim
    split
    · exact follows_bump_node (a := aFAB_BAD_HDR) h1 (by decide)
    · exact h1

theorem follows_holdRx (j : Link) (hd : FabHdr) (c : Instr) : Follows v k s0 (holdRx j hd c s) := by
  unfold holdRx
  dsimp only
  split
  · exact follows_bump_planeDrop h _ j
  · exact follows_linkMod h j (linkUse_setRxQueue _ _)

theorem follows_accept (j : Link) (rx : Rx) (b : Body) : Follows v k s0 (accept j rx b s).2 := by
  unfold accept
  dsimp only
  split
  · exact h
  split
  · exact h
  split
  · exact h
  split
  · split
    · exact h
    split
    · exact h
    split
    · exact h
    · exact follows_dupCheck (follows_forwardFlood h _ _ _) _ _ _
  · split
    · exact follows_dupCheck h _ _ _
    · exact follows_forwardUni h _ _

theorem follows_receiveAs (cmd : Option Instr) (rx : Rx) (b : Body) : Follows v k s0 (receiveAs cmd rx b s).2 := by
  unfold receiveAs
  split
  · exact follows_dupCheck h _ _ _
  next j _ =>
    split
    · exact follows_accept (follows_voteUse h _ _) j rx b
    · split
      · exact h
      · have hc := follows_rxCheck h j rx b
        generalize rxCheck j rx b s = p at hc ⊢
        dsimp only
        split
        · exact hc
        · split
          · exact follows_holdRx hc j _ _
          · exact follows_accept (follows_voteUse hc _ _) j rx b

theorem follows_receive (rx : Rx) (b : Body) : Follows v k s0 (receive rx b s).2 := follows_receiveAs h _ rx b

theorem follows_sendSync (j : Link) : Follows v k s0 (sendSync j s) := by
  unfold sendSync
  dsimp only
  split
  · exact follows_sendLocal h j _
  · exact follows_eachS (fun p _ ht => follows_sendLocal ht j _) _ s h

theorem follows_refreshHeld (j : Link) : Follows v k s0 (refreshHeld j s) := by
  unfold refreshHeld
  extract_lets m was u
  have hu : Follows v k s0 u := follows_linkMod h j (fun _ => rfl)
  exact follows_whenS hu (follows_latch hu _ _)

end

/-! The membership view (R273). -/

/-- What a change of published values leaves alone. -/
def valueBasis (s : State) := (s.fab, s.tri, s.rsq, s.ctr)

theorem valueBasis_result (e : Nat) (q : BitVec 8) (v : F32) (s : State) : valueBasis (result e q v s).2.2 = valueBasis s := by
  unfold result; split <;> rfl

theorem valueBasis_entryOut (e : Nat) (s : State) : valueBasis (entryOut e s) = valueBasis s := by
  unfold entryOut
  split
  · rfl
  · exact valueBasis_result e qOUT_OF_SERVICE 0 s

/-- A new view changes, of the fabric, the view. -/
theorem installView_frame (w : List Addr) (s : State) : (installView w s).fab = { s.fab with view := w } ∧ (installView w s).tri = s.tri ∧
    (installView w s).rsq = s.rsq ∧ (installView w s).ctr = s.ctr := by
  have e := eachS_proj valueBasis (s.cfg.subs.filter (fun b => !w.contains b.srcNode)) (fun b t => entryOut b.localEntry.toNat t)
    { s with fab := { s.fab with view := w }, plc := { s.plc with healthyNodes := s.plc.healthyNodes.filter (fun a => w.contains a) } }
    (fun b t => valueBasis_entryOut _ t)
  exact ⟨congrArg (·.1) e, congrArg (·.2.1) e, congrArg (·.2.2.1) e, congrArg (·.2.2.2) e⟩

theorem ownZone_of_tri {s t : State} (h : t.tri = s.tri) : ownZone t = ownZone s := by
  unfold ownZone voted triGet; rw [h]

section
variable {k : Link} {s0 s : State} (h : Follows false k s0 s)
include h

theorem follows_installView (w : List Addr) : Follows false k s0 (installView w s) := by
  obtain ⟨hf, ht, hr, hc⟩ := installView_frame w s
  refine follows_frame h ?_ (ownZone_of_tri ht) hr hc (fun e => Bool.noConfusion e)
  unfold linkGet; rw [hf]

theorem follows_refreshRemote : Follows false k s0 (refreshRemote s) := by
  unfold refreshRemote
  split
  · exact follows_installView h _
  · exact h

theorem follows_blockRec (sev : BitVec 2) (base a : Nat) (vals : List Word) : Follows false k s0 (blockRec sev base a vals s) := by
  unfold blockRec emit
  split
  · have h1 : Follows false k s0 (rcdMod (fun c => { c with lostSince := c.lostSince + 1 }) s) :=
      follows_frame h rfl rfl rfl rfl (fun _ => rfl)
    exact follows_latch (follows_bump_node (a := aEVQ_LOST) h1 (by decide)) _ _
  · exact follows_frame h rfl rfl rfl rfl (fun _ => rfl)

theorem follows_floodClaim (but : Option Link) (b : Body) : Follows false k s0 (floodClaim but b s) := follows_floodOut h but _ false

theorem follows_sendClaim : Follows false k s0 (sendClaim s) := by
  unfold sendClaim
  split
  · exact h
  next c _ =>
    have h1 : Follows false k s0 (cacheAdd (s.serial, c.number, BitVec.ofNat 2 c.tx, false) s) :=
      follows_frame h rfl rfl rfl rfl (fun _ => rfl)
    exact follows_floodClaim h1 none _

theorem follows_claimNext : Follows false k s0 (claimNext s) := by
  unfold claimNext
  split
  · exact follows_sendClaim (follows_frame h rfl rfl rfl rfl (fun _ => rfl))
  · have h1 : Follows false k s0 { s with fab := { s.fab with claim := none, exhausted := true } } :=
      follows_frame h rfl rfl rfl rfl (fun _ => rfl)
    exact follows_whenS h1 (follows_latch h1 _ _)

/-- A number that is given up takes the view with it, and leaves the links. -/
theorem follows_giveUpNumber : Follows false k s0 (giveUpNumber s) := by
  unfold giveUpNumber
  have h1 : Follows false k s0 { s with fab := { s.fab with addressed := false, givenUp := s.fab.member :: s.fab.givenUp, lost := [],
                                                            fwd := [] } } := follows_frame h rfl rfl rfl rfl (fun _ => rfl)
  have h2 := follows_latch (follows_bump_node (a := aFAB_ADDR_CONFLICT) (follows_installView h1 []) (by decide)) aFAB_EVENT 4
  exact follows_claimNext (follows_blockRec h2 _ _ _ _)

theorem follows_conflict (a : Addr) (other : Word) (lastLsa : Bool) : Follows false k s0 (conflict a other lastLsa s) := by
  unfold conflict
  split
  · exact follows_giveUpNumber h
  · exact h

end

end Sys2Proof.Proofs

/-! O42 (R14, R258 to R263, R273, R278, R279): links come up and go down, hellos, the order of transmission, what is dropped, and what goes
on to another node. -/
namespace Sys2Proof.Proofs

open Sys2Proof.Machine Sys2Proof.Laws

/-- No other link than the one named changes. -/
def OthersStand (k : Link) (s t : State) : Prop := ∀ j, j ≠ k → linkGet t j = linkGet s j

theorem othersStand_linkMod (k : Link) (f : LinkSt → LinkSt) (s : State) : OthersStand k s (linkMod k f s) :=
  fun _ hj => linkGet_linkMod_other f s hj

/-! PHY_UP and PHY_DOWN (R262, R278). -/

theorem phyUp_raises {s : State} {k : Link} (he : (linkGet s k).enabled = true) (hr : linksUp s k = true) :
    Does (.phyUp k) s (fun t => linkGet t k = { linkGet s k with phyUp := true } ∧ OthersStand k s t ∧ t.ctr = s.ctr) := by
  refine ⟨_, rfl, ?_⟩
  rw [effPhyUp, if_pos (by rw [he, hr]; rfl)]
  exact ⟨linkGet_linkMod_same _ _ _, othersStand_linkMod _ _ _, rfl⟩

theorem phyUp_nothing {s : State} {k : Link} (h : (linkGet s k).enabled = false ∨ linksUp s k = false) :
    Does (.phyUp k) s (fun t => t = s) := by
  refine ⟨_, rfl, ?_⟩
  rw [effPhyUp, if_neg (by rcases h with h | h <;> simp [h])]

theorem loseTwoWay_of_not {k : Link} {s : State} (h : (linkGet s k).twoWay = false) : loseTwoWay k s = s := by
  unfold loseTwoWay
  rw [if_neg (by simp [h])]

/-- A two-way state that is lost is counted and latched. -/
theorem loseTwoWay_of_twoWay {k : Link} {s : State} (h : (linkGet s k).twoWay = true) : loseTwoWay k s =
    latch aFAB_EVENT 0 (bump (aLINK k 0x28) (linkMod k (fun l => { l with
      twoWay := false, synced := false, held := false, neigh := none, delays := [], want := [], gotList := false, helloSent := [] }) s)) := by
  unfold loseTwoWay
  rw [if_pos h]

/-- The link is not two-way, and its queues stand; the other links and counters too. -/
theorem loseTwoWay_spec (k : Link) (s : State) :
    let l := linkGet s k
    let m := linkGet (loseTwoWay k s) k
    (m.twoWay = false ∧ m.phyUp = l.phyUp ∧ m.urgent = l.urgent ∧ m.routine = l.routine ∧ m.mgmt = l.mgmt ∧ m.data = l.data) ∧
      OthersStand k s (loseTwoWay k s) ∧ ∀ a, a ≠ aLINK k 0x28 → ctrGet (loseTwoWay k s) a = ctrGet s a := by
  dsimp only
  cases h : (linkGet s k).twoWay with
  | false =>
    rw [loseTwoWay_of_not h]
    exact ⟨⟨h, rfl, rfl, rfl, rfl, rfl⟩, fun _ _ => rfl, fun _ _ => rfl⟩
  | true =>
    rw [loseTwoWay_of_twoWay h]
    refine ⟨?_, fun j hj => ?_, fun a ha => ?_⟩
    · rw [linkGet_latch, linkGet_bump, linkGet_linkMod_same]
      exact ⟨rfl, rfl, rfl, rfl, rfl, rfl⟩
    · rw [linkGet_latch, linkGet_bump, linkGet_linkMod_other _ _ hj]
    · rw [ctrGet_latch, ctrGet_bump_other _ _ _ ha]; rfl

/-- The two-way state of a link that is two-way ends: its neighbour is forgotten, and the loss counted and latched. -/
theorem loseTwoWay_loses {k : Link} {s : State} (h : (linkGet s k).twoWay = true) :
    (linkGet (loseTwoWay k s) k).neigh = none ∧ Counted (aLINK k 0x28) s (loseTwoWay k s) ∧ Latched aFAB_EVENT 0 (loseTwoWay k s) := by
  rw [loseTwoWay_of_twoWay h]
  refine ⟨?_, Counted.congr (counted_bump (linkMod k _ s) _) rfl rfl, latched_latch _ _ 0⟩
  rw [linkGet_latch, linkGet_bump, linkGet_linkMod_same]

/-- A PHY that is lost empties the queues, and each frame is counted by its plane. -/
theorem phyDown_lowers {s : State} {k : Link} (h : (linkGet s k).phyUp = true) :
    Does (.phyDown k) s (fun t => OthersStand k s t ∧ (linkGet t k).phyUp = false ∧ (linkGet t k).twoWay = false ∧
      (∀ q, txQueue (linkGet t k) q = []) ∧
      ctrGet t (aLINK k 0x1C) = satAdd (ctrGet s (aLINK k 0x1C)) ((linkGet s k).urgent.length + (linkGet s k).routine.length) ∧
      ctrGet t (aLINK k 0x20) = satAdd (ctrGet s (aLINK k 0x20)) (linkGet s k).data.length ∧
      ctrGet t (aLINK k 0x24) = satAdd (ctrGet s (aLINK k 0x24)) (linkGet s k).mgmt.length) := by
  obtain ⟨⟨htwo, -, hurgent, hroutine, hmgmt, hdata⟩, hothers, hctr⟩ := loseTwoWay_spec k s
  refine ⟨_, rfl, ?_⟩
  rw [effPhyDown, if_pos h]
  dsimp only
  generalize loseTwoWay k s = u at htwo hurgent hroutine hmgmt hdata hothers hctr ⊢
  have hc : ∀ o, o ≠ 0x28 → ctrGet u (aLINK k o) = ctrGet s (aLINK k o) := fun o ho => hctr _ (by unfold aLINK; omega)
  have hu : ∀ a, ctrGet (linkMod k (fun l => { l with urgent := [], routine := [], mgmt := [], data := [], onWire := none, credit := 0 }) u) a =
      ctrGet u a := fun _ => rfl
  have hl : ∀ a f (t : State), ctrGet (linkMod k f t) a = ctrGet t a := fun _ _ _ => rfl
  rw [← hurgent, ← hroutine, ← hmgmt, ← hdata, ← hc 0x1C (by decide), ← hc 0x20 (by decide), ← hc 0x24 (by decide)]
  unfold flushLink
  refine ⟨fun j hj => ?_, ?_, ?_, fun q => ?_, ?_, ?_, ?_⟩
  · rw [linkGet_linkMod_other _ _ hj]
    simp only [if_true, linkGet_bumpBy]
    rw [linkGet_linkMod_other _ _ hj, hothers j hj]
  · rw [linkGet_linkMod_same]
  · simp [htwo]
  · cases q <;> simp [txQueue]
  · simp [hl, ctrGet_bumpBy, aLINK]
  · simp [hl, ctrGet_bumpBy, aLINK]
  · simp [hl, ctrGet_bumpBy, aLINK]

theorem neighbourTimeout_ends {s : State} {k : Link} (h : (linkGet s k).twoWay = true) :
    Does (.neighbourTimeout k) s (fun t => (linkGet t k).twoWay = false ∧ (linkGet t k).neigh = none ∧ OthersStand k s t ∧
      Counted (aLINK k 0x28) s t ∧ Latched aFAB_EVENT 0 t) := by
  obtain ⟨⟨htwo, -⟩, hothers, -⟩ := loseTwoWay_spec k s
  obtain ⟨hneigh, hcount, hlatch⟩ := loseTwoWay_loses h
  exact ⟨_, rfl, htwo, hneigh, hothers, hcount, hlatch⟩

theorem linkAlone_marks {s : State} {k : Link} (hk : k.val < 6) (he : (linkGet s k).enabled = true) (hi : isIntra s k = false)
    (hb : isBorder s k = false) : Does (.linkAlone k) s (fun t => linkGet t k = { linkGet s k with alone := true } ∧ OthersStand k s t) := by
  refine ⟨_, rfl, ?_⟩
  rw [effLinkAlone, if_pos (by simp [hk, he, hi, hb])]
  exact ⟨linkGet_linkMod_same _ _ _, othersStand_linkMod _ _ _⟩

/-! The transmit queues (R278, Table 11.7). -/

/-- A frame that is queued on one link leaves the others. -/
theorem othersStand_enqueue (k : Link) (f : Frame) (fwd : Bool) (s : State) : OthersStand k s (enqueue k f fwd s) := by
  intro j hj
  unfold enqueue
  dsimp only
  split
  · split
    · rfl
    · exact linkGet_linkMod_other _ _ hj
  · split
    · split
      · rfl
      · exact linkGet_linkMod_other _ _ hj
    · split
      · split
        · rfl
        · exact linkGet_linkMod_other _ _ hj
      · split
        · rfl
        · exact linkGet_linkMod_other _ _ hj

theorem enqueue_up (k : Link) (f : Frame) (fwd : Bool) (s : State) : (enqueue k f fwd s).fab.up = s.fab.up := by
  unfold enqueue
  dsimp only
  (repeat' split) <;> rfl

theorem enqueue_urgent {k : Link} {f : Frame} (fwd : Bool) {s : State} (hp : f.hdr.plane = 0) (hc : f.hdr.cls = 0)
    (hroom : (linkGet s k).urgent.length < 16) :
    enqueue k f fwd s = linkMod k (fun l => { l with urgent := l.urgent ++ [⟨f, s.clock, fwd⟩] }) s := by
  unfold enqueue
  dsimp only
  rw [if_pos ⟨hp, hc⟩, if_neg (by omega)]

theorem enqueue_routine {k : Link} {f : Frame} (fwd : Bool) {s : State} (hp : f.hdr.plane = 0) (hc : f.hdr.cls ≠ 0) (hk : k ≠ linkP)
    (hroom : (linkGet s k).routine.length < 64) :
    enqueue k f fwd s = linkMod k (fun l => { l with routine := l.routine ++ [⟨f, s.clock, fwd⟩] }) s := by
  unfold enqueue
  dsimp only
  rw [if_neg (fun e => hc e.2), if_pos hp, if_neg (by rintro (g | g); · omega
                                                      · exact hk g.1)]

/-! HELLO_SEND (R262). -/

/-- Of the steps of a list, the one that names `k` decides what is seen of `k`, where the others leave it. -/
theorem eachS_once {α β : Type} (π : State → β) {f : α → State → State} {k : α} (hother : ∀ j t, j ≠ k → π (f j t) = π t) (l : List α) :
    ∀ s, l.Nodup → k ∈ l → ∃ u, π u = π s ∧ π (eachS l f s) = π (f k u) := by
  have hrest : ∀ (l : List α) s, k ∉ l → π (eachS l f s) = π s := by
    intro l
    induction l with
    | nil => exact fun _ _ => rfl
    | cons a l ih =>
      intro s hk
      obtain ⟨hka, hkl⟩ := List.ne_and_not_mem_of_not_mem_cons hk
      exact (ih (f a s) hkl).trans (hother a s hka.symm)
  induction l with
  | nil => exact fun _ _ hk => absurd hk (List.not_mem_nil)
  | cons a l ih =>
    intro s hn hk
    obtain ⟨hal, hl⟩ := List.nodup_cons.1 hn
    rcases List.mem_cons.1 hk with rfl | hkl
    · exact ⟨s, rfl, hrest l (f k s) hal⟩
    · obtain ⟨u, hu, e⟩ := ih (f a s) hl hkl
      exact ⟨u, hu.trans (hother a s (fun e => hal (e ▸ hkl))), e⟩

theorem mem_fLinks : ∀ k : Link, k.val < 6 → k ∈ fLinks := by decide

/-- What HELLO_SEND reads and changes of one link. -/
def helloView (k : Link) (s : State) := (linkGet s k, s.fab.up)

theorem helloView_sendHello_other {k j : Link} (s : State) (h : j ≠ k) : helloView k (sendHello j s) = helloView k s := by
  unfold helloView sendHello sendLocal
  dsimp only
  rw [linkGet_linkMod_other _ _ h.symm, othersStand_enqueue _ _ _ _ k h.symm, linkGet_of_fab (useZone_fab s)]
  show (_, (enqueue _ _ _ _).fab.up) = _
  rw [enqueue_up, useZone_fab]

theorem sendHello_queues {k : Link} {s : State} (hk : k.val < 6) (hroom : (linkGet s k).routine.length < 64) :
    (linkGet (sendHello k s) k).routine.length = (linkGet s k).routine.length + 1 ∧
      (linkGet (sendHello k s) k).helloNum = (linkGet s k).helloNum + 1 ∧ (linkGet (sendHello k s) k).urgent = (linkGet s k).urgent := by
  have hP : k ≠ linkP := fun e => by rw [e] at hk; exact absurd hk (by decide)
  have hu := linkGet_of_fab (useZone_fab s) k
  unfold sendHello sendLocal
  dsimp only
  rw [linkGet_linkMod_same, enqueue_routine false rfl (show (1 : BitVec 2) ≠ 0 by decide) hP (by rw [hu]; exact hroom), linkGet_linkMod_same, hu]
  exact ⟨List.length_append, rfl, rfl⟩

theorem helloSend_queues {s : State} {k : Link} (hk : k.val < 6) (he : (linkGet s k).enabled = true) (hp : (linkGet s k).phyUp = true)
    (hup : s.fab.up = true) (hroom : (linkGet s k).routine.length < 64) :
    Does .helloSend s (fun t => (linkGet t k).routine.length = (linkGet s k).routine.length + 1 ∧
      (linkGet t k).helloNum = (linkGet s k).helloNum + 1 ∧ (linkGet t k).urgent = (linkGet s k).urgent) := by
  refine ⟨_, rfl, ?_⟩
  have hother : ∀ (j : Link) (t : State), j ≠ k →
      helloView k (whenS ((linkGet t j).enabled && (linkGet t j).phyUp && t.fab.up) (sendHello j) t) = helloView k t := by
    intro j t hj
    unfold whenS
    split
    · exact helloView_sendHello_other t hj
    · rfl
  obtain ⟨u, hu, e⟩ := eachS_once (helloView k) hother fLinks (useZone s) (by decide) (mem_fLinks k hk)
  obtain ⟨hul, huu⟩ := Prod.mk.inj hu
  obtain ⟨el, -⟩ := Prod.mk.inj e
  rw [linkGet_of_fab (useZone_fab s)] at hul
  rw [useZone_fab] at huu
  unfold effHelloSend
  dsimp only
  rw [show voteUse aFAB_ADDR 0x0A0000 s = useZone s from rfl, el, whenS, if_pos (by rw [hul, huu, he, hp, hup]; rfl), ← hul]
  exact sendHello_queues hk (by rw [hul]; exact hroom)

/-! HELLO and DRYDOWN_NOTICE (R262, R273). -/

theorem effHello_twoWay {s t : State} {k : Link} {rx : Rx} {m : HelloMsg} (hlink : rx.link = some k)
    (hrx : (receive rx (.hello m) s).1 = true) (hk : k.val < 6) (hphy : (linkGet s k).phyUp = true)
    (hseen : ∃ n b, m.seen = some (s.serial, n, b)) (ht : effHello rx m s = t) :
    (linkGet t k).twoWay = true ∧
      (linkGet t k).neigh = some ⟨m.serial, mkAddr m.zone (m.member.setWidth 12), m.unaddr, m.border⟩ ∧
      ((linkGet s k).twoWay = false → Latched aFAB_EVENT 1 t) ∧
      (∀ n, (linkGet s k).twoWay = true → (linkGet s k).neigh = some n → n.serial ≠ m.serial → Latched aFAB_EVENT 0 t) := by
  have hP : k ≠ linkP := fun e => by rw [e] at hk; exact absurd hk (by decide)
  have hfollow : Follows false k s (receive rx (.hello m) s).2 := follows_receive (.refl _ _ s) rx _
  have hserial : (receive rx (.hello m) s).2.serial = s.serial := (keeps_receive (.refl true s) rx _).serial
  obtain ⟨n0, b0, hseen⟩ := hseen
  unfold effHello at ht
  rw [hlink] at ht
  dsimp -zeta only at ht
  generalize receive rx (.hello m) s = p at hrx hfollow hserial ht
  obtain ⟨ok, s'⟩ := p
  dsimp -zeta only at hrx hfollow hserial ht
  obtain ⟨hphy', htwo', hneigh'⟩ : (linkGet s' k).phyUp = (linkGet s k).phyUp ∧ (linkGet s' k).twoWay = (linkGet s k).twoWay ∧
      (linkGet s' k).neigh = (linkGet s k).neigh := by simpa only [linkUse, Prod.mk.injEq] using hfollow.use
  rw [if_neg (by simp [hrx, hphy', hphy, hP])] at ht
  extract_lets a2 other s1 addr named l1 res rise s2 s3 s4 s5 at ht
  have hserial1 : s1.serial = s'.serial := (keeps_whenS (fun _ g => keeps_loseTwoWay g k) (.refl true s')).serial
  have hnamed : named = true := by simp [named, hseen, hserial1, hserial]
  have hs2 : linkGet s2 k = { l1 with
      neigh := some ⟨m.serial, addr, m.unaddr, m.border⟩, seen := some (m.serial, m.number, BitVec.ofNat 64 (fabNs s1 - rxAge s1)),
      delays := (res ++ l1.delays).take 8, twoWay := l1.twoWay || named } := linkGet_linkMod_same _ _ _
  have htail : ∀ v, Follows false k v s3 → Follows false k v t := by
    intro v h
    rw [← ht]
    have h5 : Follows false k v s5 := follows_whenS (follows_refreshHeld h k) (follows_sendSync (follows_refreshHeld h k) k)
    split
    · exact h5
    · exact follows_conflict h5 _ _ _
  have h3 : Follows false k s2 s3 := follows_whenS (.refl _ _ s2) (follows_latch (.refl _ _ s2) _ _)
  have hend := htail s2 h3
  have hlast := htail s3 (.refl _ _ s3)
  obtain ⟨-, htwo, hneigh⟩ : (linkGet t k).phyUp = (linkGet s2 k).phyUp ∧ (linkGet t k).twoWay = (linkGet s2 k).twoWay ∧
      (linkGet t k).neigh = (linkGet s2 k).neigh := by simpa only [linkUse, Prod.mk.injEq] using hend.use
  refine ⟨?_, ?_, fun hno => ?_, fun n hyes hn hne => ?_⟩
  · rw [htwo, hs2, hnamed]; exact Bool.or_true _
  · rw [hneigh, hs2]
  · have hl1 : l1.twoWay = false := by
      show (linkGet (whenS other (loseTwoWay k) s') k).twoWay = false
      rw [whenS, loseTwoWay_of_not (htwo'.trans hno), ite_self]
      exact htwo'.trans hno
    have hrise : rise = true := by simp [rise, hnamed, hl1]
    refine hlast.latched _ _ ?_
    show Latched aFAB_EVENT 1 (whenS rise (latch aFAB_EVENT 1) s2)
    rw [whenS, if_pos hrise]
    exact latched_latch _ _ 1
  · have hother : other = true := by simp [other, hneigh', hn, hne]
    refine hend.latched _ _ (Latched.congr (s := s1) ?_ rfl)
    show Latched aFAB_EVENT 0 (whenS other (loseTwoWay k) s')
    rw [whenS, if_pos hother]
    exact (loseTwoWay_loses (htwo'.trans hyes)).2.2

theorem hello_makesTwoWay {s : State} {k : Link} {rx : Rx} {m : HelloMsg} (hlink : rx.link = some k) (hrx : (receive rx (.hello m) s).1 = true)
    (hk : k.val < 6) (hphy : (linkGet s k).phyUp = true) (hseen : ∃ n b, m.seen = some (s.serial, n, b)) :
    Does (.hello rx m) s (fun t => (linkGet t k).twoWay = true ∧
      (linkGet t k).neigh = some ⟨m.serial, mkAddr m.zone (m.member.setWidth 12), m.unaddr, m.border⟩ ∧
      ((linkGet s k).twoWay = false → Latched aFAB_EVENT 1 t) ∧
      (∀ n, (linkGet s k).twoWay = true → (linkGet s k).neigh = some n → n.serial ≠ m.serial → Latched aFAB_EVENT 0 t)) :=
  ⟨_, rfl, effHello_twoWay hlink hrx hk hphy hseen rfl⟩

theorem isIntra_of_use {k : Link} {s t : State} (hu : linkUse (linkGet t k) = linkUse (linkGet s k)) (hz : ownZone t = ownZone s) :
    isIntra t k = isIntra s k := by
  obtain ⟨-, htwo, hneigh⟩ : (linkGet t k).phyUp = (linkGet s k).phyUp ∧ (linkGet t k).twoWay = (linkGet s k).twoWay ∧
      (linkGet t k).neigh = (linkGet s k).neigh := by simpa only [linkUse, Prod.mk.injEq] using hu
  unfold isIntra
  dsimp only
  rw [htwo, hneigh, hz]

/-- The own zone's nodes stay in the view where the other zones' are renewed. -/
theorem refreshRemote_keeps_own {s : State} {b : Addr} (hb : b ∈ s.fab.view) (hz : zoneOf b = ownZone s) : b ∈ (refreshRemote s).fab.view := by
  unfold refreshRemote
  split
  · rw [(installView_frame _ s).1]
    exact List.mem_append_left _ (List.mem_filter.2 ⟨hb, by simpa using hz⟩)
  · exact hb

theorem effDrydownNotice_ends {s t : State} {k : Link} {rx : Rx} {a : Addr} {w : Word} (hlink : rx.link = some k) (hP : k ≠ linkP)
    (hrx : (receive rx (.drydownNotice a w) s).1 = true) (htwo : (linkGet s k).twoWay = true) (ht : effDrydownNotice rx a w s = t) :
    (linkGet t k).twoWay = false ∧
      (∀ n, isIntra s k = true → (linkGet s k).neigh = some n → n.addr = a → n.unaddr = false →
        a ∉ t.fab.view ∧ ∀ b ∈ t.fab.view, b ∈ s.fab.view) ∧
      (isIntra s k = false → ∀ b ∈ s.fab.view, zoneOf b = ownZone s → b ∈ t.fab.view) ∧
      Latched aFAB_EVENT 0 t ∧ Counted (aLINK k 0x28) s t := by
  have hfollow : Follows true k s (receive rx (.drydownNotice a w) s).2 := follows_receive (.refl _ _ s) rx _
  unfold effDrydownNotice at ht
  generalize receive rx (.drydownNotice a w) s = p at hrx hfollow ht
  obtain ⟨ok, s'⟩ := p
  rw [hlink] at ht
  dsimp -zeta only at hrx hfollow ht
  obtain ⟨-, htwo', hneigh'⟩ : (linkGet s' k).phyUp = (linkGet s k).phyUp ∧ (linkGet s' k).twoWay = (linkGet s k).twoWay ∧
      (linkGet s' k).neigh = (linkGet s k).neigh := by simpa only [linkUse, Prod.mk.injEq] using hfollow.use
  have hintra := isIntra_of_use hfollow.use hfollow.zone
  rw [if_neg (by simp [hrx]), if_neg hP] at ht
  extract_lets intra s1 _ s2 at ht
  obtain ⟨-, hcount, hlatch⟩ := loseTwoWay_loses (htwo'.trans htwo)
  have hcount1 : Counted (aLINK k 0x28) s s1 := counted_of_same hcount hfollow.losses
  have htwo1 : (linkGet s1 k).twoWay = false := (loseTwoWay_spec k s').1.1
  have hview1 : s1.fab.view = s.fab.view := by
    rw [← hfollow.view rfl]
    show (loseTwoWay k s').fab.view = _
    rw [loseTwoWay_of_twoWay (htwo'.trans htwo)]
    rfl
  have hzone1 : ownZone s1 = ownZone s := by
    rw [← hfollow.zone]
    show ownZone (loseTwoWay k s') = _
    rw [loseTwoWay_of_twoWay (htwo'.trans htwo)]
    rfl
  have h2 : Follows true k s1 s2 := by
    show Follows true k s1 (if peerDst s1 = some a then _ else s1)
    split
    · exact follows_frame (.refl _ _ s1) rfl rfl rfl rfl (fun _ => rfl)
    · exact .refl _ _ s1
  have h2' : Follows false k s1 s2 := ⟨h2.use, h2.zone, h2.latched, h2.losses, fun e => Bool.noConfusion e⟩
  have hview2 : s2.fab.view = s.fab.view := (h2.view rfl).trans hview1
  have hrest : ∀ t, Follows false k s1 t → (linkGet t k).twoWay = false ∧ Latched aFAB_EVENT 0 t ∧ Counted (aLINK k 0x28) s t := by
    intro t ht
    refine ⟨?_, ht.latched _ _ hlatch, ?_⟩
    · rw [← htwo1]; exact congrArg (·.2.1) ht.use
    · unfold Counted at hcount1 ⊢
      rw [ht.losses, hcount1]
  split at ht <;> subst ht
  next hi =>
    have hi' : isIntra s k = true := by
      rw [← hintra]
      exact (Bool.and_eq_true_iff.1 hi).1
    obtain ⟨hdown, hl, hc⟩ := hrest _ (follows_installView (s := { s2 with fab := { s2.fab with fwd := tabDel s2.fab.fwd (memberOf a).toNat } })
      (follows_frame h2' rfl rfl rfl rfl (fun _ => rfl)) (s2.fab.view.filter (fun x => x ≠ a)))
    refine ⟨hdown, fun _ _ _ _ _ => ?_, fun hno => ?_, hl, hc⟩
    · rw [(installView_frame _ _).1]
      refine ⟨fun hm => ?_, fun b hb => ?_⟩
      · exact absurd rfl (of_decide_eq_true (List.mem_filter.1 hm).2)
      · rw [← hview2]; exact (List.mem_filter.1 hb).1
    · rw [hi'] at hno; cases hno
  next hi =>
    obtain ⟨hdown, hl, hc⟩ := hrest _ (follows_refreshRemote
      (s := { s2 with fab := { s2.fab with zpaths := s2.fab.zpaths.filter (fun p => p.neigh ≠ a) } })
      (follows_frame h2' rfl rfl rfl rfl (fun _ => rfl)))
    refine ⟨hdown, fun n hin hn hna hnu => ?_, fun _ b hb hz => ?_, hl, hc⟩
    · refine absurd ?_ hi
      show (isIntra s' k && _) = true
      rw [hintra, hin, hneigh', hn]
      simp [hna, hnu]
    · refine refreshRemote_keeps_own ?_ ?_
      · show b ∈ s2.fab.view
        rw [hview2]; exact hb
      · show zoneOf b = ownZone s2
        rw [h2.zone, hzone1]; exact hz

theorem drydownNotice_ends {s : State} {k : Link} {rx : Rx} {a : Addr} {w : Word} (hlink : rx.link = some k) (hP : k ≠ linkP)
    (hrx : (receive rx (.drydownNotice a w) s).1 = true) (htwo : (linkGet s k).twoWay = true) :
    Does (.drydownNotice rx a w) s (fun t => (linkGet t k).twoWay = false ∧
      (∀ n, isIntra s k = true → (linkGet s k).neigh = some n → n.addr = a → n.unaddr = false →
        a ∉ t.fab.view ∧ ∀ b ∈ t.fab.view, b ∈ s.fab.view) ∧
      (isIntra s k = false → ∀ b ∈ s.fab.view, zoneOf b = ownZone s → b ∈ t.fab.view) ∧
      Latched aFAB_EVENT 0 t ∧ Counted (aLINK k 0x28) s t) :=
  ⟨_, rfl, effDrydownNotice_ends hlink hP hrx htwo rfl⟩

end Sys2Proof.Proofs

/-! O42, the rest (R14, R258, R260, R261, R278, R279): the order of transmission, frames dropped for their age, frames that go on, and the
statement as a whole. -/
namespace Sys2Proof.Proofs

open Sys2Proof.Machine Sys2Proof.Laws

/-! LINK_FRAME_END (R279, Table 11.7). -/

theorem pickFrame_urgent {l : LinkSt} {u : QFrame} {r : List QFrame} (now : Nat) (h : l.urgent = u :: r) :
    let p := pickFrame l now
    p.1 = some u ∧ p.2.urgent = r ∧ p.2.routine = l.routine ∧ p.2.data = l.data := by
  simp [pickFrame, h]

theorem pickFrame_routine {l : LinkSt} {u : QFrame} {r : List QFrame} (now : Nat) (hu : l.urgent = []) (h : l.routine = u :: r) :
    let p := pickFrame l now
    p.1 = some u ∧ p.2.routine = r ∧ p.2.data = l.data ∧ p.2.mgmt = l.mgmt := by
  simp [pickFrame, hu, h]

theorem pickFrame_data {l : LinkSt} {u : QFrame} {r : List QFrame} (now : Nat) (hu : l.urgent = []) (hr : l.routine = [])
    (hm : l.mgmt = []) (h : l.data = u :: r) : (pickFrame l now).1 = some u ∧ (pickFrame l now).2.data = r := by
  simp [pickFrame, hu, hr, hm, h]

theorem atEgress_congr {s t : State} (hf : t.fab = s.fab) (hc : t.clock = s.clock) : atEgress t = atEgress s := by
  funext q
  unfold atEgress fabNs
  rw [hf, hc]

/-- The state after the end of a frame on the wire: it is counted, and an urgent one that stayed too long too (R280). -/
def wireEnd (k : Link) (q : QFrame) (s : State) : State :=
  if q.frame.hdr.plane = 0 ∧ q.frame.hdr.cls = 0 ∧ s.clock - q.at_ > 110000 then
    latch aFAB_EVENT 8 (bump aFAB_RES_OVER (bump (aLINK k 0x10) s))
  else bump (aLINK k 0x10) s

theorem wireEnd_counts (k : Link) (q : QFrame) (s : State) :
    (wireEnd k q s).fab = s.fab ∧ (wireEnd k q s).clock = s.clock ∧ Counted (aLINK k 0x10) s (wireEnd k q s) := by
  have hcount := counted_bump s (aLINK k 0x10)
  have hover : Counted (aLINK k 0x10) s (bump aFAB_RES_OVER (bump (aLINK k 0x10) s)) :=
    counted_bump_of_other hcount (aLINK_ne (by decide) (by decide))
  unfold wireEnd
  split
  · exact ⟨by simp, by simp, Counted.congr hover rfl rfl⟩
  · exact ⟨by simp, by simp, hcount⟩

/-- The frame on the wire is counted, and the next one by the order of the queues takes its place. -/
theorem linkFrameEnd_picks {s t : State} {k : Link} {q : QFrame} (hp : (linkGet s k).phyUp = true) (hq : (linkGet s k).onWire = some q)
    (ht : effLinkFrameEnd k s = t) : ∃ u sent, u.fab = s.fab ∧ Counted (aLINK k 0x10) s u ∧
      t = linkMod k (fun _ => { (pickFrame (linkGet s k) s.clock).2 with
        onWire := (pickFrame (linkGet s k) s.clock).1.map (atEgress s), helloSent := sent }) u := by
  unfold effLinkFrameEnd at ht
  extract_lets l u0 u at ht
  have hu : u = wireEnd k q s := by
    simp only [u, l, hq]
    rfl
  obtain ⟨hf, hc, hcount⟩ := wireEnd_counts k q s
  rw [← hu] at hf hc hcount
  clear_value u
  rw [if_neg (by simp [l, hp]), linkGet_of_fab hf, hc, atEgress_congr hf hc] at ht
  generalize pickFrame (linkGet s k) s.clock = p at ht ⊢
  obtain ⟨q', l'⟩ := p
  exact ⟨u, _, hf, hcount, ht.symm⟩

theorem linkFrameEnd_order {s : State} {k : Link} {q : QFrame} (hp : (linkGet s k).phyUp = true) (hq : (linkGet s k).onWire = some q) :
    Does (.linkFrameEnd k) s (fun t => Counted (aLINK k 0x10) s t ∧ OthersStand k s t ∧
      (∀ u r, (linkGet s k).urgent = u :: r → (linkGet t k).urgent = r ∧ (linkGet t k).routine = (linkGet s k).routine ∧
        (linkGet t k).data = (linkGet s k).data ∧ (linkGet t k).onWire = some (atEgress s u)) ∧
      (∀ u r, (linkGet s k).urgent = [] → (linkGet s k).routine = u :: r → (linkGet t k).routine = r ∧
        (linkGet t k).data = (linkGet s k).data ∧ (linkGet t k).mgmt = (linkGet s k).mgmt ∧ (linkGet t k).onWire = some (atEgress s u)) ∧
      (∀ u r, (linkGet s k).urgent = [] → (linkGet s k).routine = [] → (linkGet s k).mgmt = [] → (linkGet s k).data = u :: r →
        (linkGet t k).data = r ∧ (linkGet t k).onWire = some (atEgress s u))) := by
  obtain ⟨v, sent, hf, hcount, e⟩ := linkFrameEnd_picks hp hq rfl
  refine ⟨_, rfl, ?_⟩
  dsimp only
  rw [e, linkGet_linkMod_same]
  refine ⟨hcount, fun j hj => ?_, fun u r hu => ?_, fun u r hu hr => ?_, fun u r hu hr hm hd => ?_⟩
  · rw [linkGet_linkMod_other _ _ hj, linkGet_of_fab hf]
  · obtain ⟨h1, h2, h3, h4⟩ := pickFrame_urgent s.clock hu
    exact ⟨h2, h3, h4, by rw [h1]; rfl⟩
  · obtain ⟨h1, h2, h3, h4⟩ := pickFrame_routine s.clock hu hr
    exact ⟨h2, h3, h4, by rw [h1]; rfl⟩
  · obtain ⟨h1, h2⟩ := pickFrame_data s.clock hu hr hm hd
    exact ⟨h2, by rw [h1]; rfl⟩

/-! FRAME_AGE_DROP (R278). -/

theorem txQueue_setTxQueue_same (q : TxQueue) (x : List QFrame) (l : LinkSt) : txQueue (setTxQueue q x l) q = x := by
  cases q <;> rfl

theorem txQueue_setTxQueue_other {p q : TxQueue} (x : List QFrame) (l : LinkSt) (h : p ≠ q) :
    txQueue (setTxQueue q x l) p = txQueue l p := by
  revert h
  cases q <;> cases p <;> simp [txQueue, setTxQueue]

theorem frameAgeDrop_tx {s : State} {k : Link} {q : TxQueue} {u : QFrame} {r : List QFrame} (h : txQueue (linkGet s k) q = u :: r) :
    Does (.frameAgeDrop k q false) s (fun t => txQueue (linkGet t k) q = r ∧
      (∀ p, p ≠ q → txQueue (linkGet t k) p = txQueue (linkGet s k) p) ∧ OthersStand k s t ∧ Counted aFAB_AGE_DROP s t) := by
  refine ⟨_, rfl, ?_⟩
  simp only [effFrameAgeDrop, h, Bool.false_eq_true, if_false, linkGet_bump, linkGet_linkMod_same]
  exact ⟨txQueue_setTxQueue_same _ _ _, fun p hp => txQueue_setTxQueue_other _ _ hp, othersStand_linkMod _ _ _,
    Counted.congr (counted_bump (linkMod k _ s) _) rfl rfl⟩

theorem frameAgeDrop_rx {s : State} {k : Link} {q : TxQueue} {u : RxFrame} {r : List RxFrame} (h : rxQueue (linkGet s k) q = u :: r) :
    Does (.frameAgeDrop k q true) s (fun t => linkGet t k = setRxQueue q r (linkGet s k) ∧ OthersStand k s t ∧ Counted aFAB_AGE_DROP s t) := by
  refine ⟨_, rfl, ?_⟩
  simp only [effFrameAgeDrop, h, if_true, linkGet_bump, linkGet_linkMod_same]
  exact ⟨trivial, othersStand_linkMod _ _ _, Counted.congr (counted_bump (linkMod k _ s) _) rfl rfl⟩

theorem frameAgeDrop_empty {s : State} {k : Link} (q : TxQueue) :
    (txQueue (linkGet s k) q = [] → Does (.frameAgeDrop k q false) s (fun t => t = s)) ∧
      (rxQueue (linkGet s k) q = [] → Does (.frameAgeDrop k q true) s (fun t => t = s)) := by
  refine ⟨fun h => ⟨_, rfl, ?_⟩, fun h => ⟨_, rfl, ?_⟩⟩ <;> simp [effFrameAgeDrop, h]

/-! The checks of a frame that comes in (R258, R261). -/

theorem rxCheck_of_badFcs {k : Link} {rx : Rx} (b : Body) {s : State} (h : rx.fcsOk = false) :
    rxCheck k rx b s = (false, bump (aLINK k 0x18) s) := by
  unfold rxCheck
  rw [if_pos (by simp [h])]

theorem rxCheck_of_badHdr {k : Link} {rx : Rx} (b : Body) {s : State} (hf : rx.fcsOk = true)
    (h : rx.etherOk = false ∨ rx.hdr.ver ≠ 1 ∨ hdrOk rx.hdr = false) :
    rxCheck k rx b s = (false, bump aFAB_BAD_HDR (bump (aLINK k 0x14) s)) := by
  unfold rxCheck
  rw [if_neg (by simp [hf])]
  extract_lets u hd lim
  rw [if_pos (by rcases h with h | (h : ¬ rx.hdr.ver = 1#4) | h <;> simp [show hd = rx.hdr from rfl, h])]

theorem rxCheck_of_good {k : Link} {rx : Rx} {b : Body} {s : State} (h : (rxCheck k rx b s).1 = true) :
    rxCheck k rx b s = (true, bump (aLINK k 0x14) s) := by
  unfold rxCheck at h ⊢
  split at h
  · cases h
  next hf =>
    rw [if_neg hf]
    extract_lets at h ⊢
    split at h
    · cases h
    next hh => rw [if_neg hh]

/-! FRAME_FORWARD (R260). -/

section
variable {s : State} {k : Link} {rx : Rx} {b : Body} (hlink : rx.link = some k) (htake : s.taking = none)
include hlink htake

theorem frameForward_off (hoff : linkOn s k = false) : effFrameForward rx b s = s := by
  unfold effFrameForward receiveAs
  rw [hlink]
  simp [htake, hoff]

theorem frameForward_bad (hon : linkOn s k = true) {u : State} (hc : rxCheck k rx b s = (false, u)) : effFrameForward rx b s = u := by
  unfold effFrameForward receiveAs
  rw [hlink]
  simp [htake, hon, hc]

variable (hon : linkOn s k = true) (hgood : (rxCheck k rx b s).1 = true)
include hon hgood

theorem frameForward_waits (hw : rx.waits = true) :
    effFrameForward rx b s = holdRx k rx.hdr (.frameForward rx b) (bump (aLINK k 0x14) s) := by
  unfold effFrameForward receiveAs
  rw [hlink]
  simp [htake, hon, rxCheck_of_good hgood, hw]

theorem frameForward_goes (hw : rx.waits = false) (hq : rxQueue (linkGet s k) (queueOf rx.hdr) = []) :
    effFrameForward rx b s = (accept k rx b (useZone (bump (aLINK k 0x14) s))).2 := by
  unfold effFrameForward receiveAs
  rw [hlink]
  simp [htake, hon, rxCheck_of_good hgood, hw, hq]

end

/-! What a route reads: the fabric, the configuration and the own zone. -/

section
variable {s t : State} (hf : t.fab = s.fab) (hc : t.cfg = s.cfg) (hz : ownZone t = ownZone s)
include hf hz

theorem ownAddr_congr : ownAddr t = ownAddr s := by
  unfold ownAddr
  rw [hf, hz]

include hc

theorem isBorder_congr (k : Link) : isBorder t k = isBorder s k := by
  unfold isBorder linkGet
  rw [hf, hc, hz]

theorem isMismatch_congr (k : Link) : isMismatch t k = isMismatch s k := by
  unfold isMismatch
  rw [isBorder_congr hf hc hz, isIntra_of_use (by rw [linkGet_of_fab hf]) hz, linkGet_of_fab hf]

theorem linkTo_congr (a : Addr) : linkTo t a = linkTo s a := by
  unfold linkTo
  simp only [isBorder_congr hf hc hz, linkGet_of_fab hf]

theorem routeTo_congr (a : Addr) : routeTo t a = routeTo s a := by
  unfold routeTo exitsNow
  simp only [linkTo_congr hf hc hz, ownAddr_congr hf hz, hf, hz]

end

/-- The state in which a frame that came in whole goes on: it is counted on its link, and the zone is used. -/
def arrived (k : Link) (s : State) : State := useZone (bump (aLINK k 0x14) s)

theorem arrived_frame (k : Link) (s : State) : (arrived k s).fab = s.fab ∧ (arrived k s).cfg = s.cfg ∧ (arrived k s).clock = s.clock ∧
    ownZone (arrived k s) = ownZone s := by
  obtain ⟨hf, hc, hk, -⟩ := voteUse_frame aFAB_ADDR 0x0A0000 (bump (aLINK k 0x14) s)
  exact ⟨hf, hc, hk, ownZone_useZone _⟩

theorem ctrGet_arrived_other (k : Link) (s : State) {a : Nat} (h : a ≠ aECC_VOTE_FIX) (hk : a ≠ aLINK k 0x14) :
    ctrGet (arrived k s) a = ctrGet s a :=
  (ctrGet_voteUse_other _ _ _ h).trans (ctrGet_bump_other _ _ _ hk)

/-- A vote acts alike whatever the counters hold. -/
theorem voteUse_ctr (a base : Nat) (c : Tab Word) (s : State) :
    ∃ c', voteUse a base { s with ctr := c } = { voteUse a base s with ctr := c' } := by
  unfold voteUse
  dsimp only
  by_cases h1 : triAgrees a (triGet s a) = true
  · exact ⟨c, (if_pos h1).trans (by rw [if_pos h1])⟩
  · by_cases h2 : (agrees (triMask a) (triGet s a) (triGet s a).a || agrees (triMask a) (triGet s a) (triGet s a).b ||
        agrees (triMask a) (triGet s a) (triGet s a).c) = true
    · exact ⟨_, (if_neg h1).trans ((if_pos h2).trans (by rw [if_neg h1, if_pos h2]; rfl))⟩
    · by_cases h3 : s.sys.voteFail.isSome = true
      · exact ⟨c, (if_neg h1).trans ((if_neg h2).trans ((if_pos h3).trans (by rw [if_neg h1, if_neg h2, if_pos h3])))⟩
      · exact ⟨c, (if_neg h1).trans ((if_neg h2).trans ((if_neg h3).trans (by rw [if_neg h1, if_neg h2, if_neg h3]; rfl)))⟩

theorem arrived_eq (k : Link) (s : State) : ∃ c, arrived k s = { useZone s with ctr := c } := voteUse_ctr _ _ _ s

theorem accept_forwards {k : Link} {rx : Rx} {b : Body} {s : State} (hP : k ≠ linkP) (hm : isMismatch s k = false)
    (hg : rx.hdr.group = false) (hd : rx.hdr.dst ≠ ownAddr s) : (accept k rx b s).2 = forwardUni rx.hdr b s := by
  unfold accept
  simp [hP, hm, isLocal, isFlood, hg, forUs, hd]

section
variable {s : State} {k : Link} {rx : Rx} {b : Body} (hP : k ≠ linkP) (hm : isMismatch s k = false) (hg : rx.hdr.group = false)
  (hd : rx.hdr.dst ≠ ownAddr s)
include hP hm hg hd

/-- A frame for another node is forwarded. -/
theorem accept_arrived : (accept k rx b (arrived k s)).2 = forwardUni rx.hdr b (arrived k s) := by
  obtain ⟨hf, hc, -, hz⟩ := arrived_frame k s
  exact accept_forwards hP ((isMismatch_congr hf hc hz k).trans hm) hg (by rw [ownAddr_congr hf hz]; exact hd)

variable (haddr : s.fab.addressed = true)
include haddr

/-- At 63 hops it is dropped and counted. -/
theorem accept_drops (h63 : rx.hdr.hops = 63) : (accept k rx b (arrived k s)).2 = bump aFAB_HOP_DROP (arrived k s) := by
  rw [accept_arrived hP hm hg hd]
  unfold forwardUni
  rw [if_neg (by simp [(arrived_frame k s).1, haddr]), if_pos h63]

/-- Else it joins the urgent queue of the link its route leaves on, with HOPS raised. -/
theorem accept_sends (h63 : rx.hdr.hops ≠ 63) (hp : rx.hdr.plane = 0) (hcls : rx.hdr.cls = 0) {j : Link}
    (hj : routeTo s rx.hdr.dst = some j) (hroom : (linkGet s j).urgent.length < 16) :
    (linkGet (accept k rx b (arrived k s)).2 j).urgent =
      (linkGet s j).urgent ++ [⟨⟨{ rx.hdr with hops := rx.hdr.hops + 1 }, b⟩, s.clock, true⟩] := by
  obtain ⟨hf, hc, hk, hz⟩ := arrived_frame k s
  rw [accept_arrived hP hm hg hd]
  unfold forwardUni
  rw [if_neg (by simp [hf, haddr]), if_neg h63, routeTo_congr hf hc hz, hj]
  dsimp only
  rw [enqueue_urgent true hp hcls (by rw [linkGet_of_fab hf]; exact hroom), linkGet_linkMod_same, linkGet_of_fab hf, hk]

end

theorem holdRx_of_room {k : Link} {hd : FabHdr} {c : Instr} {s : State} (h : (rxQueue (linkGet s k) (queueOf hd)).length < queueRoom (queueOf hd)) :
    holdRx k hd c s =
      linkMod k (setRxQueue (queueOf hd) (rxQueue (linkGet s k) (queueOf hd) ++ [⟨c, s.clock⟩])) s := by
  unfold holdRx
  dsimp only
  rw [if_neg (by omega)]

/-- The counter of frames that ran out of hops rises by this frame alone. -/
theorem counted_hopDrop (k : Link) (s : State) : Counted aFAB_HOP_DROP s (bump aFAB_HOP_DROP (arrived k s)) :=
  counted_of_same (counted_bump _ _) (ctrGet_arrived_other k s (by decide) (aLINK_ne (by decide) (by decide)).symm)

/-- Settles O42. -/
theorem linksComeUpAndCarryFrames : Obligations.LinksComeUpAndCarryFrames := by
  intro s k l others
  refine ⟨phyUp_raises, phyUp_nothing, phyDown_lowers, helloSend_queues, fun rx m => hello_makesTwoWay, neighbourTimeout_ends,
    fun h => ⟨_, rfl, loseTwoWay_of_not h⟩, linkAlone_marks, fun rx a w => drydownNotice_ends, fun q => linkFrameEnd_order,
    fun q u r => frameAgeDrop_tx, fun q u r => frameAgeDrop_rx, frameAgeDrop_empty, fun rx b hlink htake => ?_⟩
  intro good passes
  refine ⟨fun hoff => ⟨_, rfl, frameForward_off hlink htake hoff⟩, fun hon hfcs => ⟨_, rfl, ?_⟩, fun hon hfcs hbad => ⟨_, rfl, ?_⟩,
    fun ⟨hon, hgood⟩ hw hroom => ⟨_, rfl, ?_⟩, ?_, ?_⟩
  · rw [frameForward_bad hlink htake hon (rxCheck_of_badFcs b hfcs)]
    exact ⟨counted_bump _ _, rfl⟩
  · rw [frameForward_bad hlink htake hon (rxCheck_of_badHdr b hfcs hbad)]
    exact ⟨counted_of_same (counted_bump _ _) (ctrGet_bump_other _ _ _ (aLINK_ne (by decide) (by decide)).symm), rfl⟩
  · rw [frameForward_waits hlink htake hon hgood hw, holdRx_of_room (s := bump (aLINK k 0x14) s) hroom]
    exact ⟨linkGet_linkMod_same _ _ _, othersStand_linkMod _ _ _⟩
  · rintro ⟨⟨hon, hgood⟩, hw, hq, hP, hm, hg, haddr, hd⟩ h63
    refine ⟨_, rfl, ?_⟩
    rw [frameForward_goes hlink htake hon hgood hw hq, show useZone (bump (aLINK k 0x14) s) = arrived k s from rfl,
      accept_drops hP hm hg hd haddr h63]
    refine ⟨counted_hopDrop k s, ?_⟩
    obtain ⟨c, e⟩ := arrived_eq k s
    rw [e]
    rfl
  · rintro j ⟨⟨hon, hgood⟩, hw, hq, hP, hm, hg, haddr, hd⟩ h63 hp hcls hj hroom
    refine ⟨_, rfl, ?_⟩
    rw [frameForward_goes hlink htake hon hgood hw hq]
    exact accept_sends hP hm hg hd haddr h63 hp hcls hj hroom

end Sys2Proof.Proofs

/-! O14 (R20, R42, R86): the record of a block, and the removal of the Flacon from a running node. -/
namespace Sys2Proof.Proofs

open Sys2Proof.Machine Sys2Proof.Laws

/-! A block record (R20): what it offers, and what a full event queue adds to. -/

section
variable (sev : BitVec 2) (base r : Nat) (l : List Word) (s : State)

theorem offered_blockRec : Offered 0x10 sev s (blockRec sev base r l s) := offered_emit ..

theorem rsqGet_blockRec_other {a : Nat} (h : a ≠ aLOG_EVENT) : rsqGet (blockRec sev base r l s) a = rsqGet s a :=
  rsqGet_emit_other _ _ _ _ _ _ _ h

theorem ctrGet_blockRec_other {a : Nat} (h : a ≠ aEVQ_LOST) : ctrGet (blockRec sev base r l s) a = ctrGet s a :=
  ctrGet_emit_other _ _ _ _ _ _ _ h

/-- A block record changes the event queue and what a full one adds to, and leaves the rest of the state as it is. -/
theorem blockRec_frame : blockRec sev base r l s =
    { s with rsq := (blockRec sev base r l s).rsq, ctr := (blockRec sev base r l s).ctr,
             rcd := { s.rcd with queue := (blockRec sev base r l s).rcd.queue, lostSince := (blockRec sev base r l s).rcd.lostSince } } := by
  unfold blockRec emit
  split <;> rfl

end

/-! FLACON_REMOVED (R86). -/

/-- The Flacon has just left its socket, and FLACON_OUT waits for the end of the frame. -/
def flaconOut (s : State) : State := latch aSYS_EVENT 1 { s with flacon := { s.flacon with present := false } }

theorem flaconRemoved_running {s : State} (hrun : s.sys.phase = .running) (hin : s.flacon.present = true) :
    effFlaconRemoved s = blockRec 1 0x010000 aSYS_EVENT [] (flaconOut s) := by
  have hrun' : isRunning (flaconOut s) = true := by simp [isRunning, flaconOut, hrun]
  unfold effFlaconRemoved
  rw [hin]
  show whenS (isRunning (flaconOut s)) _ (flaconOut s) = _
  rw [hrun']
  rfl

/-- Settles O14: the removal is a change of the socket and one latch, then one block record, each with its own frame. -/
theorem flaconRemovalEffects : Obligations.FlaconRemovalEffects := by
  intro s hrun hin
  refine ⟨_, rfl, ?_⟩
  rw [flaconRemoved_running hrun hin]
  have hflacon : (blockRec 1 0x010000 aSYS_EVENT [] (flaconOut s)).flacon = (flaconOut s).flacon := by simp
  refine ⟨?flacon, ?latched, ?offered, ?frame, ?events, ?counters⟩
  case flacon => exact hflacon
  case latched =>
    unfold Latched
    rw [rsqGet_blockRec_other _ _ _ _ _ (by decide)]
    exact latched_latch _ aSYS_EVENT 1
  case offered => exact Offered.congr (offered_blockRec _ _ _ _ (flaconOut s)) rfl rfl rfl
  case frame =>
    rw [hflacon]
    exact blockRec_frame ..
  case events =>
    intro a hsys hlog
    rw [rsqGet_blockRec_other _ _ _ _ _ hlog]
    exact (rsqGet_latch _ _ _ _).trans (if_neg hsys)
  case counters =>
    intro a hlost
    exact ctrGet_blockRec_other _ _ _ _ _ hlost

end Sys2Proof.Proofs

/-! What taking a frame leaves alone (R258 to R261, R286): all of the state but the fabric, the counters, the latched events and the
triplicated words that are voted. -/
namespace Sys2Proof.Proofs

open Sys2Proof.Machine Sys2Proof.Laws

/-- The state without what taking and forwarding frames can change. -/
def offFabric (s : State) : State :=
  { s with fab := {}, tri := [], ctr := [], rsq := [], sys := { s.sys with voteFail := none } }

@[simp] theorem offFabric_bump (a : Nat) (s : State) : offFabric (bump a s) = offFabric s := rfl
@[simp] theorem offFabric_latch (a n : Nat) (s : State) : offFabric (latch a n s) = offFabric s := rfl
@[simp] theorem offFabric_linkMod (k : Link) (f : LinkSt → LinkSt) (s : State) : offFabric (linkMod k f s) = offFabric s := rfl

@[simp] theorem offFabric_voteUse (a base : Nat) (s : State) : offFabric (voteUse a base s) = offFabric s := by
  rcases voteUse_cases a base s with e | e | ⟨f, e⟩ <;> rw [e] <;> rfl

@[simp] theorem offFabric_useZone (s : State) : offFabric (useZone s) = offFabric s := offFabric_voteUse _ _ s

@[simp] theorem offFabric_enqueue (k : Link) (f : Frame) (fwd : Bool) (s : State) : offFabric (enqueue k f fwd s) = offFabric s := by
  simp only [enqueue, apply_ite offFabric, offFabric_bump, offFabric_linkMod, ite_self]

@[simp] theorem offFabric_floodOut (but : Option Link) (f : Frame) (fwd : Bool) (s : State) :
    offFabric (floodOut but f fwd s) = offFabric s :=
  eachS_proj offFabric _ _ s (fun k t => offFabric_enqueue k f fwd t)

@[simp] theorem offFabric_forwardUni (h : FabHdr) (b : Body) (s : State) : offFabric (forwardUni h b s) = offFabric s := by
  unfold forwardUni
  cases routeTo s h.dst <;> simp only [apply_ite offFabric, offFabric_bump, offFabric_enqueue, ite_self]

@[simp] theorem offFabric_forwardFlood (k : Link) (h : FabHdr) (b : Body) (s : State) :
    offFabric (forwardFlood k h b s) = offFabric s := by
  simp only [forwardFlood, apply_ite offFabric, offFabric_bump, offFabric_floodOut, ite_self]

@[simp] theorem offFabric_holdRx (k : Link) (h : FabHdr) (c : Instr) (s : State) : offFabric (holdRx k h c s) = offFabric s := by
  simp only [holdRx, apply_ite offFabric, offFabric_bump, offFabric_linkMod, ite_self]

@[simp] theorem offFabric_dupCheck (key : Word) (st : BitVec 12) (q : BitVec 16) (s : State) :
    offFabric (dupCheck key st q s).2 = offFabric s := by
  unfold dupCheck
  dsimp only
  split
  · rfl
  split
  · split
    · split <;> rfl
    · rfl
  · split
    · rfl
    · split
      · split <;> rfl
      · rfl

@[simp] theorem offFabric_rxCheck (k : Link) (rx : Rx) (b : Body) (s : State) : offFabric (rxCheck k rx b s).2 = offFabric s := by
  simp only [rxCheck, apply_ite Prod.snd, apply_ite offFabric, offFabric_bump, ite_self]

@[simp] theorem offFabric_accept (k : Link) (rx : Rx) (b : Body) (s : State) : offFabric (accept k rx b s).2 = offFabric s := by
  simp only [accept, apply_ite Prod.snd, apply_ite offFabric, offFabric_dupCheck, offFabric_forwardFlood, offFabric_forwardUni, ite_self]

@[simp] theorem offFabric_receiveAs (cmd : Option Instr) (rx : Rx) (b : Body) (s : State) :
    offFabric (receiveAs cmd rx b s).2 = offFabric s := by
  unfold receiveAs
  split
  · exact offFabric_dupCheck _ _ _ s
  next k _ =>
    split
    · rw [offFabric_accept, offFabric_useZone]
    · split
      · rfl
      · have hc := offFabric_rxCheck k rx b s
        generalize rxCheck k rx b s = p at hc ⊢
        dsimp only
        split
        · exact hc
        · split
          · rw [offFabric_holdRx, hc]
          · rw [offFabric_accept, offFabric_useZone, hc]

/-- A frame that the node takes, forwards or drops leaves all but the fabric as it was. -/
theorem offFabric_receive (rx : Rx) (b : Body) (s : State) : offFabric (receive rx b s).2 = offFabric s := offFabric_receiveAs _ rx b s

/-- What reads nothing of the fabric reads the same after it. -/
theorem eq_of_offFabric {α : Type} {s t : State} (f : State → α) (hf : ∀ u, f (offFabric u) = f u) (h : offFabric t = offFabric s) :
    f t = f s :=
  (hf t).symm.trans ((congrArg f h).trans (hf s))

end Sys2Proof.Proofs

/-! O30 (R50, R174 to R176): the commands of an output, and their lack. -/
namespace Sys2Proof.Proofs

open Sys2Proof.Machine Sys2Proof.Laws

/-! One output after a change of one output. -/

theorem dout_doMod (k j : Fin 16) (f : DoSt → DoSt) (s : State) : dout (doMod k f s) j = if j = k then f (dout s k) else dout s j := by
  show (s.io.dos.set k.val (f s.io.dos[k]))[j.val] = _
  rw [Vector.getElem_set]
  by_cases h : j = k
  · subst h; rw [if_pos rfl, if_pos rfl]; rfl
  · rw [if_neg (fun e => h (Fin.ext e.symm)), if_neg h]; rfl

@[simp] theorem dout_doMod_same (k : Fin 16) (f : DoSt → DoSt) (s : State) : dout (doMod k f s) k = f (dout s k) := by
  rw [dout_doMod, if_pos rfl]

theorem dout_doMod_other {k j : Fin 16} (f : DoSt → DoSt) (s : State) (h : j ≠ k) : dout (doMod k f s) j = dout s j := by
  rw [dout_doMod, if_neg h]

@[simp] theorem dout_latch (a n : Nat) (s : State) (k : Fin 16) : dout (latch a n s) k = dout s k := rfl

@[simp] theorem dout_useFail (k j : Fin 16) (s : State) : dout (useFail k s) j = dout s j :=
  eq_of_offFabric (dout · j) (fun _ => rfl) (offFabric_voteUse _ _ s)

theorem regGet_useFail (k : Fin 16) (s : State) (a : Nat) : regGet (useFail k s) a = regGet s a :=
  eq_of_offFabric (regGet · a) (fun _ => rfl) (offFabric_voteUse _ _ s)

theorem poisoned_useFail (k : Fin 16) (s : State) (a : Nat) : poisoned (useFail k s) a = poisoned s a :=
  eq_of_offFabric (poisoned · a) (fun _ => rfl) (offFabric_voteUse _ _ s)

/-- A vote forgets no event. -/
theorem latched_voteUse {a : Nat} {x : Fin 24} {s : State} (h : Latched a x s) (b base : Nat) :
    Latched a x (voteUse b base s) := by
  rcases voteUse_cases b base s with e | e | ⟨f, e⟩ <;> rw [e]
  · exact h
  · exact Latched.latch (Latched.congr h rfl) _ _
  · exact Latched.congr h rfl

/-! The diagnostics that end as a switch turns (Table 7.5). -/

/-- An output apart from the diagnostics that end as its switch turns. -/
def undiagnosed (d : DoSt) : DoSt := { d with limit := false, openOn := false, openOff := false, extDrive := false }

theorem eq_of_undiagnosed {d e : DoSt} (h : undiagnosed d = undiagnosed e) :
    d.cmd = e.cmd ∧ d.cmdAt = e.cmdAt ∧ d.stale = e.stale ∧ d.fix = e.fix := by
  simp only [undiagnosed, DoSt.mk.injEq] at h
  obtain ⟨hcmd, hat, hstale, -, -, -, -, -, -, -, -, hfix, -⟩ := h
  exact ⟨hcmd, hat, hstale, hfix⟩

/-- A refresh votes the fail state where it is in use, and changes diagnostics of its own output. -/
theorem doRefresh_eq (k : Fin 16) (s : State) : ∃ f, (∀ d, undiagnosed (f d) = undiagnosed d) ∧
    doRefresh k s = doMod k f (whenS (dout s k).stale (useFail k) s) := by
  unfold doRefresh
  dsimp only
  split
  · exact ⟨fun d => { d with openOff := false, extDrive := false }, fun _ => rfl, rfl⟩
  · exact ⟨fun d => { d with openOn := false, limit := false }, fun _ => rfl, rfl⟩

theorem whenS_of_both {P : State → Prop} {f : State → State} {s : State} (c : Bool) (h : P s) (hf : P (f s)) : P (whenS c f s) := by
  cases c
  · exact h
  · exact hf

/-- What the vote and a change of the output leave alone, a refresh leaves alone. -/
theorem doRefresh_proj {β : Type} (π : State → β) {k : Fin 16} {s : State} (hv : π (useFail k s) = π s)
    (hm : ∀ f t, π (doMod k f t) = π t) : π (doRefresh k s) = π s := by
  obtain ⟨f, -, e⟩ := doRefresh_eq k s
  rw [e, hm]
  exact whenS_of_both (P := fun t => π t = π s) _ rfl hv

theorem dout_doRefresh_other {k j : Fin 16} (s : State) (h : j ≠ k) : dout (doRefresh k s) j = dout s j :=
  doRefresh_proj (dout · j) (dout_useFail k j s) (fun f t => dout_doMod_other f t h)

theorem regGet_doRefresh (k : Fin 16) (s : State) (a : Nat) : regGet (doRefresh k s) a = regGet s a :=
  doRefresh_proj (regGet · a) (regGet_useFail k s a) (fun _ _ => rfl)

theorem poisoned_doRefresh (k : Fin 16) (s : State) (a : Nat) : poisoned (doRefresh k s) a = poisoned s a :=
  doRefresh_proj (poisoned · a) (poisoned_useFail k s a) (fun _ _ => rfl)

theorem voted_doRefresh (k : Fin 16) (s : State) (a : Nat) : voted (doRefresh k s) a = voted s a :=
  doRefresh_proj (voted · a) (voted_voteUse _ _ a s) (fun _ _ => rfl)

theorem undiagnosed_doRefresh (k : Fin 16) (s : State) : undiagnosed (dout (doRefresh k s) k) = undiagnosed (dout s k) := by
  obtain ⟨f, hf, e⟩ := doRefresh_eq k s
  rw [e, dout_doMod_same, hf]
  exact whenS_of_both (P := fun t => undiagnosed (dout t k) = _) _ rfl (by rw [dout_useFail])

theorem latched_doRefresh {a : Nat} {x : Fin 24} {s : State} (h : Latched a x s) (k : Fin 16) : Latched a x (doRefresh k s) := by
  obtain ⟨f, -, e⟩ := doRefresh_eq k s
  rw [e]
  exact whenS_of_both (P := fun t => Latched a x (doMod k f t)) _ (Latched.congr h rfl) (Latched.congr (latched_voteUse h _ _) rfl)

/-! OUTPUT_COMMAND (R175). -/

theorem commandOutput_effect (k : Fin 16) (on : Bool) (s : State) :
    (dout (commandOutput k on s) k).cmd = on ∧ (dout (commandOutput k on s) k).cmdAt = s.clock ∧
      (dout (commandOutput k on s) k).stale = false ∧ ∀ j, j ≠ k → dout (commandOutput k on s) j = dout s j := by
  have h : undiagnosed (dout (commandOutput k on s) k) = undiagnosed { dout s k with cmd := on, cmdAt := s.clock, stale := false } := by
    unfold commandOutput
    rw [undiagnosed_doRefresh, dout_doMod_same]
  obtain ⟨hcmd, hat, hstale, -⟩ := eq_of_undiagnosed h
  refine ⟨hcmd, hat, hstale, fun j hj => ?_⟩
  unfold commandOutput
  rw [dout_doRefresh_other _ hj, dout_doMod_other _ _ hj]

/-- A command that the fabric takes reaches an output of SOURCE 0b01 in a running unit that drives and does not pause. -/
theorem effOutputCommand_taken {s : State} {rx : Rx} {item : Word} {c : OutCommand}
    (hrx : (receive rx (.outputCommand item c) s).1 = true) (hrun : isRunning s = true) (hact : isActiveUnit s = true)
    (hpause : s.afe.pause = false) (hsrc : doSource s c.output = 1) :
    effOutputCommand rx item c s = commandOutput c.output c.on (receive rx (.outputCommand item c) s).2 := by
  have hoff := offFabric_receive rx (.outputCommand item c) s
  unfold effOutputCommand
  generalize receive rx (.outputCommand item c) s = p at hrx hoff ⊢
  dsimp only
  have hrun' : isRunning p.2 = true := (eq_of_offFabric isRunning (fun _ => rfl) hoff).trans hrun
  have hact' : isActiveUnit p.2 = true := (eq_of_offFabric isActiveUnit (fun _ => rfl) hoff).trans hact
  have hpause' : p.2.afe.pause = false := (eq_of_offFabric (·.afe.pause) (fun _ => rfl) hoff).trans hpause
  have hsrc' : doSource p.2 c.output = 1 := (eq_of_offFabric (doSource · c.output) (fun _ => rfl) hoff).trans hsrc
  exact if_pos (by simp only [hrx, hrun', hact', hpause', hsrc', Bool.not_false, Bool.and_self, decide_true])

/-! DO_STALE (R175, R176). -/

/-- The effective command of an output that has no command to follow is its fail state. -/
theorem doCmd_of_stale {s : State} {k : Fin 16} (hfix : (dout s k).fix ≠ .hold) (hund : poisoned s (aDO k 0) = false)
    (hsrc : doSource s k = 1) (hforce : doForced s k = false) (hstale : (dout s k).stale = true) :
    doCmd s k = if doFail s k = 0 then false else if doFail s k = 1 then true else (dout s k).cmd := by
  have hheld : ¬(decide ((dout s k).fix = .hold) && !doForced s k && decide (doSource s k ≠ 0)) = true := by
    simp only [hfix, decide_false, Bool.false_and, Bool.false_eq_true, not_false_eq_true]
  have hused : ¬doSource s k = 0 := by omega
  exact (if_neg hheld).trans ((if_neg (Bool.eq_false_iff.mp hund)).trans ((if_neg hused).trans
    ((if_neg (Bool.eq_false_iff.mp hforce)).trans (if_pos hstale))))

/-- DO_STALE (R175): the fail state is voted, STALE sets and is latched, and the switch follows. -/
def staled (k : Fin 16) (s : State) : State :=
  doRefresh k (latch (aDO k 0x1C) 6 (doMod k (fun d => { d with stale := true }) (useFail k s)))

theorem effDoStale_counts {s : State} {k : Fin 16} (hcounts : staleCounts s = true) (hsrc : doSource s k = 1)
    (hfresh : (dout s k).stale = false) : effDoStale k s = staled k s := by
  exact if_pos (by simp only [hcounts, hsrc, hfresh, Bool.not_false, Bool.and_self, decide_true])

theorem undiagnosed_staled (k : Fin 16) (s : State) :
    undiagnosed (dout (staled k s) k) = undiagnosed { dout s k with stale := true } := by
  unfold staled
  rw [undiagnosed_doRefresh, dout_latch, dout_doMod_same, dout_useFail]

/-- The configuration that the effective command reads, and the fail state, stand. -/
theorem staled_configuration (k : Fin 16) (s : State) : (∀ a, regGet (staled k s) a = regGet s a) ∧
    (∀ a, poisoned (staled k s) a = poisoned s a) ∧ ∀ a, voted (staled k s) a = voted s a :=
  ⟨fun a => (regGet_doRefresh k _ a).trans (regGet_useFail k s a), fun a => (poisoned_doRefresh k _ a).trans (poisoned_useFail k s a),
    fun a => (voted_doRefresh k _ a).trans (voted_voteUse _ _ a s)⟩

theorem doCmd_staled {s : State} {k : Fin 16} (hsrc : doSource s k = 1) (hforce : doForced s k = false) (hfix : (dout s k).fix ≠ .hold)
    (hund : poisoned s (aDO k 0) = false) :
    doCmd (staled k s) k = if doFail s k = 0 then false else if doFail s k = 1 then true else (dout s k).cmd := by
  obtain ⟨hreg, hpois, hvote⟩ := staled_configuration k s
  obtain ⟨hcmd, -, hstale, hfix'⟩ := eq_of_undiagnosed (undiagnosed_staled k s)
  have hfail : doFail (staled k s) k = doFail s k := by unfold doFail; rw [hvote]
  have hsrc' : doSource (staled k s) k = 1 := by unfold doSource doCfg; rw [hreg]; exact hsrc
  have hforce' : doForced (staled k s) k = false := by unfold doForced doForce; rw [hreg]; exact hforce
  rw [doCmd_of_stale (by rw [hfix']; exact hfix) ((hpois _).trans hund) hsrc' hforce' hstale, hfail, hcmd]

/-- Settles O30: a command reaches the output through a receipt that changes only the fabric; STALE changes, of what the effective
command reads, only itself, because a vote leaves the fail state that it reads. -/
theorem outputCommandsAndStale : Obligations.OutputCommandsAndStale := by
  intro s
  refine ⟨fun rx item c hrx hrun hact hpause hsrc => ⟨_, rfl, ?command⟩, fun k hcounts hsrc hfresh => ⟨_, rfl, ?stale⟩⟩
  case command =>
    have hoff := offFabric_receive rx (.outputCommand item c) s
    rw [effOutputCommand_taken hrx hrun hact hpause hsrc]
    obtain ⟨hcmd, hat, hstale, hother⟩ := commandOutput_effect c.output c.on (receive rx (.outputCommand item c) s).2
    exact ⟨hcmd, hat.trans (eq_of_offFabric State.clock (fun _ => rfl) hoff), hstale,
      fun j hj => (hother j hj).trans (eq_of_offFabric (dout · j) (fun _ => rfl) hoff)⟩
  case stale =>
    rw [effDoStale_counts hcounts hsrc hfresh]
    obtain ⟨-, -, hstale, -⟩ := eq_of_undiagnosed (undiagnosed_staled k s)
    exact ⟨hstale, latched_doRefresh (latched_latch _ _ 6) k, doCmd_staled hsrc⟩

end Sys2Proof.Proofs

/-! O27 (R164 to R167): one tick of the repeat outputs. -/
namespace Sys2Proof.Proofs

open Sys2Proof.Machine Sys2Proof.Laws

/-! One repeat output after a change of one. -/

theorem ar_arMod (k j : Fin 8) (f : ArSt → ArSt) (s : State) : ar (arMod k f s) j = if j = k then f (ar s k) else ar s j := by
  show (s.io.ars.set k.val (f s.io.ars[k]))[j.val] = _
  rw [Vector.getElem_set]
  by_cases h : j = k
  · subst h; rw [if_pos rfl, if_pos rfl]; rfl
  · rw [if_neg (fun e => h (Fin.ext e.symm)), if_neg h]; rfl

@[simp] theorem ar_arMod_same (k : Fin 8) (f : ArSt → ArSt) (s : State) : ar (arMod k f s) k = f (ar s k) := by
  rw [ar_arMod, if_pos rfl]

theorem ar_arMod_other {k j : Fin 8} (f : ArSt → ArSt) (s : State) (h : j ≠ k) : ar (arMod k f s) j = ar s j := by
  rw [ar_arMod, if_neg h]

/-- The state without what a tick of the repeat outputs changes: the outputs themselves, counts, latched events and drawn words. -/
def offRepeat (s : State) : State :=
  { s with io := { s.io with ars := Vector.replicate 8 {} }, ctr := [], rsq := [], fresh := 0 }

/-- What reads nothing that a tick changes reads the same after it. -/
theorem eq_of_offRepeat {α : Type} {s t : State} (f : State → α) (hf : ∀ u, f (offRepeat u) = f u) (h : offRepeat t = offRepeat s) :
    f t = f s :=
  (hf t).symm.trans ((congrArg f h).trans (hf s))

@[simp] theorem offRepeat_arMod (k : Fin 8) (f : ArSt → ArSt) (s : State) : offRepeat (arMod k f s) = offRepeat s := rfl
@[simp] theorem offRepeat_latch (a n : Nat) (s : State) : offRepeat (latch a n s) = offRepeat s := rfl

theorem offRepeat_whenS {f : State → State} (c : Bool) (s : State) (hf : offRepeat (f s) = offRepeat s) :
    offRepeat (whenS c f s) = offRepeat s :=
  whenS_of_both (P := fun t => offRepeat t = offRepeat s) c rfl hf

theorem ar_whenS {f : State → State} (c : Bool) (s : State) (k : Fin 8) (hf : ar (f s) k = ar s k) : ar (whenS c f s) k = ar s k :=
  whenS_of_both (P := fun t => ar t k = ar s k) c rfl hf

/-! The measurement (R167). -/

@[simp] theorem offRepeat_arMeasure (k : Fin 8) (ref out : Nat) (s : State) : offRepeat (arMeasure k ref out s) = offRepeat s := by
  unfold arMeasure
  dsimp only
  rw [offRepeat_arMod, offRepeat_whenS _ _ rfl, offRepeat_whenS _ _ rfl]

/-- A measurement sets REF_LOW and REF_HIGH, and leaves what the output drives by. -/
theorem ar_arMeasure (k : Fin 8) (ref out : Nat) (s : State) :
    (ar (arMeasure k ref out s) k).refLow = decide (ref < 900) ∧ (ar (arMeasure k ref out s) k).refHigh = decide (12500 < ref) ∧
      (ar (arMeasure k ref out s) k).driven = (ar s k).driven ∧ (ar (arMeasure k ref out s) k).held = (ar s k).held := by
  unfold arMeasure
  dsimp only
  rw [ar_arMod_same, ar_whenS _ _ _ rfl, ar_whenS _ _ _ rfl]
  exact ⟨rfl, rfl, rfl, rfl⟩

theorem ar_arMeasure_other {k j : Fin 8} (ref out : Nat) (s : State) (h : j ≠ k) : ar (arMeasure k ref out s) j = ar s j := by
  unfold arMeasure
  dsimp only
  rw [ar_arMod_other _ _ h, ar_whenS _ _ _ rfl, ar_whenS _ _ _ rfl]

/-! The drive (R165, R166). -/

@[simp] theorem offRepeat_arUpdate (k : Fin 8) (s : State) : offRepeat (arUpdate k s) = offRepeat s := by
  unfold arUpdate
  dsimp only
  rw [offRepeat_arMod, offRepeat_whenS _ _ rfl, offRepeat_whenS _ _ rfl, offRepeat_whenS _ _ rfl]

/-- An update drives what Table 7.1 gives, and leaves the measurement. -/
theorem ar_arUpdate (k : Fin 8) (s : State) :
    (ar (arUpdate k s) k).refLow = (ar s k).refLow ∧ (ar (arUpdate k s) k).refHigh = (ar s k).refHigh ∧
      (ar (arUpdate k s) k).code = (arDrive s k).code ∧ (ar (arUpdate k s) k).holding = (arDrive s k).holding ∧
      (ar (arUpdate k s) k).fault = (arDrive s k).fault ∧ (ar (arUpdate k s) k).driven = (arDrive s k).driven := by
  unfold arUpdate
  dsimp only
  rw [ar_arMod_same, ar_whenS _ _ _ rfl, ar_whenS _ _ _ rfl, ar_whenS _ _ _ rfl]
  exact ⟨rfl, rfl, rfl, rfl, rfl, rfl⟩

theorem ar_arUpdate_other {k j : Fin 8} (s : State) (h : j ≠ k) : ar (arUpdate k s) j = ar s j := by
  unfold arUpdate
  dsimp only
  rw [ar_arMod_other _ _ h, ar_whenS _ _ _ rfl, ar_whenS _ _ _ rfl, ar_whenS _ _ _ rfl]

/-! The rows of Table 7.1. -/

/-- The drive of a value as R164 converts it. -/
def convertedDrive (s : State) (k : Fin 8) (v : F32) (hold : Bool) : ArDrive :=
  { code := (arConvert s k v).1, clamp := (arConvert s k v).2, holding := hold,
    fault := isNaN (fAdd (fMul (regGet s (aAR k 4)) v) (regGet s (aAR k 8))), driven := true }

/-- The drive of the fault code. -/
def faultDrive (s : State) (k : Fin 8) : ArDrive := { code := arFaultCode s k, fault := true, driven := (ar s k).driven }

/-- The drive of a code that no source gives. -/
def fixedDrive (s : State) (k : Fin 8) (code : BitVec 16) : ArDrive := { code := code, driven := (ar s k).driven }

theorem arDrive_highz {s : State} (k : Fin 8) (hz : arHighz s = true) : arDrive s k = fixedDrive s k 0 := if_pos hz

section
variable {s : State} {k : Fin 8} (hz : arHighz s = false)
include hz

theorem arDrive_forced (hf : arForced s k = true) : arDrive s k = fixedDrive s k ((regGet s (aAR k 0x34)).setWidth 16) :=
  (if_neg (Bool.eq_false_iff.mp hz)).trans (if_pos hf)

variable (hf : arForced s k = false)
include hf

theorem arDrive_disabled (hen : (regGet s (aAR k 0)).getLsbD 8 = false) : arDrive s k = fixedDrive s k 0 := by
  have hoff : (!(isRunning s || decide (s.sys.phase = .drydown)) || !(regGet s (aAR k 0)).getLsbD 8) = true := by
    rw [hen]
    exact Bool.or_true _
  exact (if_neg (Bool.eq_false_iff.mp hz)).trans ((if_neg (Bool.eq_false_iff.mp hf)).trans (if_pos hoff))

/-- Of a unit that runs, an output neither forced nor touched by an undefined case goes by the quality of its source. -/
theorem arDrive_enabled (hrun : isRunning s = true) (hen : (regGet s (aAR k 0)).getLsbD 8 = true) (hund : poisoned s (aAR k 0) = false) :
    arDrive s k =
      if (valGet s (arSource s k)).quality = qGOOD then convertedDrive s k (valGet s (arSource s k)).value false
      else if ((valGet s (arSource s k)).quality = qSETTLING || (valGet s (arSource s k)).quality = qHELD) && (ar s k).driven then
        convertedDrive s k ((ar s k).held.getD (valGet s (arSource s k)).value) true
      else faultDrive s k := by
  have hon : ¬(!(isRunning s || decide (s.sys.phase = .drydown)) || !(regGet s (aAR k 0)).getLsbD 8) = true := by
    rw [hrun, hen]
    exact Bool.false_ne_true
  have hdd : ¬s.sys.phase = .drydown := fun e => by
    unfold isRunning at hrun
    rw [e] at hrun
    exact absurd hrun (by decide)
  exact (if_neg (Bool.eq_false_iff.mp hz)).trans ((if_neg (Bool.eq_false_iff.mp hf)).trans ((if_neg hon).trans ((if_neg hdd).trans
    (if_neg (Bool.eq_false_iff.mp hund)))))

end

/-- Table 7.1 reads of a tick what it drove by and the value that it holds, where no undefined case has touched the output. -/
theorem arDrive_congr {s t : State} {k : Fin 8} (h : offRepeat t = offRepeat s) (hd : (ar t k).driven = (ar s k).driven)
    (hh : (ar t k).held = (ar s k).held) (hund : poisoned s (aAR k 0) = false) : arDrive t k = arDrive s k := by
  have hz : arHighz t = arHighz s := eq_of_offRepeat arHighz (fun _ => rfl) h
  have hforced : arForced t k = arForced s k := eq_of_offRepeat (arForced · k) (fun _ => rfl) h
  have hrun : isRunning t = isRunning s := eq_of_offRepeat isRunning (fun _ => rfl) h
  have hphase : t.sys.phase = s.sys.phase := eq_of_offRepeat (·.sys.phase) (fun _ => rfl) h
  have hreg : ∀ a, regGet t a = regGet s a := fun a => eq_of_offRepeat (regGet · a) (fun _ => rfl) h
  have hfault : arFaultCode t k = arFaultCode s k := eq_of_offRepeat (arFaultCode · k) (fun _ => rfl) h
  have hconv : ∀ v, arConvert t k v = arConvert s k v := fun v => eq_of_offRepeat (arConvert · k v) (fun _ => rfl) h
  have hsource : valGet t (arSource t k) = valGet s (arSource s k) := eq_of_offRepeat (fun u => valGet u (arSource u k)) (fun _ => rfl) h
  have hpois : poisoned t (aAR k 0) = poisoned s (aAR k 0) := eq_of_offRepeat (poisoned · _) (fun _ => rfl) h
  simp only [arDrive, hz, hforced, hrun, hphase, hreg, hfault, hconv, hsource, hpois, hd, hh, hund, Bool.false_eq_true, if_false]

/-! REPEAT_OUTPUT_TICK (R165). -/

/-- The tick of one output: its measurement, then its code. -/
def tickOutput (m : List (Nat × Nat)) (k : Fin 8) (s : State) : State :=
  arUpdate k (arMeasure k (m.getD k.val (0, 0)).1 (m.getD k.val (0, 0)).2 s)

theorem offRepeat_tickOutput (m : List (Nat × Nat)) (k : Fin 8) (s : State) : offRepeat (tickOutput m k s) = offRepeat s := by
  unfold tickOutput
  rw [offRepeat_arUpdate, offRepeat_arMeasure]

theorem ar_tickOutput_other {k j : Fin 8} (m : List (Nat × Nat)) (s : State) (h : j ≠ k) : ar (tickOutput m k s) j = ar s j := by
  unfold tickOutput
  rw [ar_arUpdate_other _ h, ar_arMeasure_other _ _ _ h]

theorem offRepeat_tick (m : List (Nat × Nat)) (s : State) : offRepeat (effRepeatOutputTick m s) = offRepeat s :=
  eachS_proj offRepeat _ (tickOutput m) s (offRepeat_tickOutput m)

/-- Of the outputs of a tick, the output's own part decides what it shows. -/
theorem ar_tick (m : List (Nat × Nat)) (k : Fin 8) (s : State) : ∃ u, ar u k = ar s k ∧ offRepeat u = offRepeat s ∧
    ar (effRepeatOutputTick m s) k = ar (tickOutput m k u) k := by
  have hother : ∀ j t, j ≠ k → (ar (tickOutput m j t) k, offRepeat (tickOutput m j t)) = (ar t k, offRepeat t) := fun j t hj =>
    Prod.ext (ar_tickOutput_other m t hj.symm) (offRepeat_tickOutput m j t)
  obtain ⟨u, hu, e⟩ := eachS_once (fun t => (ar t k, offRepeat t)) hother (List.finRange 8) s (List.nodup_finRange 8) (List.mem_finRange k)
  exact ⟨u, congrArg (·.1) hu, congrArg (·.2) hu, congrArg (·.1) e⟩

/-- What a tick shows of an output that no undefined case has touched: REF against its two limits, and the drive of Table 7.1 as it
stands before the tick. -/
theorem ar_tick_drives (m : List (Nat × Nat)) {k : Fin 8} {s : State} (hund : poisoned s (aAR k 0) = false) :
    let a := ar (effRepeatOutputTick m s) k
    let ref := (m.getD k.val (0, 0)).1
    a.refLow = decide (ref < 900) ∧ a.refHigh = decide (12500 < ref) ∧ a.code = (arDrive s k).code ∧
      a.holding = (arDrive s k).holding ∧ a.fault = (arDrive s k).fault ∧ a.driven = (arDrive s k).driven := by
  intro a ref
  obtain ⟨u, hu, hoff, e⟩ := ar_tick m k s
  obtain ⟨hlow, hhigh, hdriven, hheld⟩ := ar_arMeasure k ref (m.getD k.val (0, 0)).2 u
  have hdrive : arDrive (arMeasure k ref (m.getD k.val (0, 0)).2 u) k = arDrive s k :=
    arDrive_congr ((offRepeat_arMeasure _ _ _ u).trans hoff) (by rw [hdriven, hu]) (by rw [hheld, hu]) hund
  have hupd := ar_arUpdate k (arMeasure k ref (m.getD k.val (0, 0)).2 u)
  rw [hlow, hhigh, hdrive] at hupd
  rw [show a = ar (arUpdate k (arMeasure k ref (m.getD k.val (0, 0)).2 u)) k from e]
  exact hupd

/-- Settles O27: each output's own part of the tick drives what Table 7.1 gives in the state before the tick. High impedance comes
before AR_FORCE there, the model's reading of R334 and R343 (log entry 53). -/
theorem repeatOutputsFollowTable : Obligations.RepeatOutputsFollowTable := by
  intro s m
  have hoff := offRepeat_tick m s
  refine ⟨_, rfl, eq_of_offRepeat State.vals (fun _ => rfl) hoff, eq_of_offRepeat (·.io.dis) (fun _ => rfl) hoff,
    eq_of_offRepeat (·.io.dos) (fun _ => rfl) hoff, fun k hund => ?_⟩
  intro q ref
  obtain ⟨hlow, hhigh, hcode, hholding, hfault, hdriven⟩ := ar_tick_drives m hund
  rw [hlow, hhigh, hcode, hholding, hfault, hdriven]
  refine ⟨decide_eq_true_iff, decide_eq_true_iff, fun hz => ?highz, fun hf hz => ?forced, fun hf hz hen => ?disabled,
    fun hf hz hrun hen => ?enabled⟩
  case highz => exact congrArg ArDrive.code (arDrive_highz k hz :)
  case forced => exact congrArg ArDrive.code (arDrive_forced hz hf :)
  case disabled => exact congrArg ArDrive.code (arDrive_disabled hz hf hen :)
  case enabled =>
    rw [arDrive_enabled hz hf hrun hen hund]
    refine ⟨fun hq => ?good, fun hq hd => ?held, fun hq => ?bad⟩
    case good =>
      rw [if_pos hq]
      exact ⟨rfl, rfl⟩
    case held =>
      have hgood : q ≠ qGOOD := by rcases hq with h | h <;> rw [h] <;> decide
      have hheld : ((decide (q = qSETTLING) || decide (q = qHELD)) && (ar s k).driven) = true := by
        rw [hd, Bool.and_true, Bool.or_eq_true, decide_eq_true_iff, decide_eq_true_iff]
        exact hq
      rw [if_neg hgood, if_pos hheld]
      exact ⟨rfl, rfl⟩
    case bad =>
      have hnot : q ≠ qGOOD ∧ (decide (q = qSETTLING) || decide (q = qHELD)) = false := by
        rcases hq with h | h | h | h | h <;> rw [h] <;> decide
      obtain ⟨hgood, hother⟩ := hnot
      have hheld : ¬((decide (q = qSETTLING) || decide (q = qHELD)) && (ar s k).driven) = true := by
        rw [hother]
        exact Bool.false_ne_true
      rw [if_neg hgood, if_neg hheld]
      exact ⟨rfl, rfl⟩

end Sys2Proof.Proofs

/-! What the events of the alarm engine leave alone (R20, R206, R335): all but the fabric, what waits to be sent, the event queue and
the copies that wait for a member number. -/
namespace Sys2Proof.Proofs

open Sys2Proof.Machine Sys2Proof.Laws

@[simp] theorem offFabric_sendLocal (k : Link) (b : Body) (s : State) : offFabric (sendLocal k b s) = offFabric s := by
  rw [sendLocal, offFabric_enqueue, offFabric_useZone]

@[simp] theorem offFabric_sendPairP (b : Body) (s : State) : offFabric (sendPairP b s) = offFabric s := by
  simp only [sendPairP, apply_ite offFabric, offFabric_sendLocal, ite_self]

@[simp] theorem offFabric_nextSeq (st : BitVec 12) (s : State) : offFabric (nextSeq st s).2 = offFabric s := by
  unfold nextSeq
  split <;> rfl

/-! Unicast frames (R286). -/

/-- The state without what sending unicast frames can change: the fabric, and the frames that the node sends to itself. -/
def offSend (s : State) : State := { offFabric s with selfQ := [] }

theorem offSend_of_offFabric {s t : State} (h : offFabric t = offFabric s) : offSend t = offSend s :=
  congrArg (fun u : State => { u with selfQ := [] }) h

/-- What reads nothing that sending changes reads the same after it. -/
theorem eq_of_offSend {α : Type} {s t : State} (f : State → α) (hf : ∀ u, f (offSend u) = f u) (h : offSend t = offSend s) :
    f t = f s :=
  (hf t).symm.trans ((congrArg f h).trans (hf s))

theorem offSend_toSelf (h : FabHdr) (b : Body) (s : State) : offSend (toSelf h b s) = offSend s := by
  unfold toSelf
  split <;> rfl

theorem offSend_sendTo (dst : Addr) (stream : BitVec 12) (seq : BitVec 16) (b : Body) (s : State) :
    offSend (sendTo dst stream seq b s) = offSend s := by
  have hzone : offSend (useZone s) = offSend s := offSend_of_offFabric (offFabric_useZone s)
  unfold sendTo
  dsimp only
  split
  · rfl
  · split
    · rw [offSend_toSelf, hzone]
    · split
      · exact (offSend_of_offFabric (offFabric_enqueue ..)).trans hzone
      · exact (offSend_of_offFabric (offFabric_bump ..)).trans hzone

theorem offSend_sendUni (dst : Addr) (stream : BitVec 12) (b : Body) (s : State) : offSend (sendUni dst stream b s) = offSend s := by
  unfold sendUni
  split
  · rfl
  · exact (offSend_sendTo ..).trans (offSend_of_offFabric (offFabric_nextSeq stream s))

theorem offSend_sendAlarms (item : Word) (l : List AlmEvent) (s : State) : offSend (sendAlarms item l s) = offSend s :=
  eachS_proj offSend _ _ s (fun _ t => eachS_proj offSend _ _ t (fun a u => offSend_sendUni a 3 _ u))

/-- Of a node with its member number, records offered to the fabric are sent at once. -/
theorem offSend_offerAlarms {s : State} (h : s.fab.addressed = true) (l : List (Word × AlmEvent)) :
    offSend (offerAlarms l s) = offSend s := by
  rw [offerAlarms, if_pos h]
  exact eachS_proj offSend _ _ s (fun i t => offSend_sendAlarms i _ t)

/-! Events (R206). -/

/-- The state without what the event of a point can change. -/
def offEvent (s : State) : State := { offSend s with rcd := {}, alm := { s.alm with held := [] } }

theorem offEvent_of_offSend {s t : State} (h : offSend t = offSend s) : offEvent t = offEvent s :=
  congrArg (fun u : State => { u with rcd := {}, alm := { u.alm with held := [] } }) h

theorem eq_of_offEvent {α : Type} {s t : State} (f : State → α) (hf : ∀ u, f (offEvent u) = f u) (h : offEvent t = offEvent s) :
    f t = f s :=
  (hf t).symm.trans ((congrArg f h).trans (hf s))

theorem offEvent_emit (kind cause : BitVec 8) (sev : BitVec 2) (src : Word) (l : List Word) (s : State) :
    offEvent (emit kind cause sev src l s) = offEvent s := by
  unfold emit
  split <;> rfl

theorem offEvent_offerAlarms (l : List (Word × AlmEvent)) (s : State) : offEvent (offerAlarms l s) = offEvent s := by
  cases h : s.fab.addressed with
  | true => exact offEvent_of_offSend (offSend_offerAlarms h l)
  | false =>
    rw [offerAlarms, if_neg (Bool.eq_false_iff.mp h)]
    rfl

theorem offEvent_emitAlarm (i : Nat) (old : PState) (p : Point) (cause : BitVec 8) (acc : List (Word × AlmEvent) × State) :
    offEvent (emitAlarm i old p cause acc).2 = offEvent acc.2 := by
  unfold emitAlarm
  dsimp only
  split
  · exact (offEvent_of_offSend (offSend_of_offFabric (offFabric_sendPairP ..))).trans (offEvent_emit ..)
  · exact offEvent_emit ..

/-! Copies held for a member number and a route (R206). -/

/-- The state without the copies that can go out. -/
def readyCopiesTaken (s : State) : State := { s with alm := { s.alm with held := s.alm.held.filter (fun h => !heldReady s h) } }

/-- Of a node with its member number, a release only sends the copies that it takes. -/
theorem offSend_eventCopyRelease {s : State} (h : s.fab.addressed = true) :
    offSend (effEventCopyRelease s) = offSend (readyCopiesTaken s) := by
  rw [effEventCopyRelease, h]
  exact offSend_offerAlarms (s := readyCopiesTaken s) h _

/-- Settles O35: what is sent leaves the engine, the event queue and the calls as they were, and a discard only counts. -/
theorem copiesHeldBeforeTheWinGoOutOrAreCounted : Obligations.CopiesHeldBeforeTheWinGoOutOrAreCounted := by
  intro s
  refine ⟨fun h => ⟨⟨_, rfl, ?releaseWaits⟩, ⟨_, rfl, ?discardWaits⟩⟩,
    fun h => ⟨⟨_, rfl, ?release⟩, ⟨_, rfl, ?discard⟩⟩⟩
  case releaseWaits => rw [effEventCopyRelease, h]; rfl
  case discardWaits => rw [effEventCopyDiscard, h]; rfl
  case release =>
    have hoff := offSend_eventCopyRelease h
    exact ⟨(eq_of_offSend (·.alm.held) (fun _ => rfl) hoff :), (eq_of_offSend (·.alm.points) (fun _ => rfl) hoff :),
      (eq_of_offSend (·.rcd.queue) (fun _ => rfl) hoff :), (eq_of_offSend State.vals (fun _ => rfl) hoff :),
      (eq_of_offSend State.call (fun _ => rfl) hoff :)⟩
  case discard =>
    rw [effEventCopyDiscard, h]
    exact ⟨rfl, rfl, rfl, ctrGet_bumpBy_same .., fun a ha => (ctrGet_bumpBy ..).trans (if_neg ha), rfl⟩

end Sys2Proof.Proofs

/-! O33 (R50, R191, R201 to R203, R205): the record of a point, its voted enable, the moves of Table 8.10, and the ends of delays, blocks
and shelves. -/
namespace Sys2Proof.Proofs

open Sys2Proof.Machine Sys2Proof.Laws

/-! The record of one point. -/

theorem pointGet_pointSet (i j : Nat) (p : Point) (s : State) : pointGet (pointSet i p s) j = if j = i then p else pointGet s j := by
  show (tabLook (tabPut s.alm.points i p) j).getD {} = _
  rw [tabLook_put]
  split <;> rfl

@[simp] theorem pointGet_pointSet_same (i : Nat) (p : Point) (s : State) : pointGet (pointSet i p s) i = p := by
  rw [pointGet_pointSet, if_pos rfl]

theorem pointGet_pointSet_other {i j : Nat} (p : Point) (s : State) (h : j ≠ i) : pointGet (pointSet i p s) j = pointGet s j := by
  rw [pointGet_pointSet, if_neg h]

/-- What an event keeps of the points. -/
theorem pointGet_of_offEvent {s t : State} (h : offEvent t = offEvent s) (j : Nat) : pointGet t j = pointGet s j :=
  eq_of_offEvent (pointGet · j) (fun _ => rfl) h

/-! The voted enable (R191). -/

theorem getElem_putBit (w : Word) (n : Nat) (b : Bool) {m : Nat} (hm : m < 32) : (putBit w n b)[m] = if m = n then b else w[m] := by
  have hbit : (bit true n)[m] = decide (n = m) := by
    rw [← BitVec.getLsbD_eq_getElem hm, bit, if_pos rfl, BitVec.getLsbD_ofNat, Nat.testBit_two_pow, decide_eq_true hm, Bool.true_and]
  by_cases h : m = n
  · subst h
    cases b <;> simp [putBit, hbit]
  · cases b <;> simp [putBit, hbit, h, Ne.symm h]

theorem getLsbD_putBit_same (w : Word) {n : Nat} (b : Bool) (hn : n < 32) : (putBit w n b).getLsbD n = b := by
  rw [BitVec.getLsbD_eq_getElem hn, getElem_putBit _ _ _ hn, if_pos rfl]

theorem putBit_getLsbD (w : Word) (n : Nat) : putBit w n (w.getLsbD n) = w := by
  ext m hm
  rw [getElem_putBit _ _ _ hm]
  split
  · next h => subst h; exact BitVec.getLsbD_eq_getElem hm
  · rfl

/-- An enable written to all three copies reads as it was written, whatever else stands in the record. -/
@[simp] theorem pEnabled_setEnable (b : Bool) (p : Point) : pEnabled (setEnable b p) = b := by
  simp only [pEnabled, setEnable, getLsbD_putBit_same _ _ (by omega : 25 < 32), getLsbD_putBit_same _ _ (by omega : 15 < 32),
    getLsbD_putBit_same _ _ (by omega : 31 < 32), Bool.and_self, Bool.or_self]

/-- A record with its three enable copies as the vote of them reads. -/
def votedRecord (p : Point) : Point := setEnable (pEnabled p) p

@[simp] theorem pEnabled_votedRecord (p : Point) : pEnabled (votedRecord p) = pEnabled p := pEnabled_setEnable _ p

/-- A record whose three copies agree is its own vote. -/
theorem votedRecord_of_copiesOk {p : Point} (h : pCopiesOk p = true) : votedRecord p = p := by
  obtain ⟨hab, hbc⟩ : p.cfg.getLsbD 25 = p.link.getLsbD 15 ∧ p.link.getLsbD 15 = p.block.getLsbD 31 := by
    simpa [pCopiesOk] using h
  have hvote : pEnabled p = p.block.getLsbD 31 := by rw [pEnabled, hab, hbc]; simp
  have hcfg : putBit p.cfg 25 (p.block.getLsbD 31) = p.cfg := by rw [← hbc, ← hab, putBit_getLsbD]
  have hlink : putBit p.link 15 (p.block.getLsbD 31) = p.link := by rw [← hbc, putBit_getLsbD]
  rw [votedRecord, setEnable, hvote, hcfg, hlink, putBit_getLsbD]

/-- A use of an enable leaves all as it was, or rewrites the record's odd copy, counts it and latches it. -/
theorem useEnable_cases (i : Nat) (s : State) : (pCopiesOk (pointGet s i) = true ∧ useEnable i s = s) ∨
    useEnable i s = latch aSYS_EVENT 3 (bump aECC_VOTE_FIX (pointSet i (votedRecord (pointGet s i)) s)) := by
  unfold useEnable
  dsimp only
  split
  · next h => exact .inl ⟨h, rfl⟩
  · exact .inr rfl

theorem pointGet_useEnable_same (i : Nat) (s : State) : pointGet (useEnable i s) i = votedRecord (pointGet s i) := by
  rcases useEnable_cases i s with ⟨hok, e⟩ | e <;> rw [e]
  · exact (votedRecord_of_copiesOk hok).symm
  · exact pointGet_pointSet_same i _ s

theorem pointGet_useEnable_other {i j : Nat} (s : State) (h : j ≠ i) : pointGet (useEnable i s) j = pointGet s j := by
  rcases useEnable_cases i s with ⟨_, e⟩ | e <;> rw [e]
  exact pointGet_pointSet_other _ s h

theorem useEnable_frame (i : Nat) (s : State) : (useEnable i s).alm.running = s.alm.running ∧
    pointFree (useEnable i s) i = pointFree s i ∧ (useEnable i s).vals = s.vals ∧ (useEnable i s).reg = s.reg ∧ (useEnable i s).io = s.io := by
  rcases useEnable_cases i s with ⟨_, e⟩ | e <;> rw [e] <;> exact ⟨rfl, rfl, rfl, rfl, rfl⟩

/-! The moves of Table 8.10. -/

/-- A move changes the state, the occurrence and what the front panel sounds for. -/
theorem transition_frame (p : Point) : (transition p).1 =
    { p with st := (transition p).1.st, occ := (transition p).1.occ, sounds := (transition p).1.sounds } := by
  unfold transition enterActive
  (repeat' split) <;> rfl

section
variable {p : Point} (hshelve : p.shelveLeft = 0)
include hshelve

theorem st_transition_blocked (hblock : p.blockNow = true) : (transition p).1.st = .blocked := by
  rw [transition, if_neg (not_not_intro hshelve), if_pos hblock]
  split
  · next h => exact h
  · rfl

variable (hblock : p.blockNow = false)
include hblock

/-- A condition makes a point active that was not, with a new occurrence (R205). -/
theorem transition_enters (hcond : p.cond = true) (hu : p.st ≠ .activeUnack) (ha : p.st ≠ .activeAck) :
    (transition p).1 = enterActive p := by
  rw [transition, if_neg (not_not_intro hshelve), if_neg (Bool.eq_false_iff.mp hblock)]
  cases hst : p.st
  case activeUnack => exact absurd hst hu
  case activeAck => exact absurd hst ha
  all_goals
    dsimp only
    rw [if_pos hcond]

/-- The end of a condition leaves an alarm not yet acknowledged, or NORMAL. -/
theorem st_transition_ends (hcond : p.cond = false) : (transition p).1.st =
    if p.st = .activeUnack ∨ p.st = .clearedUnack then .clearedUnack else .normal := by
  rw [transition, if_neg (not_not_intro hshelve), if_neg (Bool.eq_false_iff.mp hblock)]
  cases hst : p.st <;> simp [hcond, hst]

end

theorem occ_transition_of_clear {p : Point} (hcond : p.cond = false) : (transition p).1.occ = p.occ := by
  unfold transition
  split
  · split <;> rfl
  split
  · split <;> rfl
  cases p.st <;> simp [hcond]

/-! A change of a record in its slot. -/

/-- What the end of a delay, a block or a shelve leaves: the point's record, and all other points, entries and outputs. -/
theorem slotChange_moves {i : Nat} {f : Point → Option Point} {q : Point} {s : State} (hrun : s.alm.running = true)
    (hen : pEnabled (pointGet s i) = true) (hmem : (pointGet s i).memFault = false) (hfree : pointFree s i = false)
    (hf : f (votedRecord (pointGet s i)) = some q) :
    pointGet (slotChange i f s) i = (transition q).1 ∧ (∀ j, j ≠ i → pointGet (slotChange i f s) j = pointGet s j) ∧
      (slotChange i f s).vals = s.vals ∧ (slotChange i f s).reg = s.reg ∧ (slotChange i f s).io = s.io := by
  obtain ⟨hrun', hfree', hvals, hreg, hio⟩ := useEnable_frame i s
  have hevent : ∃ u, offEvent u = offEvent (pointSet i (transition q).1 (useEnable i s)) ∧ slotChange i f s = countPhase u := by
    have hon : (!(useEnable i s).alm.running || !pEnabled (pointGet (useEnable i s) i) ||
        (pointGet (useEnable i s) i).memFault) = false := by
      rw [hrun', hrun, pointGet_useEnable_same, pEnabled_votedRecord, hen]
      exact hmem
    have hmoved : f (pointGet (useEnable i s) i) = some q := by rw [pointGet_useEnable_same, hf]
    simp only [slotChange, hon, hmoved, hfree', hfree, Bool.false_eq_true, if_false, whenS]
    cases (transition q).2 with
    | none => exact ⟨_, rfl, rfl⟩
    | some c => exact ⟨_, (offEvent_offerAlarms ..).trans (offEvent_emitAlarm ..), rfl⟩
  obtain ⟨u, hu, e⟩ := hevent
  rw [e]
  refine ⟨(pointGet_of_offEvent hu i).trans (pointGet_pointSet_same ..), fun j hj => ?_, ?_, ?_, ?_⟩
  · exact (pointGet_of_offEvent hu j).trans ((pointGet_pointSet_other _ _ hj).trans (pointGet_useEnable_other s hj))
  · exact (eq_of_offEvent State.vals (fun _ => rfl) hu).trans hvals
  · exact (eq_of_offEvent State.reg (fun _ => rfl) hu).trans hreg
  · exact (eq_of_offEvent State.io (fun _ => rfl) hu).trans hio

/-! The ends of delays, blocks and shelves. -/

/-- The end of a delay leaves the condition that it brings, with both counts clear (R201). -/
def delayEnded (cond : Bool) (p : Point) : Point := { p with cond := cond, onCount := 0, offCount := 0 }

/-- The end of a block (R202). -/
def blockEnded (p : Point) : Point := { p with blockNow := false, blkCount := 0 }

/-- The end of a shelve (R202). -/
def shelveEnded (p : Point) : Point := { p with shelveLeft := 0 }

/-- The point goes to ACTIVE_UNACK with a new occurrence (R205). -/
def NewAlarm (p q : Point) : Prop := q.st = .activeUnack ∧ q.occ = p.occ + 1

theorem onDelayEnd_moves {p : Point} (hshelve : p.shelveLeft = 0) (hblock : p.blockNow = false)
    (hst : p.st = .normal ∨ p.st = .clearedUnack) : NewAlarm p (transition (delayEnded true p)).1 := by
  rw [transition_enters (p := delayEnded true p) hshelve hblock rfl]
  · exact ⟨rfl, rfl⟩
  all_goals show p.st ≠ _; rcases hst with h | h <;> rw [h] <;> decide

theorem offDelayEnd_moves {p : Point} (hshelve : p.shelveLeft = 0) (hblock : p.blockNow = false) :
    (p.st = .activeUnack → (transition (delayEnded false p)).1.st = .clearedUnack) ∧
      (p.st = .activeAck → (transition (delayEnded false p)).1.st = .normal) := by
  have h := st_transition_ends (p := delayEnded false p) hshelve hblock rfl
  refine ⟨fun hst => ?_, fun hst => ?_⟩ <;> rw [h, show (delayEnded false p).st = _ from hst] <;> rfl

/-- A point that leaves BLOCKED or SHELVED goes by its condition alone. -/
theorem release_moves {p : Point} (hshelve : p.shelveLeft = 0) (hblock : p.blockNow = false) (hst : p.st = .blocked ∨ p.st = .shelved) :
    (p.cond = true → NewAlarm p (transition p).1) ∧ (p.cond = false → (transition p).1.st = .normal) := by
  refine ⟨fun hcond => ?_, fun hcond => ?_⟩
  · rw [transition_enters hshelve hblock hcond]
    · exact ⟨rfl, rfl⟩
    all_goals rcases hst with h | h <;> rw [h] <;> decide
  · rw [st_transition_ends hshelve hblock hcond]
    rcases hst with h | h <;> rw [h] <;> rfl

/-- Settles O33: each end hands the moves of Table 8.10 the voted record with its delay, block or shelve ended; nothing that a move reads
hangs on the enable copies. -/
theorem alarmDelaysBlocksAndShelvesEnd : Obligations.AlarmDelaysBlocksAndShelvesEnd := by
  intro s i p same active hrun hen hmem hfree
  refine ⟨fun hraw hcond hfrozen => ⟨effOnDelayExpiry i s, rfl, ?onDelay⟩,
    fun hraw hcond hfrozen => ⟨effOffDelayExpiry i s, rfl, ?offDelay⟩,
    fun hblock hshelve hst => ⟨effBlockDelayExpiry i s, rfl, ?block⟩, fun hshelve hst => ⟨effShelveExpiry i s, rfl, ?shelve⟩⟩
  case onDelay =>
    have hends : (p.raw && !p.cond && !p.frozen) = true := by rw [hraw, hcond, hfrozen]; rfl
    obtain ⟨hpoint, hrest⟩ : pointGet (effOnDelayExpiry i s) i = (transition (delayEnded true (votedRecord p))).1 ∧
      same (effOnDelayExpiry i s) := slotChange_moves hrun hen hmem hfree (if_pos hends)
    simp only [active, hpoint]
    exact ⟨hrest, by rw [transition_frame]; rfl, onDelayEnd_moves (p := votedRecord p)⟩
  case offDelay =>
    have hends : (!p.raw && p.cond && !p.frozen) = true := by rw [hraw, hcond, hfrozen]; rfl
    obtain ⟨hpoint, hrest⟩ : pointGet (effOffDelayExpiry i s) i = (transition (delayEnded false (votedRecord p))).1 ∧
      same (effOffDelayExpiry i s) := slotChange_moves hrun hen hmem hfree (if_pos hends)
    simp only [hpoint]
    exact ⟨hrest, by rw [transition_frame]; rfl, occ_transition_of_clear rfl, offDelayEnd_moves (p := votedRecord p)⟩
  case block =>
    obtain ⟨hpoint, hrest⟩ : pointGet (effBlockDelayExpiry i s) i = (transition (blockEnded (votedRecord p))).1 ∧
      same (effBlockDelayExpiry i s) := slotChange_moves hrun hen hmem hfree (if_pos hblock)
    simp only [active, hpoint]
    exact ⟨hrest, by rw [transition_frame]; rfl, release_moves (p := blockEnded (votedRecord p)) hshelve rfl (.inl hst)⟩
  case shelve =>
    obtain ⟨hpoint, hrest⟩ : pointGet (effShelveExpiry i s) i = (transition (shelveEnded (votedRecord p))).1 ∧
      same (effShelveExpiry i s) := slotChange_moves hrun hen hmem hfree (if_pos hshelve)
    have hrelease := fun hblock => release_moves (p := shelveEnded (votedRecord p)) rfl hblock (.inr hst)
    simp only [active, hpoint]
    exact ⟨hrest, by rw [transition_frame]; rfl, st_transition_blocked (p := shelveEnded (votedRecord p)) rfl,
      fun hblock => (hrelease hblock).1, fun hblock => (hrelease hblock).2⟩

end Sys2Proof.Proofs

/-! O34 (R187, R191, R192, R204, R208, R209): the queue of alarm commands, what a command does to its point, and window writes. -/
namespace Sys2Proof.Proofs

open Sys2Proof.Machine Sys2Proof.Laws

/-! The command queue (R187). -/

theorem queueCmd_of_room {s : State} (i : BitVec 12) (op : AlmOp) (h : s.alm.cmds.length < 256) :
    queueCmd i op s = { s with alm := { s.alm with cmds := s.alm.cmds ++ [(i, op)] } } := if_neg (Nat.not_le.mpr h)

theorem queueCmd_of_full {s : State} (i : BitVec 12) (op : AlmOp) (h : 256 ≤ s.alm.cmds.length) :
    queueCmd i op s = latch aALM_EVENT 0 (bump aALM_CMD_LOST s) := if_pos h

/-! Commands applied (Table 8.11). -/

section
variable (i : BitVec 12) (l : List (Word × AlmEvent)) (s : State)

theorem applyCmd_ack_stale {k : BitVec 16} (h : k ≠ (pointGet s i.toNat).occ) :
    applyCmd (i, .ack k) (l, s) = (l, latch aALM_EVENT 1 (bump aALM_ACK_STALE s)) := if_pos h

/-- An acknowledgement of the occurrence held moves an unacknowledged point, and gives its event. -/
theorem pointGet_applyCmd_ack {st : PState} (h : (pointGet s i.toNat).st = .activeUnack ∧ st = .activeAck ∨
      (pointGet s i.toNat).st = .clearedUnack ∧ st = .normal) :
    pointGet (applyCmd (i, .ack (pointGet s i.toNat).occ) (l, s)).2 i.toNat = { pointGet s i.toNat with st := st } := by
  have hmove : ∃ old, applyCmd (i, .ack (pointGet s i.toNat).occ) (l, s) = emitAlarm i.toNat old { pointGet s i.toNat with st := st } 1
      (l, pointSet i.toNat { pointGet s i.toNat with st := st } s) := by
    have hheld : ¬(pointGet s i.toNat).occ ≠ (pointGet s i.toNat).occ := not_not_intro rfl
    rcases h with ⟨hst, rfl⟩ | ⟨hst, rfl⟩
    · exact ⟨_, (if_neg hheld).trans (if_pos hst)⟩
    · exact ⟨_, (if_neg hheld).trans ((if_neg (by rw [hst]; decide)).trans (if_pos hst))⟩
  obtain ⟨old, e⟩ := hmove
  rw [e]
  exact (pointGet_of_offEvent (offEvent_emitAlarm ..) _).trans (pointGet_pointSet_same ..)

theorem applyCmd_ack_other (hu : (pointGet s i.toNat).st ≠ .activeUnack) (hc : (pointGet s i.toNat).st ≠ .clearedUnack) :
    applyCmd (i, .ack (pointGet s i.toNat).occ) (l, s) = (l, s) :=
  (if_neg (not_not_intro rfl)).trans ((if_neg hu).trans (if_neg hc))

/-- A shelve that is taken gives its time in cycles of 10 ms, of at most eight hours. -/
theorem applyCmd_shelve_taken {secs : BitVec 15} (hp : pShelvable (evPoint (pointGet s i.toNat)) = true)
    (hst : (pointGet s i.toNat).st ≠ .outOfService) (hsecs : secs ≠ 0) : applyCmd (i, .shelve secs) (l, s) =
      (l, pointSet i.toNat { pointGet s i.toNat with shelveLeft := BitVec.ofNat 22 (100 * min secs.toNat 28800) } s) := by
  refine if_neg (Bool.eq_false_iff.mp ?_)
  rw [hp, decide_eq_false hst, decide_eq_false hsecs]
  rfl

theorem applyCmd_shelve_refused {secs : BitVec 15} (h : pShelvable (evPoint (pointGet s i.toNat)) = false ∨
      (pointGet s i.toNat).st = .outOfService ∨ secs = 0) :
    applyCmd (i, .shelve secs) (l, s) = (l, latch aALM_EVENT 2 s) := by
  refine if_pos ?_
  rcases h with h | h | h <;> simp [h]

theorem shelveLeft_applyCmd_unshelve : (pointGet (applyCmd (i, .unshelve) (l, s)).2 i.toNat).shelveLeft = 0 := by
  simp only [applyCmd]
  split
  · next h => exact h
  · rw [pointGet_pointSet_same]

end

theorem shelve_cycles (secs : BitVec 15) : (BitVec.ofNat 22 (100 * min secs.toNat 28800)).toNat = 100 * min secs.toNat 28800 := by
  rw [BitVec.toNat_ofNat]
  exact Nat.mod_eq_of_lt (by omega)

/-! Window writes (R191, R192, R208). -/

theorem st_writePointWord (p : Point) (w : Nat) (v : Word) : (writePointWord p w v).st = p.st := by
  unfold writePointWord
  split <;> rfl

theorem poisoned_undef (b a : Nat) (s : State) : poisoned (undef b s) a = (decide (a = b) || poisoned s a) := by
  unfold undef
  split
  · next h =>
    by_cases e : a = b
    · subst e
      rw [decide_eq_true rfl, Bool.true_or]
      exact h
    · rw [decide_eq_false e, Bool.false_or]
  · exact List.contains_cons

/-- What an undefined case of one function leaves: all that is not its mark. -/
theorem whenS_undef_frame (c : Bool) (b : Nat) (s : State) : whenS c (undef b) s = { s with unspec := (whenS c (undef b) s).unspec } := by
  unfold whenS undef
  (repeat' split) <;> rfl

theorem poisoned_whenS_undef_other (c : Bool) {a b : Nat} (s : State) (h : a ≠ b) : poisoned (whenS c (undef b) s) a = poisoned s a := by
  cases c with
  | false => rfl
  | true =>
    show poisoned (undef b s) a = _
    rw [poisoned_undef, decide_eq_false h, Bool.false_or]

/-- A window write writes a configuration word of the selected record and marks it where the encoding is reserved. -/
theorem recWrite_eq (w : Nat) (v : Word) (s : State) : ∃ bad : Bool, recWrite w v s =
      whenS bad (undef (pointBase s.alm.sel.toNat))
        (if w < 8 then pointSet s.alm.sel.toNat (writePointWord (pointGet s s.alm.sel.toNat) w v) s else s) ∧
    (8 ≤ w → bad = false) ∧ (w = 4 → bad = isNaN v) := by
  refine ⟨_, rfl, fun h => ?_, fun h => ?_⟩
  · obtain ⟨n, rfl⟩ := Nat.exists_eq_add_of_le' h
    rfl
  · subst h; rfl

section
variable (w : Nat) (v : Word) (s : State)

theorem recWrite_readOnly (h : 8 ≤ w) : recWrite w v s = s := by
  obtain ⟨bad, e, hbad, _⟩ := recWrite_eq w v s
  rw [e, hbad h, if_neg (Nat.not_lt.mpr h)]
  rfl

/-- A window write leaves all but the selected record and the mark of its undefined case. -/
theorem recWrite_frame : recWrite w v s = { s with alm := (recWrite w v s).alm, unspec := (recWrite w v s).unspec } := by
  obtain ⟨bad, e, _⟩ := recWrite_eq w v s
  rw [e, whenS_undef_frame]
  split <;> rfl

theorem pointGet_recWrite_other {j : Nat} (h : j ≠ s.alm.sel.toNat) : pointGet (recWrite w v s) j = pointGet s j := by
  obtain ⟨bad, e, _⟩ := recWrite_eq w v s
  rw [e, whenS_undef_frame]
  split
  · exact pointGet_pointSet_other _ s h
  · rfl

theorem pointGet_recWrite_same (h : w < 8) :
    pointGet (recWrite w v s) s.alm.sel.toNat = writePointWord (pointGet s s.alm.sel.toNat) w v := by
  obtain ⟨bad, e, _⟩ := recWrite_eq w v s
  rw [e, whenS_undef_frame, if_pos h]
  exact pointGet_pointSet_same _ _ s

theorem st_recWrite : (pointGet (recWrite w v s) s.alm.sel.toNat).st = (pointGet s s.alm.sel.toNat).st := by
  by_cases h : w < 8
  · rw [pointGet_recWrite_same w v s h, st_writePointWord]
  · rw [recWrite_readOnly w v s (Nat.not_lt.mp h)]

theorem poisoned_recWrite_other {a : Nat} (h : a ≠ pointBase s.alm.sel.toNat) : poisoned (recWrite w v s) a = poisoned s a := by
  obtain ⟨bad, e, _⟩ := recWrite_eq w v s
  rw [e, poisoned_whenS_undef_other _ _ h]
  split <;> rfl

/-- A setpoint that is not a number is a reserved encoding (Table 8.2). -/
theorem poisoned_recWrite_nan (h : isNaN v = true) : poisoned (recWrite 4 v s) (pointBase s.alm.sel.toNat) = true := by
  obtain ⟨bad, e, _, hbad⟩ := recWrite_eq 4 v s
  rw [e, hbad rfl, h]
  exact (poisoned_undef ..).trans (by rw [decide_eq_true rfl, Bool.true_or])

end

/-- Settles O34: the queue takes or counts, each command acts by its row of Table 8.11, and a window write stays with the selected
record. -/
theorem alarmCommandsWaitAndActByTable : Obligations.AlarmCommandsWaitAndActByTable := by
  refine ⟨fun s i k secs c op hc => ?queue, fun s i k secs l => ?apply, fun s w v => ⟨recWrite w v s, rfl, ?window⟩⟩
  case queue =>
    have hexec : exec c s = .next (queueCmd i op s) := by
      rcases hc with ⟨rfl, rfl⟩ | ⟨rfl, rfl⟩ | ⟨rfl, rfl⟩ <;> rfl
    refine ⟨fun hroom => ⟨_, hexec, ?_⟩, fun hfull => ⟨_, hexec, ?_⟩⟩
    · rw [queueCmd_of_room i op hroom]
      exact ⟨rfl, rfl, rfl⟩
    · rw [queueCmd_of_full i op hfull]
      exact ⟨rfl, Counted.congr (counted_bump ..) rfl rfl, latched_latch _ _ 0, rfl⟩
  case apply =>
    intro p after
    refine ⟨fun hk => ?stale, fun hst => ?unack, fun hst => ?cleared, fun hu hc => ?other, fun hp hst hsecs => ?taken, fun h => ?refused,
      shelveLeft_applyCmd_unshelve i l s⟩
    case stale =>
      simp only [after, applyCmd_ack_stale i l s hk]
      exact ⟨rfl, Counted.congr (counted_bump ..) rfl rfl, latched_latch _ _ 1⟩
    case unack => exact congrArg Point.st (pointGet_applyCmd_ack i l s (.inl ⟨hst, rfl⟩))
    case cleared => exact congrArg Point.st (pointGet_applyCmd_ack i l s (.inr ⟨hst, rfl⟩))
    case other => exact congrArg Prod.snd (applyCmd_ack_other i l s hu hc)
    case taken =>
      simp only [after, applyCmd_shelve_taken i l s hp hst hsecs, pointGet_pointSet_same]
      exact ⟨shelve_cycles secs, rfl⟩
    case refused =>
      simp only [after, applyCmd_shelve_refused i l s h]
      exact ⟨rfl, latched_latch _ _ 2⟩
  case window =>
    have hpoint := pointGet_recWrite_same w.val v s
    refine ⟨fun j hj => pointGet_recWrite_other _ v s hj, fun a ha => poisoned_recWrite_other _ v s ha, recWrite_frame _ v s,
      st_recWrite _ v s, fun h => ?cfg, fun h => ?link, fun h => ?block, fun h hnan => ?setpoint, recWrite_readOnly _ v s⟩
    case cfg => rw [hpoint (by omega), h]; exact pEnabled_setEnable _ _
    case link => rw [hpoint (by omega), h]; exact pEnabled_setEnable _ _
    case block => rw [hpoint (by omega), h]; exact pEnabled_setEnable _ _
    case setpoint => rw [h]; exact poisoned_recWrite_nan v s hnan

end Sys2Proof.Proofs

/-! O32 (R186): the cycle, at a record that the sparse table does not list. -/
namespace Sys2Proof.Proofs

open Sys2Proof.Machine Sys2Proof.Laws

/-- The slot of a record that is not listed would note its roster word, 0, over the mark 0xFFFFFFFF that the record starts with. -/
theorem slot_unlisted (s : State) : (slot s {}).1 = { evRoster := 0 } := rfl

/-- A running engine of a single unit with one record listed: point 7, digital on entry 64 and enabled. -/
def onePointListed : State :=
  { sys := { phase := .running }, vals := [(64, ⟨1, 0, 0x3F800000⟩)],
    alm := { running := true, points :=
      [(7, { cfg := 0x72200040, link := 0x8000, block := 0x80000000, roster := 0xFFFFFFFF, st := .normal })] } }

/-- The cycle runs the listed point's slot and none of a record that is not listed. -/
theorem cycle_onePointListed : (pointGet (effAlarmCycleTick onePointListed) 7).st = .activeUnack ∧
    pointGet (effAlarmCycleTick onePointListed) 0 = {} := by decide

/-- Refutes O32: with only point 7 listed, the cycle leaves record 0 as it was, while its slot would have noted the roster word. -/
theorem not_alarmCycleRunsEverySlot : ¬ Obligations.AlarmCycleRunsEverySlot := by
  intro h
  have hruns : onePointListed.alm.running = true ∧ isActiveUnit onePointListed = true := by decide
  have hfree : ∀ i < 4096, pointFree onePointListed i = false := fun _ _ => rfl
  obtain ⟨_, ht, _, _, _, _, _, _, _, _, _, hslots, _⟩ := (h onePointListed).1 hruns
  cases ht
  have hslot : pointGet (effAlarmCycleTick onePointListed) 0 = (slot (latchInputs onePointListed) {}).1 :=
    hslots rfl rfl hfree (by decide) 0 (by omega)
  rw [cycle_onePointListed.2, slot_unlisted] at hslot
  exact absurd (congrArg Point.evRoster hslot) (by decide)

end Sys2Proof.Proofs
